-- ==== Sys2Proof/Word.lean ====
section
/-! DEFINITION. The word types of the module and their plainest arithmetic. -/
namespace Sys2Proof

/-- One byte of memory. -/
abbrev Byte := BitVec 8
/-- A KF32 code, IEEE 754 binary32 (R53). -/
abbrev F32 := BitVec 32
/-- A 64-bit register, counter image or packet word. -/
abbrev W64 := BitVec 64

end Sys2Proof
end

