-- ==== Sys2Proof/Machine/Bits.lean ====
section
/-! DEFINITION. Bit fields, little-endian bytes (R10), counters that stop (R225, R336) and the two cyclic codes (R325, R332). -/
namespace Sys2Proof.Machine

/-- Bits [hi:lo] of a number, as a number (R10). -/
def bitsOf (v hi lo : Nat) : Nat := (v >>> lo) % 2 ^ (hi + 1 - lo)

/-- Bits [hi:lo] of a register or descriptor. -/
def fld {n : Nat} (v : BitVec n) (hi lo : Nat) : Nat := bitsOf v.toNat hi lo

/-- The number v with bits [hi:lo] replaced by x. -/
def putBits (v hi lo x : Nat) : Nat :=
  (v >>> (hi + 1)) <<< (hi + 1) + (x % 2 ^ (hi + 1 - lo)) <<< lo + v % 2 ^ lo

/-- The register v with bits [hi:lo] replaced by x. -/
def setFld {n : Nat} (v : BitVec n) (hi lo x : Nat) : BitVec n := BitVec.ofNat n (putBits v.toNat hi lo x)

/-- A one-bit field. -/
def flag {n : Nat} (v : BitVec n) (i : Nat) : Bool := fld v i i == 1

/-- A number as a one-bit field. -/
def b2n (b : Bool) : Nat := if b then 1 else 0

/-- The two's-complement reading of a w-bit field. -/
def signed (w v : Nat) : Int := if v < 2 ^ (w - 1) then (v : Int) else (v : Int) - (2 ^ w : Nat)

/-- The w-bit two's-complement code of an integer. -/
def unsigned (w : Nat) (x : Int) : Nat := (x % (2 ^ w : Nat)).toNat

/-- The value of little-endian bytes (R10). -/
def leNat : List Byte → Nat
  | [] => 0
  | b :: bs => b.toNat + 256 * leNat bs

/-- The n little-endian bytes of a number (R10). -/
def leBytes : Nat → Nat → List Byte
  | 0, _ => []
  | n + 1, v => BitVec.ofNat 8 v :: leBytes n (v / 256)

/-- The bytes from `off`, `n` of them; absent bytes read 0. -/
def slice (bs : List Byte) (off n : Nat) : List Byte :=
  let got := (bs.drop off).take n
  got ++ List.replicate (n - got.length) 0

/-- The little-endian number in n bytes from `off`. -/
def leAt (bs : List Byte) (off n : Nat) : Nat := leNat (slice bs off n)

/-- The largest value of a 64-bit counter that stops. -/
def maxU64 : Nat := 2 ^ 64 - 1

/-- A counter that stops at 2^64 - 1 (R225, R304, R336, R391, R418, R498, R550). -/
def addSat (c k : Nat) : Nat := Nat.min (c + k) maxU64

/-- A counter of w bits that stops at its largest value. -/
def addSatW (w c k : Nat) : Nat := Nat.min (c + k) (2 ^ w - 1)

/-- Is x a multiple of m (m above 0). -/
def aligned (x m : Nat) : Bool := x % m == 0

/-- The quotient rounded up. -/
def ceilDiv (a b : Nat) : Nat := (a + b - 1) / b

/-- The least k with 2^k at least n; 0 for n of 0 or 1 (R96). -/
def ceilLog2 (n : Nat) : Nat := if n ≤ 1 then 0 else Nat.log2 (n - 1) + 1

/-- The largest whole r with r * r at most n, by Newton steps from above (R508: floor of the exact root). -/
def isqrt (n : Nat) : Nat :=
  let rec go : Nat → Nat → Nat
    | 0, r => r
    | k + 1, r =>
      let r' := (r + n / r) / 2
      if r' < r then go k r' else r
  if n = 0 then 0 else go (Nat.log2 n + 8) (2 ^ (Nat.log2 n / 2 + 1))

/-- One bit of the CRC-64 of ECMA-182, most significant bit first (R325). -/
def crc64Bit (c : BitVec 64) (bit : Bool) : BitVec 64 :=
  let top := c.getMsbD 0
  let c := c <<< 1
  if top != bit then c ^^^ 0x42F0E1EBA9EA3693#64 else c

/-- One byte of the CRC-64, its most significant bit first. -/
def crc64Byte (c : BitVec 64) (b : Byte) : BitVec 64 :=
  [7, 6, 5, 4, 3, 2, 1, 0].foldl (fun c i => crc64Bit c (b.getLsbD i)) c

/-- The CRC-64 of R325: initial value 0, no reflection, no final XOR. -/
def crc64 (bs : List Byte) : BitVec 64 := bs.foldl crc64Byte 0

/-- One bit of CRC-32C in its reflected form. -/
def crc32cBit (c : BitVec 32) : BitVec 32 :=
  if c.getLsbD 0 then (c >>> 1) ^^^ 0x82F63B78#32 else c >>> 1

/-- One byte of CRC-32C. -/
def crc32cByte (c : BitVec 32) (b : Byte) : BitVec 32 :=
  (List.replicate 8 ()).foldl (fun c _ => crc32cBit c) (c ^^^ b.setWidth 32)

/-- CRC-32C (R282, R329, R332): polynomial 0x1EDC_6F41, reflected, initial value and final XOR all ones. PRESUMED: the manual names the code
and leaves its parameters to the standard (log 14). -/
def crc32c (bs : List Byte) : BitVec 32 := (bs.foldl crc32cByte 0xFFFFFFFF#32) ^^^ 0xFFFFFFFF#32

/-- The counter-based generator's mixer (R77). -/
def mix (z : W64) : W64 :=
  let z := (z ^^^ (z >>> 30)) * 0xBF58476D1CE4E5B9#64
  let z := (z ^^^ (z >>> 27)) * 0x94D049BB133111EB#64
  z ^^^ (z >>> 31)

/-- The 16-bit draw u of an element (R77). -/
def draw (jobKey : W64) (stream step index : Nat) : Nat :=
  let z := mix (jobKey ^^^ BitVec.ofNat 64 stream)
  let z := mix (z ^^^ BitVec.ofNat 64 step)
  let z := mix (z ^^^ BitVec.ofNat 64 index)
  (z >>> 48).toNat

/-- Replace the value at key k, or add it at the end. -/
def assocSet {α β : Type} [BEq α] (k : α) (v : β) : List (α × β) → List (α × β)
  | [] => [(k, v)]
  | (a, b) :: rest => if a == k then (a, v) :: rest else (a, b) :: assocSet k v rest

/-- The value at key k. -/
def assocGet {α β : Type} [BEq α] (k : α) (l : List (α × β)) : Option β := (l.find? (fun p => p.1 == k)).map (·.2)

/-- Change the element at place i, if there is one. -/
def modAt {α : Type} (i : Nat) (f : α → α) : List α → List α
  | [] => []
  | a :: as => match i with
    | 0 => f a :: as
    | j + 1 => a :: modAt j f as

/-- Add x to a list kept without repeats. -/
def insertNew {α : Type} [BEq α] (x : α) (l : List α) : List α := if l.contains x then l else l ++ [x]

/-- A number with the bits of some ranges 0: reserved bits, which read as 0 whatever is written (R15). -/
def cleared (rs : List (Nat × Nat)) (v : Nat) : Nat := rs.foldl (fun v r => putBits v r.1 r.2 0) v

end Sys2Proof.Machine
end

