-- ==== Sys2Proof/Syntax.lean ====
section
/-! DEFINITION. The commands of the module: one constructor of Instr for each row of the table of operations and events, with the
operands the row takes. A command of the host carries its packet's header, parameters and payload; an event carries `t`, the reading of
the module's own clock in ns at which it happens, and what the module then senses (a level, a reading, the verdict of a check on
physical hardware). -/
namespace Sys2Proof

/-- What a host command's packet carries besides its parameters (R425): the ring it came on, TAG, ORDERED, NO_IRQ, PTR_ADDR and
PAYLOAD_LEN. -/
structure Hdr where
  ring : Nat
  tag : BitVec 16
  ordered : Bool
  noIrq : Bool
  ptrAddr : Nat
  payloadLen : Nat
deriving DecidableEq, Repr

/-- A flit: the 8-byte header of R326, 240 payload bytes and the CRC-64 of its trailer (R325), as the FEC gives them; and the symbols that the FEC corrected in its codewords, by
physical lane (R336). -/
structure Flit where
  head : BitVec 64
  payload : List Byte
  crc : BitVec 64
  corrected : List (Nat × Nat) := []
deriving DecidableEq, Repr

/-- A packet: the 32-byte header of R329 and its payload. -/
structure Pkt where
  head : BitVec 256
  payload : List Byte
deriving DecidableEq, Repr

/-- A flow (R331). `urgent` is its CLASS. -/
structure FlowKey where
  srcModule : Nat
  srcDie : Nat
  dstModule : Nat
  dstDie : Nat
  urgent : Bool
deriving DecidableEq, Repr

/-- The five issue queues of a croft (R180). -/
inductive CroftUnit where
  | fa | ba | lane | stile | move
deriving DecidableEq, Repr

/-- The two arrays of a croft (R27). -/
inductive Arr where
  | fa | ba
deriving DecidableEq, Repr

/-- What a LINK flit says (R327, R337): training or peer identity, the lane a peer wants substituted, or its acknowledgement. -/
inductive LinkMsg where
  | identity (peerModule peerPort : Nat)
  | substitute (lane : Nat)
  | substituteAck (lane : Nat)
deriving DecidableEq, Repr

/-- A clock domain (R590) or rail (R582) as the monitors see it: the clock of compute die d, or its rail; or another one, clock domain 16 + n for n below 24, then the
other rails in the order of R582. -/
inductive MonSource where
  | computeDie (d : Nat) (rail : Bool)
  | other (n : Nat)
deriving DecidableEq, Repr

/-- The two ways into the management plane (R574): over SGMII a request comes in an Ethernet frame, of an EtherType and addressed to a MAC address. -/
inductive Binding where
  | i3c
  | sgmii (etherType : Nat) (dst : Nat)
deriving DecidableEq, Repr

/-- A component of a firmware update as the update agent names it (R572): classification, identifier, comparison stamp. -/
structure Component where
  classification : Nat
  identifier : Nat
  stamp : Nat
deriving DecidableEq, Repr

/-- What a background scrub read found (R173, R289, R539): the byte of the frame, or (tier 0) of the croft store, at which an error lies, and the code that corrected it in the cellar: 0 the
link ECC, 1 the on-die ECC, 2 the code of R289. -/
inductive ScrubResult where
  | clean
  | corrected (offset code : Nat)
  | uncorrectable (offset : Nat)
deriving DecidableEq, Repr

/-- How the memory accesses of a command go, which the memories decide: `store`, a croft-store word by its address whose code finds an error, with whether
it is corrected (R173); `failed`, a tier access by its device address that fails, with the attempts that do (R306); `corrected`, cellar bursts by their device
address that a code corrects: 0 the link ECC, 1 the on-die ECC, 2 the code of R289. -/
structure Access where
  store : Option (Nat × Bool) := none
  failed : Option (Nat × Nat) := none
  corrected : List (Nat × Nat) := []
deriving DecidableEq, Repr

/-- The three exact comparisons of a tile as the array makes them (R105), and whether the duplicated mill adders agree on what the tile exports (R537). -/
structure TileChecks where
  product : Bool := true
  run : Bool := true
  barrel : Bool := true
  adders : Bool := true
deriving DecidableEq, Repr

/-- One pass of every sensor (R587), in 0.1 degrees Celsius: die junctions, I/O and control dies, twenty LPDDR6 packages, power stage, optical engines by
port, coolant inlet. -/
structure Thermals where
  junctions : List Int
  ioControl : List Int
  packages : List Int
  stage : Int
  optics : List (Nat × Int)
  inlet : Int
deriving DecidableEq, Repr

/-- What boot senses (R561, R559, R565): GA pins, what the SRAM region holds at standby power-up, the silicon stepping, the rails, the LPDDR6 density; and what Brixyaba wrote into
the EEPROM at service while standby power was off, the configuration record and the helper data (R557). -/
structure BootSense where
  ga : Nat
  sram : List Byte := []
  service : Option (List Byte × List Byte) := none
  stepping : Nat
  railsOk : Bool
  densityGib : Nat
deriving DecidableEq, Repr

/-- What the start-up self-test finds (R566). -/
structure SelfTestResult where
  failingSlots : List (Nat × Nat)
  larderOk : Bool
  bellLineOk : Bool
  failedFrames : List Nat
  sp0Ok : Bool
  /-- Tlayn lanes that failed, by port -/
  failedLanes : List (Nat × Nat) := []
deriving DecidableEq, Repr

/-- What one self-check run of a vector file gives (R606 to R609), the vectors being run on physical crofts: run, failed, and the
failing entries as R609 lays them out. -/
structure CheckRun where
  run : Nat
  failed : Nat
  entries : List (BitVec 256)
deriving DecidableEq, Repr

/-- A croft whose next operation a command runs, and how the operation's accesses go. -/
structure OnCroft where
  croft : Nat
  acc : Access := {}
deriving DecidableEq, Repr

/-- The squirrel queue that starts its next move, PREFETCH's or OFFLOAD's (R300), and how the move's accesses go. -/
structure MoveStart where
  prefetch : Bool
  acc : Access := {}
deriving DecidableEq, Repr

/-- A rotation site that an almanac declares (R131): the tensor, the block size, ROT_STREAM, and the tensor's logical row length before any sharding. The manual
gives the declaration no encoding in the image (log 102). -/
structure RotationSite where
  tensor : Nat
  block : Nat
  stream : Nat
  rowLength : Nat
deriving DecidableEq, Repr

/-- The almanac that JOB_LOAD brings (R444): the bytes of its image, and the rotation sites it declares. -/
structure JobImage where
  bytes : List Byte
  sites : List RotationSite := []
deriving DecidableEq, Repr

/-- The commands, in the order of the table. -/
inductive Instr where
  -- host commands
  | nop (h : Hdr)
  | descWrite (h : Hdr) (kind index : Nat) (payload : List Byte)
  | descRead (h : Hdr) (kind index : Nat) (shadow : Bool)
  | copyIn (h : Hdr) (devAddr length : Nat) (payload : List Byte) (acc : Access)
  | copyOut (h : Hdr) (devAddr length : Nat) (acc : Access)
  | parcelCreate (h : Hdr) (base pages home : Nat) (pin codec : Bool)
  | parcelFree (h : Hdr) (parcel : Nat)
  | parcelQuery (h : Hdr) (parcel : Nat)
  | parcelMigrate (h : Hdr) (parcel tier firstPage pages : Nat)
  | pageQuery (h : Hdr) (address pages : Nat)
  | jobLoad (h : Hdr) (jobId : Nat) (image : JobImage)
  | jobUnload (h : Hdr)
  | jobStart (h : Hdr) (jobKey : W64) (tStart firstStep : Nat)
  | jobStop (h : Hdr) (lastStep : Nat)
  | jobAbort (h : Hdr) (hostReason : BitVec 32)
  | restore (h : Hdr) (snapshotId source sourceModule : Nat) (image : List Byte) (tries : Nat)
  | drainTableLoad (h : Hdr) (croft : Nat) (table : List Byte)
  | laneProgLoad (h : Hdr) (croft : Nat) (image : List Byte)
  | fabricTableLoad (h : Hdr) (peers routes : Bool) (payload : List Byte)
  | groupLoad (h : Hdr) (group : Nat) (payload : List Byte)
  | tallyRead (h : Hdr) (firstTag lastTag : Nat)
  | digestRead (h : Hdr) (group : Nat)
  | fenceModule (h : Hdr)
  | fenceGroup (h : Hdr) (group fenceId timeoutUs : Nat)
  | fenceHost (h : Hdr)
  | ideKeySet (h : Hdr) (streamId substream : Nat) (dir keySet : Bool) (payload : List Byte)
  | ideKeyGo (h : Hdr) (streamId : Nat) (dir keySet enable : Bool)
  | fwStage (h : Hdr) (offset : Nat) (payload : List Byte)
  | fwCommit (h : Hdr) (imageLen : Nat)
  | attest (h : Hdr) (outLen : Nat) (nonce : List Byte)
  | selfCheck (h : Hdr) (set croft : Nat) (result : CheckRun)
  -- command interface
  | ringPoll (t : Nat) (failed : List Nat)
  | payloadReadDone (t ring : Nat) (tag : BitVec 16) (tries : Nat)
  | ringEnWrite (t ring : Nat) (value : W64)
  | pollCtrlWrite (t : Nat) (value : W64)
  | mmioRefusedClear (t : Nat)
  | registerWrite (t offset bytes : Nat) (value : W64)
  -- almanac operations
  | faMatmul (croft : Nat) (acc : Access)
  | baMatmulWs (croft : Nat) (acc : Access)
  | baMatmulOs (croft : Nat) (acc : Access)
  | laneRun (croft : Nat) (acc : Access)
  | stileWiden (on_ : OnCroft)
  | stileNarrow (on_ : OnCroft)
  | moveCopy (croft : Nat) (acc : Access)
  | moveMigrate (on_ : OnCroft)
  | moveOffload (croft : Nat)
  | movePrefetch (croft : Nat)
  | commit (croft : Nat) (adderOk : Bool)
  | fenceCroft (croft : Nat)
  | waitTime (croft : Nat)
  | waitTimeExpiry (t croft : Nat)
  | almanacNop (croft : Nat)
  | tileDrain (croft : Nat) (arr : Arr) (checks : TileChecks)
  | sliceExport (croft : Nat) (adderOk : Bool)
  | repeatWider (on_ : OnCroft)
  | spanReplay (on_ : OnCroft)
  -- lane instructions
  | laneNop (croft : Nat)
  | add (croft : Nat)
  | sub (croft : Nat)
  | mul (croft : Nat)
  | fma (croft : Nat)
  | div (croft : Nat)
  | max (croft : Nat)
  | min (croft : Nat)
  | abs (croft : Nat)
  | neg (croft : Nat)
  | recip (croft : Nat)
  | sqrt (croft : Nat)
  | rsqrt (croft : Nat)
  | exp2 (croft : Nat)
  | log2 (croft : Nat)
  | cmp (croft : Nat)
  | sel (croft : Nat)
  | mov (croft : Nat)
  | const (croft : Nat)
  | load (croft : Nat)
  | loadMasterWeight (croft : Nat)
  | loadClipFactor (croft : Nat)
  | loadLr (croft : Nat)
  | loadHyp (croft : Nat)
  | loadStepNumber (croft : Nat)
  | store (croft : Nat)
  | storeMaster (croft : Nat)
  | storeFirstMoment (croft : Nat)
  | storeSecondMoment (croft : Nat)
  | storeForwardCopy (croft : Nat)
  | storeBackwardCopy (croft : Nat)
  | draw (croft : Nat)
  | shuf (croft : Nat)
  | redAdd (croft : Nat)
  | redMax (croft : Nat)
  | phaseEnd (croft : Nat)
  | endProgram (croft : Nat)
  -- cache, journal, boundary, tiers
  | cacheFlushDone (t slot tries : Nat)
  | forcedCommit (t croft : Nat)
  | commitHoldLimit (t : Nat) (crofts : List Nat)
  | stepBoundary (t : Nat)
  | tallySlotTrailer (t : Nat)
  | retiredPageRetry (t page tries : Nat)
  | pageMigrationSwitch (t page tries : Nat)
  | squirrelMoveStart (t : Nat) (queue : MoveStart)
  | completionTimeout (t croft : Nat)
  | cellarCalibration (t channel : Nat)
  | cellarRetrain (t channel : Nat)
  | cellarRetrainDone (t channel : Nat)
  | scrub (t tier frame : Nat) (found : ScrubResult) (pass : Bool)
  -- flits and packets
  | nullFlit (t port : Nat) (f : Flit)
  | dataFlit (t port : Nat) (f : Flit) (adderOk : Bool)
  | linkFlit (t port : Nat) (f : Flit) (msg : LinkMsg)
  | timeFlit (t port : Nat) (f : Flit) (t4 : Nat)
  | timeFlitSend (t : Nat)
  | write (t port : Nat) (p : Pkt)
  | readReq (t port : Nat) (p : Pkt)
  | readResp (t port : Nat) (p : Pkt)
  | e2eAck (t : Nat) (flow : FlowKey) (seq : BitVec 16)
  | e2eAckSend (t : Nat) (flow : FlowKey)
  | e2eRetransmit (t : Nat) (flow : FlowKey) (seq : BitVec 16)
  | millContrib (t port : Nat) (p : Pkt) (adderOk : Bool)
  | excessQuarter (t port : Nat) (p : Pkt) (adderOk : Bool)
  | millResult (t port : Nat) (p : Pkt)
  | raisedExponent (t port : Nat) (p : Pkt)
  | broadcast (t port : Nat) (p : Pkt) (adderOk : Bool)
  | millDeadline (t group slice mb part level : Nat) (adderOk : Bool)
  | fenceGroupTimeout (t group fenceId : Nat)
  | suspect (t port : Nat) (p : Pkt)
  | confirm (t port : Nat) (p : Pkt)
  | clear (t port : Nat) (p : Pkt)
  | neighbours (t port : Nat) (p : Pkt)
  | bell (t port : Nat) (p : Pkt)
  | bellTa (t : Nat)
  | abortStopLimit (t : Nat) (unstopped : List Nat)
  -- links and fabric time
  | linkIdleTimeout (t port : Nat)
  | laneLossOfLock (t port : Nat) (lanes : List Nat)
  | laneCorrectionLimit (t port lane symbols : Nat)
  | laneRetrainDone (t port : Nat) (trained : Bool)
  | portRetrain (t port : Nat)
  | portTrainingDone (t port peerModule peerPort : Nat) (trained : Bool)
  | sp0Trained (t peerModule peerPort : Nat) (trained : Bool)
  | parentTimeout (t : Nat)
  | parentRestore (t : Nat)
  | timeLost (t : Nat)
  | ppsInEdge (t : Nat)
  | ppsLoss (t : Nat)
  -- the badger, resets, replay
  | croftWatchdog (t croft : Nat) (u : CroftUnit) (counted : Nat)
  | localStallLimit (t croft : Nat) (u : CroftUnit)
  | remoteWatch (t producer : Nat)
  | remoteBound (t producer : Nat)
  | handlerTake (t : Nat) (failed : Bool)
  | resetTimeout (t : Nat)
  | resetComplete (t : Nat) (failing : List Nat)
  | replay (t : Nat) (on_ : OnCroft)
  | croftFaultWindow (t croft : Nat)
  | moduleReset (t : Nat) (b : BootSense)
  -- safety and observation
  | selfTestSlot (t slot : Nat) (passed released diagnosticOk : Bool)
  | bellLineTest (t : Nat) (passed : Bool)
  | lockstepMismatch (t pair : Nat)
  | monitorExcursion (t : Nat) (src : MonSource)
  | monitorReturn (t : Nat) (src : MonSource)
  | monitorTrip (t : Nat) (src : MonSource)
  | telemetrySample (t : Nat) (inputW : Nat)
  | logExport (t seq : Nat)
  | logCommit (t : Nat)
  -- the bear
  | bearBackgroundCopy (t tries : Nat)
  | pageCopied (t page tries : Nat)
  | imageTrailer (t : Nat)
  | restoreTwinTimeout (t : Nat)
  -- boot, power, thermal
  | standbyPowerUp (t : Nat) (b : BootSense)
  | startupSelfTest (t : Nat) (r : SelfTestResult)
  | recoveryReset (t : Nat) (b : BootSense)
  | standbyPowerLoss (t : Nat)
  | powerFailWarning (t : Nat)
  | powerDownStart (t : Nat)
  | powerDownComplete (t : Nat)
  | inputOvervoltage (t : Nat)
  | inputOvercurrent (t : Nat)
  | inputTransient (t : Nat)
  | inputReturn (t : Nat) (b : BootSense)
  | prsntNBreak (t : Nat)
  | perstNAssert (t : Nat)
  | perstNRelease (t : Nat) (b : BootSense)
  | powerCapCheck (t p100 p1ms vin : Nat)
  | thermalSensorRead (t : Nat) (r : Thermals)
  | thermalThrottleStep (t : Nat)
  | ideIntegrityFailure (t : Nat)
  | vectorTimeout (t vectorId croft : Nat)
  -- management plane
  | getBlock (b : Binding) (block : Nat)
  | logInfo (b : Binding)
  | logRead (b : Binding) (offset length : Nat)
  | pldmSensorRead (b : Binding) (sensor : Nat)
  | setEndpointId (b : Binding) (eid : Byte)
  | getEndpointId (b : Binding)
  | getMctpVersionSupport (b : Binding) (typ : Nat)
  | getMessageTypeSupport (b : Binding)
  | getVendorMessageSupport (b : Binding)
  | getTid (b : Binding)
  | getPldmVersion (b : Binding) (typ : Nat)
  | getPldmTypes (b : Binding)
  | getPldmCommands (b : Binding) (typ : Nat)
  | queryDeviceIdentifiers (b : Binding)
  | getFirmwareParameters (b : Binding)
  | requestUpdate (b : Binding)
  | passComponentTable (b : Binding) (c : Component)
  | updateComponent (b : Binding) (c : Component) (imageSize : Nat)
  | requestFirmwareData (b : Binding) (bytes : List Byte)
  | verifyComplete (b : Binding)
  | applyComplete (b : Binding) (ok : Bool)
  | activateFirmware (b : Binding)
  | getStatus (b : Binding)
  | cancelUpdateComponent (b : Binding)
  | cancelUpdate (b : Binding)
  -- later ends of earlier commands, and the rest
  | moveTilesWritten (t croft opIndex : Nat)
  | orderingReadComplete (t ring : Nat) (tag : BitVec 16)
  | imageRegionWriteDone (t : Nat) (ok : Bool)
  | ideKeySetBoundary (t : Nat) (dir : Bool)
  | managementLinkFailure (t : Nat) (b : Binding)
  | managementPlaneRecovery (t : Nat)
  | tapInstruction (t ir : Nat)
deriving DecidableEq, Repr

end Sys2Proof
end

