-- ==== Sys2Proof/Decode.lean ====
section
/-! DEFINITION. Command packets: what the bytes of a ring's slots say (R425, R426, R439), the checks of steps 1 and 2 of R432 (R617), and an
encoder of the same packets. -/
namespace Sys2Proof
open Machine

/-- The table of operations gives no row any bits: no word spells a command. -/
def decodeTableWord (_nbits _w : Nat) : Option Instr := none

/-- Bytes of the descriptor of a KIND (R440, R503, R546, R585); none for a reserved KIND. -/
def descSize : Nat → Option Nat
  | 0x01 => some 64 | 0x02 => some 8 | 0x03 => some 16 | 0x04 => some 16 | 0x05 => some 8 | 0x06 => some 16 | 0x07 => some 16
  | 0x08 => some 16 | 0x09 => some 64 | 0x0A => some 16 | 0x0B => some 32 | 0x0C => some 640 | 0x0D => some 32 | 0x0E => some 64
  | _ => none

/-- Is the opcode one of R439. -/
def opcodeKnown (op : Nat) : Bool :=
  [0x00, 0x01, 0x02, 0x03, 0x04, 0x08, 0x09, 0x0A, 0x0B, 0x0C, 0x10, 0x11, 0x12, 0x13, 0x14, 0x15, 0x18, 0x19, 0x1A, 0x1B, 0x20, 0x21,
    0x28, 0x29, 0x2A, 0x30, 0x31, 0x38, 0x39, 0x3A, 0x40].contains op

namespace Packet

/-- Byte n of a packet's slots. -/
def byte (b : List Byte) (n : Nat) : Nat := ((b[n]?).getD 0).toNat
/-- OPCODE (R425). -/
def opcode (b : List Byte) : Nat := byte b 0
/-- ORDERED (R425). -/
def ordered (b : List Byte) : Bool := byte b 1 % 2 == 1
/-- NO_IRQ (R425). -/
def noIrq (b : List Byte) : Bool := byte b 1 / 2 % 2 == 1
/-- PTR (R425). -/
def ptr (b : List Byte) : Bool := byte b 1 / 4 % 2 == 1
/-- SLOTS (R425). -/
def slots (b : List Byte) : Nat := byte b 2 % 8
/-- TAG (R425). -/
def tag (b : List Byte) : BitVec 16 := BitVec.ofNat 16 (leAt b 4 2)
/-- PTR_ADDR (R425). -/
def ptrAddr (b : List Byte) : Nat := leAt b 8 8
/-- PAYLOAD_LEN (R425). -/
def payloadLen (b : List Byte) : Nat := leAt b 16 4
/-- The little-endian parameter in n bytes from Pk (R439). -/
def param (b : List Byte) (k n : Nat) : Nat := leAt b (24 + k) n

/-- The lowest packet byte of a reserved header bit that is set (R425, R432, R620). -/
def reservedAt (b : List Byte) : Option Nat :=
  if byte b 1 / 8 != 0 then some 1
  else if byte b 2 / 8 != 0 then some 2
  else if byte b 3 != 0 then some 3
  else if byte b 6 != 0 then some 6
  else if byte b 7 != 0 then some 7
  else if leAt b 20 4 != 0 then some 20
  else none

/-- The checks that R425 and R426 make of every packet. -/
def commonBad (b : List Byte) : Option Nat :=
  match reservedAt b with
  | some n => some n
  | none =>
    if ptr b && slots b != 0 then some 1
    else if ptr b && 268435456 < payloadLen b then some 16
    else if !ptr b && 64 * slots b < payloadLen b then some 16
    else none

/-- No payload: PTR, SLOTS, PAYLOAD_LEN and PTR_ADDR 0 (R617). -/
def nonePayload (b : List Byte) : Option Nat :=
  if ptr b then some 1 else if slots b != 0 then some 2 else if payloadLen b != 0 then some 16 else if ptrAddr b != 0 then some 8 else none

/-- PTR as the row asks, then a length test (R617). -/
def lenRow (b : List Byte) (wantPtr : Bool) (lenOk : Bool) : Option Nat :=
  if ptr b != wantPtr then some 1 else if lenOk then none else some 16

/-- The packet byte of the field that breaks the opcode's row of R617, if one does. -/
def rowBad (b : List Byte) : Option Nat :=
  let n := payloadLen b
  match opcode b with
  | 0x01 => match descSize (param b 0 1) with
    | none => some 24
    | some k => if n == k then none else some 16
  | 0x02 => match descSize (param b 0 1) with
    | none => some 24
    | some k => lenRow b true (k ≤ n)
  | 0x03 => lenRow b true (n == param b 8 4)
  | 0x04 => lenRow b true (n == param b 8 4)
  | 0x0A => lenRow b true (56 ≤ n)
  | 0x0C => lenRow b true (32 * param b 8 4 ≤ n)
  | 0x10 => lenRow b true (64 ≤ n)
  | 0x18 => lenRow b true (n == 4096)
  | 0x19 => lenRow b true (n == 16896)
  | 0x1A =>
    let k := 72 * (param b 0 1 % 2) + 208 * (param b 0 1 / 2 % 2)
    lenRow b false (n == k && n != 0)
  | 0x1B => lenRow b false (n == 64)
  | 0x20 => lenRow b true (64 ≤ n)
  | 0x21 => lenRow b true (96 ≤ n)
  | 0x30 => lenRow b false (n == 40)
  | 0x38 => lenRow b true (n % 64 == 0 && 64 ≤ n)
  | 0x3A => lenRow b false (n == 32)
  | 0x40 => lenRow b true (64 ≤ n)
  | _ => nonePayload b

/-- Steps 1 and 2 of R432: the status and DETAIL of the first check that fails. -/
def check (b : List Byte) : Option (Nat × Nat) :=
  if !opcodeKnown (opcode b) then some (0x01, 0)
  else match commonBad b with
    | some n => some (0x02, n)
    | none => (rowBad b).map (fun n => (0x02, n))

/-- Does the packet's payload have to be read from PTR_ADDR (R426, R439): by pointer, and no output buffer. -/
def readsPayload (b : List Byte) : Bool := ptr b && [0x01, 0x03, 0x10, 0x18, 0x19, 0x38].contains (opcode b)

/-- The inline payload: PAYLOAD_LEN bytes of the continuation slots (R426). -/
def inlinePayload (b : List Byte) : List Byte := slice b 64 (payloadLen b)

/-- The header part that every command carries. -/
def hdr (ring : Nat) (b : List Byte) : Hdr :=
  { ring := ring, tag := tag b, ordered := ordered b, noIrq := noIrq b, ptrAddr := ptrAddr b, payloadLen := payloadLen b }

/-- Bit k of a parameter byte. -/
def pbit (b : List Byte) (n k : Nat) : Bool := param b n 1 / 2 ^ k % 2 == 1

/-- The command of a packet (R439), with the payload read for it. What the command finds on physical hardware is taken to be in order; what it reads
over the fabric is empty (log 21). -/
def toCommand (ring : Nat) (b payload : List Byte) : Option Instr :=
  let h := hdr ring b
  match opcode b with
  | 0x00 => some (.nop h)
  | 0x01 => some (.descWrite h (param b 0 1) (param b 2 2) payload)
  | 0x02 => some (.descRead h (param b 0 1) (param b 2 2) (pbit b 4 0))
  | 0x03 => some (.copyIn h (param b 0 8) (param b 8 4) payload {})
  | 0x04 => some (.copyOut h (param b 0 8) (param b 8 4) {})
  | 0x08 => some (.parcelCreate h (param b 0 8) (param b 8 4) (param b 12 1 % 4) (pbit b 12 2) (pbit b 12 3))
  | 0x09 => some (.parcelFree h (param b 0 2))
  | 0x0A => some (.parcelQuery h (param b 0 2))
  | 0x0B => some (.parcelMigrate h (param b 0 2) (param b 2 1) (param b 4 4) (param b 8 4))
  | 0x0C => some (.pageQuery h (param b 0 8) (param b 8 4))
  | 0x10 => some (.jobLoad h (param b 0 2) { bytes := payload })
  | 0x11 => some (.jobUnload h)
  | 0x12 => some (.jobStart h (BitVec.ofNat 64 (param b 0 8)) (param b 8 8) (param b 16 8))
  | 0x13 => some (.jobStop h (param b 0 8))
  | 0x14 => some (.jobAbort h (BitVec.ofNat 32 (param b 0 4)))
  | 0x15 => some (.restore h (param b 0 8) (param b 8 1) (param b 10 2) [] 0)
  | 0x18 => some (.drainTableLoad h (param b 0 1) payload)
  | 0x19 => some (.laneProgLoad h (param b 0 1) payload)
  | 0x1A => some (.fabricTableLoad h (pbit b 0 0) (pbit b 0 1) payload)
  | 0x1B => some (.groupLoad h (param b 0 2) payload)
  | 0x20 => some (.tallyRead h (param b 0 2) (param b 2 2))
  | 0x21 => some (.digestRead h (param b 0 2))
  | 0x28 => some (.fenceModule h)
  | 0x29 => some (.fenceGroup h (param b 0 2) (param b 2 1) (param b 4 4))
  | 0x2A => some (.fenceHost h)
  | 0x30 => some (.ideKeySet h (param b 0 1) (param b 1 1 % 4) (pbit b 1 2) (pbit b 1 3) payload)
  | 0x31 => some (.ideKeyGo h (param b 0 1) (pbit b 1 2) (pbit b 1 3) (pbit b 2 0))
  | 0x38 => some (.fwStage h (param b 0 4) payload)
  | 0x39 => some (.fwCommit h (param b 0 4))
  | 0x3A => some (.attest h (param b 0 4) payload)
  | 0x40 => some (.selfCheck h (param b 0 4) (param b 4 1) { run := 0, failed := 0, entries := [] })
  | _ => none

/-- A header slot (R425) from its parts; the parameters fill bytes 24 to 63. -/
def headerSlot (op : Nat) (h : Hdr) (byPtr : Bool) (nslots : Nat) (params : List Byte) : List Byte :=
  [BitVec.ofNat 8 op, BitVec.ofNat 8 (b2n h.ordered + 2 * b2n h.noIrq + 4 * b2n byPtr), BitVec.ofNat 8 nslots, 0]
    ++ leBytes 2 h.tag.toNat ++ [0, 0] ++ leBytes 8 h.ptrAddr ++ leBytes 4 h.payloadLen ++ leBytes 4 0
    ++ slice params 0 40

/-- The opcode and parameter bytes of a command of the host (R439); none for an event. -/
def ofCommand : Instr → Option (Nat × Hdr × List Byte × List Byte)
  | .nop h => some (0x00, h, [], [])
  | .descWrite h k i pl => some (0x01, h, leBytes 1 k ++ [0] ++ leBytes 2 i, pl)
  | .descRead h k i sh => some (0x02, h, leBytes 1 k ++ [0] ++ leBytes 2 i ++ leBytes 1 (b2n sh), [])
  | .copyIn h a n pl _ => some (0x03, h, leBytes 8 a ++ leBytes 4 n, pl)
  | .copyOut h a n _ => some (0x04, h, leBytes 8 a ++ leBytes 4 n, [])
  | .parcelCreate h a n home pin codec =>
    some (0x08, h, leBytes 8 a ++ leBytes 4 n ++ leBytes 1 (home % 4 + 4 * b2n pin + 8 * b2n codec), [])
  | .parcelFree h p => some (0x09, h, leBytes 2 p, [])
  | .parcelQuery h p => some (0x0A, h, leBytes 2 p, [])
  | .parcelMigrate h p t f n => some (0x0B, h, leBytes 2 p ++ leBytes 1 t ++ [0] ++ leBytes 4 f ++ leBytes 4 n, [])
  | .pageQuery h a n => some (0x0C, h, leBytes 8 a ++ leBytes 4 n, [])
  | .jobLoad h j im => some (0x10, h, leBytes 2 j, im.bytes)
  | .jobUnload h => some (0x11, h, [], [])
  | .jobStart h k t f => some (0x12, h, leBytes 8 k.toNat ++ leBytes 8 t ++ leBytes 8 f, [])
  | .jobStop h l => some (0x13, h, leBytes 8 l, [])
  | .jobAbort h r => some (0x14, h, leBytes 4 r.toNat, [])
  | .restore h i so sm _ _ => some (0x15, h, leBytes 8 i ++ leBytes 1 so ++ [0] ++ leBytes 2 sm, [])
  | .drainTableLoad h c tb => some (0x18, h, leBytes 1 c, tb)
  | .laneProgLoad h c im => some (0x19, h, leBytes 1 c, im)
  | .fabricTableLoad h p r pl => some (0x1A, h, leBytes 1 (b2n p + 2 * b2n r), pl)
  | .groupLoad h g pl => some (0x1B, h, leBytes 2 g, pl)
  | .tallyRead h f l => some (0x20, h, leBytes 2 f ++ leBytes 2 l, [])
  | .digestRead h g => some (0x21, h, leBytes 2 g, [])
  | .fenceModule h => some (0x28, h, [], [])
  | .fenceGroup h g f t => some (0x29, h, leBytes 2 g ++ leBytes 1 f ++ [0] ++ leBytes 4 t, [])
  | .fenceHost h => some (0x2A, h, [], [])
  | .ideKeySet h i sb d k pl => some (0x30, h, leBytes 1 i ++ leBytes 1 (sb % 4 + 4 * b2n d + 8 * b2n k), pl)
  | .ideKeyGo h i d k e => some (0x31, h, leBytes 1 i ++ leBytes 1 (4 * b2n d + 8 * b2n k) ++ leBytes 1 (b2n e), [])
  | .fwStage h o pl => some (0x38, h, leBytes 4 o, pl)
  | .fwCommit h l => some (0x39, h, leBytes 4 l, [])
  | .attest h o n => some (0x3A, h, leBytes 4 o, n)
  | .selfCheck h st c _ => some (0x40, h, leBytes 4 st ++ leBytes 1 c, [])
  | _ => none

/-- The header slot of a host command's packet; the payload travels in continuation slots, or by pointer. -/
def encode (c : Instr) (byPtr : Bool) (nslots : Nat) : Option (List Byte × List Byte) :=
  (ofCommand c).map (fun (op, h, ps, pl) => (headerSlot op h byPtr nslots ps, pl))

end Packet

end Sys2Proof
end

