-- ==== Sys2Proof/Config.lean ====
section
/-! DEFINITION. What the manual leaves open or takes from another standard without giving its bits: constants with no body, so that
nothing can be proved about their values. Each is named in the assumption log. -/
namespace Sys2Proof.Config

/-- The frame of a tier that the module chooses for a page, by the model's counter of such choices (R269 names the frame, no rule
chooses it; log 7). -/
opaque freeFrame : Nat → Nat
/-- A byte the manual leaves undefined (R309, R441, R520), by the model's counter of free values and the byte's address (log 8). -/
opaque freeByte : Nat → Nat → Byte
/-- A word the manual does not state (log 8), by the model's counter of free values. -/
opaque freeWord : Nat → BitVec 64
/-- SLH-DSA-SHAKE-256s verification (FIPS 205; R555, R559, R564): does the signature verify over the bytes under the key (log 12). -/
opaque slhVerify : (key : List Byte) → (message : List Byte) → (signature : List Byte) → Bool
/-- SLH-DSA-SHAKE-256f signing under the seeds SK.seed, SK.prf and PK.seed of a key (R561, R562; log 12). -/
opaque slhSign : (seeds : List Byte) → (message : List Byte) → List Byte
/-- The public key of the SLH-DSA-SHAKE-256f key pair of some seeds (R561; log 12). -/
opaque slhPublic : (seeds : List Byte) → List Byte
/-- The fuzzy extractor (R561; log 12): the secret K from what the SRAM region holds at power-up and the PUF helper data, or none where it fails. -/
opaque fuzzyExtract : (sram helper : List Byte) → Option (BitVec 256)
/-- SHAKE256 of FIPS 202: the first n bytes over the message (R561, R573; log 12). -/
opaque shake256 : (n : Nat) → (message : List Byte) → List Byte
/-- The record public key of the boot ROM (R555; log 12). -/
opaque recordKey : List Byte
/-- The four image public keys of the boot ROM (R555; log 12). -/
opaque imageKey : Nat → List Byte
/-- The module's secret K as State.reset finds it (R561; log 12). -/
opaque moduleSecret : BitVec 256
/-- The PUF helper data and the signature of the configuration record, as Brixyaba wrote them into the EEPROM (R557, R558; log 12). -/
opaque pufHelper : List Byte
opaque recordSignature : List Byte
/-- The image region of the flash that State.reset finds, its image being the one that runs (R556, R564; log 2). -/
opaque imageRegion : List Byte
/-- The expected bits of the boot-ROM pattern set are not given (R534, R606): how many vectors the ROM set runs on one croft (log 13). -/
opaque romVectors : Nat
/-- Brixyaba's PCI-SIG vendor ID (R598; log 13). -/
opaque vendorId : BitVec 16
/-- Brixyaba's IANA enterprise number (R551; log 13). -/
opaque enterpriseNumber : BitVec 32
/-- The slots of a channel that a port holds credit for before the peer has returned any (R324 gives flow control by credits and no first value; log 3). -/
opaque firstCredits : (channel : Nat) → Nat
/-- TYPE_PARAM and TYPE_EXT of an E2E_ACK packet, whose layout the manual does not give (R330, R332): of the class of the flow it acknowledges and the highest number
delivered in order (log 8). -/
opaque ackWords : (urgent : Bool) → (seq : Nat) → Nat × Nat
/-- What an E2E_ACK packet that has come says by its TYPE_PARAM and TYPE_EXT: the class of the flow, and the number (log 8). -/
opaque ackSays : (param ext : Nat) → Bool × Nat
/-- The payload of a LINK flit, whose layout the manual does not give (R327, R337): byte i of the message of a kind with its numbers (log 90). -/
opaque linkByte : (kind a b i : Nat) → Byte
/-- The values that DMTF's control and discovery commands return where the manual gives none (R574): by command and byte (log 13). -/
opaque mctpByte : Nat → Nat → Byte

end Sys2Proof.Config
end

