-- ==== Sys2Proof/Machine/State.lean ====
section
/-! DEFINITION. The state of the module: every register, queue, buffer, counter, mode and pin that the manual gives it, the memories it
reads and writes, and the queue of the commands that wait. Descriptors are kept as the bits the manual lays out; times are in ns unless
said otherwise. -/
namespace Sys2Proof.Machine

/-- Why the block stops: no command of this block does. Where the manual gives an access no effect it has none (R9, R15, R265, R266), and an error is an effect of the
command. -/
inductive Fault where
deriving DecidableEq, Repr

/-- Why a command has no meaning. -/
inductive Refusal where
  /-- Raised by an arm of exec whose command has no meaning yet. Safe. -/
  | notModelled (mnemonic : String)
deriving DecidableEq, Repr

/-- Bytes by address, in one canonical form: addresses strictly rise and no listed byte is 0, which is what an unlisted address reads as
(R273 for parcel space; log 5 and 6 for the croft stores and host memory). -/
abbrev Mem := List Host.Cell

/-- The counters that stop at 2^64 - 1: of the fault block (R498), the stall block and tier event register (R304, R308), the mill (R391),
cache (R418) and safety (R550) blocks, the fabric (R336, R331) and the ports (R336), the lifetime log (R552), and the events the manual counts
without a named register. -/
inductive Counter where
  | errorsC | errorsT | errorsD | errorsM | errorsJ | croftResets | dieResets | domainResets | resetTimeouts
  | queueOverflows | handlerFaults | logLost | badgerFires | replayedEntries | replayNsMax | remaps | commitHolds
  | suspectsSent | suspectsFwd | suspectsCoalesced | staleReports | bellsRaised | bellDups | lateBells
  | stallNs (tier cause : Nat) | stallEvents (tier cause : Nat)
  | retries | ioFailed | migrateSkipped | framesRetired
  | contribsSent | clips | clipLost | rereductions | waits | waitNs | substitutions | twinCompares | exportDups | expHolds
  | pagesAlloc | pagesFreed | flushes | drops | droppedPages | limitStalls | fullStalls | nonfinBlocks
  | safetyAbandons | scrubPasses | bellTestsFailed | monitorTrips | monitorExcursions | millDupMismatches
  | lockstepMismatches | slotsDeferred | slotsFailed | slotsRun
  | routeDiscard | pktReject | pktCrcErr | e2eDup | e2eRetx | e2eOverflow
  | flitsTx (port : Nat) | flitsRx (port : Nat) | crcErr (port : Nat) | replays (port : Nat) | fecCorr (port : Nat)
  | fecUncorr (port : Nat) | laneSubsts (port : Nat) | linkFails (port : Nat)
  | croftTagMismatches (croft : Nat) | forcedCommits | fullJournalCommits | expLimits | sliceClips (layer slice : Nat)
  | life (section_ item : Nat)
deriving DecidableEq, Repr

/-- The two time bases and TIME_STATUS (R344 to R353). `fab` is in 1/16 ns. -/
structure Clk where
  own : Nat := 0
  /-- the running count that fabric time is read from; before a lock or the master's first TIME flit it runs all the same (R345) -/
  fab : Nat := 0
  /-- what durations are measured by, in 1/16 ns (R17): as fabric time while TIME_VALID, else as the own clock -/
  span : Nat := 0
  offset : Int := 0
  /-- was the last offset measured after step 0 (R352)? -/
  offsetLate : Bool := false
  depth : Nat := 15
  parentInUse : Nat := 0x1F
  role : Nat := 0
  ppsLock : Bool := false
  holdover : Bool := false
  locked : Bool := false
  recent : List Int := []
  holdoverAt : Option Nat := none
  parentFlitAt : Nat := 0
  primarySince : Option Nat := none
  /-- the fabric time of the last edge of PPS_IN, and when it came on the count of R17 (R353) -/
  ppsLast : Option Nat := none
  ppsAt : Option Nat := none
  /-- how FAB_REFCLK runs against the crystal of the own clock, in 10^-9: the two are independent (R348; the model's own, log 15) -/
  refRate : Int := 0
  /-- the rate steered by PPS_IN in parts per 10^9 (R353); fabric time run and not yet in `fab`, in 10^-9 of its unit; the own time up to which slewing is
  accounted for (R346) -/
  ppsRate : Int := 0
  frac : Nat := 0
  slewAt : Nat := 0
deriving DecidableEq, Repr

/-- A flit kept for retry (R328): its SEQ, and how often it was sent again (R338). -/
structure Kept where
  seq : Nat
  flit : Flit
  again : Nat := 0
deriving DecidableEq, Repr

/-- A physical lane that failed, retraining in the background (R337). -/
structure FailedLane where
  lane : Nat
  since : Nat
deriving DecidableEq, Repr

/-- The lanes of a port's engine (R337): the physical lane of each logical lane; the lane that is or was the spare, and whether it is trained and available; whether none can be
until a module reset; and the failed lane that retrains. -/
structure Phy where
  lanes : List Nat := [0, 1, 2, 3]
  spareLane : Nat := 4
  spareOk : Bool := false
  spareLost : Bool := false
  failedLane : Option FailedLane := none
deriving DecidableEq, Repr

/-- A lane of a die-to-die link that its group's spare carries (R343): the lane, since when, and whether it still retrains. -/
structure DieLane where
  lane : Nat
  since : Nat
  retraining : Bool := true
deriving DecidableEq, Repr

/-- A lane substitution under way (R337): since when, the count of flits of the end that asked at which both ends switch, whether this is that end, and whether the peer has
acknowledged. -/
structure LaneSwitch where
  lane : Nat
  since : Nat
  due : Nat
  mine : Bool
  acked : Bool := false
deriving DecidableEq, Repr

/-- One Tlayn port, or one end of a die-to-die link (R343): PORT_STATUS (R334), the retry of R328, credits (R324), the time echo (R345) and the
substitution of R337. `dieLanes` is used by a die-to-die link, whose 16 lanes at a time share one spare. -/
structure Port where
  peerModule : Nat := 0x3FFF
  peerPort : Nat := 0x1F
  subst : Bool := false
  /-- the lanes of the engine that serves the port, and those of its own engine while SP0's does (R340) -/
  phy : Phy := {}
  ownPhy : Phy := {}
  standsFor : Nat := 0x1F
  linkState : Nat := 0
  txSeq : Nat := 0
  rxAck : Nat := 0xFFF
  discarding : Bool := false
  /-- since when it discards (R303) -/
  discardAt : Nat := 0
  retry : List Kept := []
  /-- credits by channel (R324, R326): slots that the peer has returned, slots sent, and slots received here and not yet returned -/
  credits : List (Nat × Nat) := []
  used : List (Nat × Nat) := []
  owed : List (Nat × Nat) := []
  acked : Nat := 0xFFF
  lastIntact : Nat := 0
  echoRx : Nat := 0
  echoTx : Nat := 0
  /-- when the last intact TIME flit came (R351) -/
  echoAt : Nat := 0
  peerLocked : Bool := false
  peerDepth : Nat := 15
  substPending : List Nat := []
  switch : Option LaneSwitch := none
  dieLanes : List DieLane := []
  txq : List Pkt := []
  sent : List Flit := []
  /-- LINK messages that wait for room in the retry buffer (R328), and the bytes of a packet whose slots have not all come (R326, R329) -/
  linkq : List LinkMsg := []
  rxPart : List Byte := []
  /-- the asymmetry of the two directions, calibrated at training, in 1/16 ns (R346) -/
  asym : Int := 0
  peerMask : Option Nat := none
  failedAt : Nat := 0
  sp0Trial : Bool := false
  /-- SP0 failed its self-test (R341) -/
  dead : Bool := false
deriving DecidableEq, Repr

/-- A receiving flow (R331, R332). -/
structure RxFlow where
  key : FlowKey
  next : Nat := 0
  held : List (Nat × Pkt) := []
  sinceAck : Nat := 0
  firstUnacked : Option Nat := none
deriving DecidableEq, Repr

/-- A packet in the end-to-end buffer (R333). -/
structure E2e where
  flow : FlowKey
  seq : Nat
  pkt : Pkt
  sentAt : Nat
  sends : Nat
  /-- the I/O die whose buffer keeps it, and the edge or port it leaves by -/
  io : Nat := 0
  edge : Option (BitVec 16) := none
  port : Option Nat := none
deriving DecidableEq, Repr

/-- A numbered packet that waits for room in the end-to-end buffer (R333): the edge or port it is to leave by, its I/O die, and since when. -/
structure Backlog where
  pkt : Pkt
  edge : Option (BitVec 16)
  port : Option Nat
  io : Nat
  since : Nat
deriving DecidableEq, Repr

/-- A packet that waits at an I/O die (R343, R358): the port it came by, the verdict on the adder that takes it, and since when. -/
structure Crossing where
  port : Nat
  pkt : Pkt
  adderOk : Bool
  since : Nat
  /-- is a full mill buffer what it waits for (R358)? -/
  full : Bool := false
deriving DecidableEq, Repr

/-- Routing, flows and the end-to-end buffer (R320 to R333). -/
structure Fab where
  cfg : BitVec 128 := setFld (setFld (setFld (setFld (0 : BitVec 128) 127 110 0x3FFFF) 109 103 1) 102 98 0x1F) 97 93 0x1F
  peers : List (BitVec 32) := List.replicate 18 (setFld (setFld (0 : BitVec 32) 18 5 0x3FFF) 4 0 0x1F)
  hamletRoute : List (BitVec 16) := List.replicate 8 0x3FF#16
  villageRoute : List (BitVec 16) := List.replicate 16 0x3FF#16
  hallRoute : List (BitVec 16) := List.replicate 80 0x3FF#16
  rx : List RxFlow := []
  tx : List (FlowKey × Nat) := []
  e2e : List E2e := []
  /-- packets sent four times and never acknowledged (R333), which a fence still waits for (R450) -/
  lost : List (FlowKey × Nat) := []
  backlog : List Backlog := []
  ga : Nat := 0
  delivered : List Pkt := []
  /-- packets that wait at an I/O die for a die-to-die link to retrain (R343) or for room in a mill buffer (R358) -/
  crossing : List Crossing := []
deriving DecidableEq, Repr

/-- An event waiting for the event ring (R447): the 16 bytes of RESULT and its code. -/
structure EventRec where
  code : Nat
  result : BitVec 128
deriving DecidableEq, Repr

/-- IDE keys and the switches that wait for a boundary (R452). -/
structure IdeKey where
  sub : Nat
  dir : Bool
  set : Bool
  bits : BitVec 320
deriving DecidableEq, Repr

/-- The module-level registers of BAR0 (R456), events (R447), the link IDE stream (R452) and MSI-X (R430). -/
structure Dev where
  state : Nat := 1
  mmioRefused : Bool := false
  moduleResets : Nat := 0
  oosReason : Nat := 0
  pollNs : Nat := 0x3E8
  lastPoll : Nat := 0
  eventsLost : Nat := 0
  eventVector : Nat := 0
  eventIrq : Bool := false
  eventEn : Bool := false
  eventRing : Nat := 0
  eventsWaiting : List EventRec := []
  eventIrqDone : Bool := false
  bellOrigin : Nat := 0x3FFF
  bellEpoch : Nat := 0
  /-- BELL_STATUS.DONE, which only JOB_UNLOAD or a later bell clears; and whether the abort of the present run has been made -/
  bellPassed : Bool := false
  bellDone : Bool := false
  bellPending : Bool := false
  bellTa : Nat := 0
  ideState : Nat := 0
  ideStream : Nat := 0
  ideRxSet : Bool := false
  ideTxSet : Bool := false
  /-- the directions enabled with keys since the stream was last off or insecure: receive, transmit -/
  ideOn : Bool × Bool := (false, false)
  ideKeys : List IdeKey := []
  idePending : List (Bool × Bool) := []
  msixTable : List (BitVec 128) := List.replicate 64 (setFld (0 : BitVec 128) 96 96 1)
  msixPending : BitVec 64 := 0
  msixOut : List Nat := []
deriving DecidableEq, Repr

/-- A command taken from a ring and not completed (R424, R427, R448): its packet, its payload, whether that is still to be read, when it was taken, and its place in the
order in which the rings' commands were (R443, R449). -/
structure Taken where
  tag : BitVec 16
  opcode : Nat
  ordered : Bool
  noIrq : Bool
  slots : List Byte
  needsRead : Bool
  payload : List Byte := []
  started : Bool := false
  takenAt : Nat := 0
  order : Nat := 0
deriving DecidableEq, Repr

/-- A completion not yet posted (R428, R457). -/
structure Completion where
  tag : BitVec 16
  opcode : Nat
  status : Nat
  detail : Nat := 0
  superseded : Bool := false
  event : Bool := false
  noIrq : Bool := false
  result : BitVec 128 := 0
  tDone : Nat := 0
deriving DecidableEq, Repr

/-- A command ring (R420 to R424). STATE is 0 STOPPED, 1 RUNNING, 2 DRAINING, 3 ERROR. -/
structure Ring where
  base : Nat := 0
  cmplBase : Nat := 0
  ctrlBase : Nat := 0
  err : Nat := 0
  state : Nat := 0
  vector : Nat := 0
  irqEn : Bool := false
  en : Bool := false
  cmdCons : Nat := 0
  cmplProd : Nat := 0
  cmplCons : Nat := 0
  cmds : List Taken := []
  postq : List Completion := []
  irqDone : Bool := false
deriving DecidableEq, Repr

/-- The fields of a STEP write held until the boundary (R436). -/
structure Shadow where
  kind : Nat
  index : Nat
  hi : Nat
  lo : Nat
  value : Nat
  ring : Nat
  tag : BitVec 16
deriving DecidableEq, Repr

/-- A command applied and not yet complete, and what it waits for. -/
inductive WaitFor where
  | stepWrite (superseded part : Bool)
  | jobStart (tStart : Nat)
  | jobStop
  | jobAbort
  | fenceModule (before : List (Nat × BitVec 16))
  | fenceGroup (group fenceId : Nat) (until_ : Nat) (acks : List (FlowKey × Nat)) (sent : Bool)
  | fenceHost
  | fwCommit (version : BitVec 64) (svn : Nat)
  | restore (snapId : Nat) (digest recorded keyCheck : BitVec 64) (barrier shift twin since : Nat)
  | migrate (parcel tier : Nat) (left : List Nat) (moved skipped : Nat)
  | selfCheck (set croft room version ptrAddr : Nat) (run : CheckRun)
  | copy (c : Instr)
deriving DecidableEq, Repr

/-- A waiting command. -/
structure Wait where
  ring : Nat
  tag : BitVec 16
  opcode : Nat
  noIrq : Bool
  wait : WaitFor
deriving DecidableEq, Repr

/-- The command path between the rings and the block (R31, R32). -/
structure Path where
  mailbox : List Instr := []
  /-- an entry of the mailbox is being applied (the model's own; log 1) -/
  applying : Bool := false
  /-- commands taken from the rings so far (the model's own count of their order, R449) -/
  taken : Nat := 0
  /-- the time of the last entry of pair 3, and how many at the end of the mailbox arrived then (R32) -/
  pair3 : Nat × Nat := (0, 0)
  shadows : List Shadow := []
  waits : List Wait := []
deriving DecidableEq, Repr

/-- The loaded almanac (R444). `streams` holds each logical croft's operation records in almanac order. -/
structure Almanac where
  crc : BitVec 64
  narrowNs : Nat
  wideNs : Nat
  layers : Nat
  micro : Nat
  chunk : Nat
  tensors : List (BitVec 256)
  companions : List (BitVec 128)
  bcast : List (BitVec 128)
  mbPred : List (Nat × Nat)
  streams : List (List (BitVec 512))
  rotations : List RotationSite := []
deriving DecidableEq, Repr

/-- What RESTORE left (R524, R525). -/
inductive Restored where
  | none
  | done (snapId : Nat) (keyCheck : BitVec 64) (barrier shift : Nat)
  | failed
deriving DecidableEq, Repr

/-- The job (R443, R618). -/
structure Job where
  id : Nat := 0xFFFF
  key : W64 := 0
  firstStep : Nat := 0
  tStart : Nat := 0
  step : Nat := 0
  begun : Bool := false
  boundaryAt : Nat := 0
  stops : List Nat := []
  restored : Restored := .none
  clip : Option F32 := none
  norm : F32 := 0
  postAbort : Bool := false
  almanac : Option Almanac := none
  mbStart : List (Nat × Nat) := []
deriving DecidableEq, Repr

/-- A group with its descriptor (R359); its tables lie in parcel space and are read when used. -/
structure Group where
  index : Nat
  desc : BitVec 512
deriving DecidableEq, Repr

/-- The descriptors of R440 that are not kept with what they describe. -/
structure Desc where
  layer : List (BitVec 512) := []
  guard : List (BitVec 64) := []
  norm : BitVec 128 := setFld (setFld (0 : BitVec 128) 127 112 0xFFFF) 63 32 0x7F800000
  storm : BitVec 128 := setFld (setFld (setFld (setFld (setFld (0 : BitVec 128) 127 64 0xFFFFFFFFFFFFFFFF) 63 48 0x199A) 47 40 0x32)
    39 36 3) 17 16 1
  magpie : List (Nat × BitVec 64) := []
  tallyBuf : BitVec 128 := setFld (0 : BitVec 128) 119 116 1
  hostWin : BitVec 128 := 0
  cache : BitVec 512 := setFld (0 : BitVec 512) 205 203 6
  seqs : List (Nat × BitVec 128) := []
  snap : BitVec 1024 := setFld (setFld (setFld (setFld (setFld (setFld (0 : BitVec 1024) 1023 768 (2 ^ 256 - 1))
    767 704 (2 ^ 64 - 1)) 511 448 (2 ^ 64 - 1)) 447 384 (2 ^ 64 - 1)) 111 98 0x3FFF) 1 0 1
  history : List Nat := List.replicate 64 0
  power : BitVec 256 := setFld (setFld (setFld (0 : BitVec 256) 95 80 0xBB8) 79 64 0x100) 63 48 0xBB8
  trace : BitVec 512 := setFld (setFld (setFld (setFld (setFld (0 : BitVec 512) 439 408 0x3E8) 391 384 0xFF) 383 352 0x1F)
    351 336 1) 15 8 7
  groups : List Group := []
deriving DecidableEq, Repr

/-- One barrel (R59): integer, anchor, SAT and NONFIN. -/
structure Barrel where
  int : Int := 0
  anchor : Int := 0
  sat : Bool := false
  nonfin : Bool := false
deriving DecidableEq, Repr

/-- The six counters of a tally slot (R223); and, under a stream in place of a tag, the draws released under it (R526). -/
inductive TallyCtr where
  | elements | zeros | sat | nonfin | vanish | drop | draws | clamp | limit | escaped
deriving DecidableEq, Repr

/-- Counts of an attempt, by tally tag, format slot and counter. -/
abbrev Counts := List ((Nat × Nat × TallyCtr) × Nat)

/-- The 32-bit counters of a layer record (R229). -/
inductive LayerCtr where
  | tiles | fallbacks | fbAcc | fbOwlHi | fbOwlLo | fbOut | fbCascade | unrepaired | rrSpans | rrFailed | spanOverrun
deriving DecidableEq, Repr

/-- One tally bank (R222, R226): counters, max-abs (R118), owl jumps and tag mismatches by tag, layer counters, module totals. -/
structure TallyBank where
  step : Nat := 0
  counts : Counts := []
  maxAbs : List (Nat × F32) := []
  owlJumps : List (Nat × Nat) := []
  tagMismatches : List (Nat × Nat) := []
  layers : List ((Nat × LayerCtr) × Nat) := []
  modTiles : Nat := 0
  modFallbacks : Nat := 0
  sched : Nat := 1
  widened : Bool := false
  stormAt : Bool := false
  late : Bool := false
  /-- ACC (on the grid 2^-149) and CNT of each tag (R240) -/
  owlAcc : List (Nat × Nat × Nat) := []
deriving DecidableEq, Repr

/-- Owl state of a tag (R240) but for ACC and CNT, which the live bank holds. -/
structure Owl where
  mean : F32 := 0
  valid : Bool := false
deriving DecidableEq, Repr

/-- The layer counts of R213. -/
structure LayerCounts where
  nz : Nat := 0
  van : Nat := 0
  sat : Nat := 0
  wmax : Nat := 0
deriving DecidableEq, Repr

/-- How an attempt departs from the operation as compiled (R246, R247, R251, R255): rungs climbed, operand formats read, what is added to
HEADROOM and OUT_HEADROOM, the replay THRESH, and whether it is a repeat, a cascade, a span replay or the replay of a fault (R476). -/
structure Attempt where
  climbs : Nat := 0
  rung : Option Nat := none
  extra : Nat := 0
  outExtra : Nat := 0
  thresh : Option F32 := none
  repeated : Bool := false
  cascade : Bool := false
  spanReplay : Bool := false
  replay : Bool := false
deriving DecidableEq, Repr

/-- State of a journal entry (R470); a free entry is not listed. -/
inductive JState where
  | issued | done | retained
deriving DecidableEq, Repr

/-- A journal entry (R470), with the attempt a replay begins with, whether the counts of its
released attempt stand already (R224), and whether a tag or square mismatch has stopped it (R151). -/
structure JEntry where
  op : BitVec 512
  index : Nat
  tIssue : Nat
  /-- the pools' allocation pointers when it issued, by tensor (R143) -/
  pools : List (Nat × Nat) := []
  /-- the barrel file its first attempt started from (R246) -/
  prior : Option (List (List Barrel)) := none
  /-- what a part of a split other than part 0 started from (R102, R108) -/
  start : Option (List (List Barrel)) := none
  /-- the anchors of a part of a split, and whether each was clamped, by the rung and headroom of the attempt that computed them: its replays keep them (R95, R108) -/
  anchors : List ((Option Nat × Nat) × List (List (Int × Bool))) := []
  attempts : Nat := 0
  span : Bool := false
  exported : Bool := false
  state : JState := .issued
  attempt : Attempt := {}
  counted : Bool := false
  mismatched : Bool := false
  /-- an earlier attempt has written its output already, which a replay writes again (R476) -/
  wrote : Bool := false
deriving DecidableEq, Repr

/-- A tile in an array (R154): its operation, attempt, ACC_STATUS (R99), the barrels it started from, its barrels, and
the counts its reads made. -/
structure Tile where
  index : Nat
  attempt : Attempt
  vanish : Nat
  clamp : Bool
  setSat : Bool
  setNonfin : Bool
  prior : List (List Barrel)
  cells : List (List Barrel)
  counts : Counts
  /-- the 72-bit checksum barrels: the sum of the increments of each row, or of each column of an output-stationary product (R105) -/
  sums : List Int := []
  /-- whether the product and the run comparisons held (R105) -/
  products : Bool := true
  runs : Bool := true
deriving DecidableEq, Repr

/-- What one of the two stationary registers of the cells holds (R155): operand B's tensor, the operation and pass that loaded it, and the codes by output
column. -/
structure StatTile where
  tensor : Nat
  index : Nat
  pass : Nat
  codes : List (List Nat)
  /-- the rung of the attempt that loaded it, where that was a repeat or a cascade, which reads other streams (R246, R251) -/
  rung : Option Nat := none
deriving DecidableEq, Repr

/-- One array (R27): the tile in it, its barrel file as the last released tile left it (R154, R246), and what its stationary registers hold (R155,
R181). -/
structure ArrayUnit where
  tile : Option Tile := none
  barrels : List (List Barrel) := []
  /-- tiles released since an operation whose repeat is not: operation, rows, columns (R246) -/
  later : List (Nat × Nat × Nat) := []
  stat : List StatTile := []
deriving DecidableEq, Repr

/-- A part of a split accumulation in the mills (R100, R356, R357): its croft and its tile, whose checks have passed. It waits for the other parts; once the combined
tile is released it stays for their replays, until the parts' entries are free (R108, R473). -/
structure PartTile where
  croft : Nat
  tile : Tile
  released : Bool := false
deriving DecidableEq, Repr

/-- A value stored by a lane run and not yet written (R124, R208): STORE mode, row, column, value. -/
structure Stored where
  mode : Nat
  row : Nat
  col : Nat
  value : F32
deriving DecidableEq, Repr

/-- A lane run in progress (R166): its operation, the slot that executes next, the first slot of the running phase, phase and group, the row,
the registers by lane, the values stored, and the counts of its loads. -/
structure LaneRun where
  index : Nat
  attempt : Attempt := {}
  pc : Nat
  phasePc : Nat
  phase : Nat := 0
  group : Nat := 0
  row : Nat := 0
  regs : List (List F32)
  stored : List Stored := []
  counts : Counts := []
  layer : LayerCounts := {}
deriving DecidableEq, Repr

/-- A slice held in the stile until its exponent entry serves the step (R194, R377): its operation, micro-batch, group, layer, slice number, the row and
first column of the tile it was formed from, and the barrels of that row. -/
structure Export where
  index : Nat
  mb : Nat
  group : Nat
  layer : Nat
  slice : Nat
  row : Nat
  col : Nat
  barrels : List Barrel
  counted : Bool := false
  mismatched : Bool := false
  heldAt : Nat := 0
deriving DecidableEq, Repr

/-- A move in flight (R298 to R300): its operation, the pages a MIGRATE still moves, when it was handed over, the delay it has accrued under each cause
(R303), and whether its third failed access has stopped it (R306). -/
structure Move where
  index : Nat
  croft : Nat
  op : BitVec 512
  pages : List Nat := []
  since : Nat := 0
  delays : List (Nat × Nat) := []
deriving DecidableEq, Repr

/-- The five unit queues' stalls (R302, R303): when a stall began, its tier, its cause so far, and on the fabric the delay by cause that the links of this module
added. -/
structure Stall where
  unit : CroftUnit
  since : Nat
  tier : Nat
  cause : Nat
  delays : List (Nat × Nat) := []
deriving DecidableEq, Repr

/-- One logical croft. -/
structure Croft where
  drainTable : List (BitVec 128) := []
  progTable : List W64 := []
  progStore : List W64 := []
  /-- operations of the step not yet issued, by index, in almanac order (R180) -/
  todo : List Nat := []
  /-- repeats and replays that go ahead of the queue (R246, R255, R476): operation and attempt -/
  redo : List (Nat × Attempt) := []
  stopped : Bool := false
  tokens : List Nat := []
  waitUntil : Option Nat := none
  journal : List JEntry := []
  forcing : Bool := false
  commitAt : Nat := 0
  fa : ArrayUnit := {}
  ba : ArrayUnit := {}
  lane : Option LaneRun := none
  exports : List Export := []
  moves : List Move := []
  /-- overflow-pool pointers by tensor (R143) -/
  pools : List (Nat × Nat) := []
  /-- what the open span's tiles count, until its closing COMMIT (R254, R255) -/
  spanBank : TallyBank := {}
  /-- what its update runs add to the layer counts until then (R213, R255) -/
  spanLayers : List (Nat × LayerCounts) := []
  spanTried : List Nat := []
  /-- the per-tag max-abs of the open span's discarded attempt (R255) -/
  spanSeen : List (Nat × F32) := []
  /-- operations that the check at issue rejected in the step: BAD_OPERATION (R179) -/
  rejected : List Nat := []
  faultStep : Nat := 0
  lastFault : Option Nat := none
  faultEntry : Option Nat := none
  /-- the entry of the croft-side fault before the last compute-domain reset (R478) -/
  domainEntry : Option Nat := none
  /-- an operation that a replay holds back behind its writer (R151, R306): operation, croft and operation of the writer -/
  replayAfter : Option (Nat × Nat × Nat) := none
  /-- when the fault that interrupts the croft came (R498) -/
  interruptedAt : Option Nat := none
  suspect : Bool := false
  /-- the code of the error that made it suspect (R459) -/
  suspectCode : Nat := 0
  lastPass : Nat := 0
  /-- a self-test slot was deferred and is owed (R534) -/
  slotOwed : Bool := false
  stalls : List Stall := []
  /-- since when the movement queue waits for room in a squirrel queue (R300) -/
  moveHeld : Option Nat := none
  beats : List (CroftUnit × Nat) := []
deriving DecidableEq, Repr

/-- An export identity seen by the die mill (R193), with what was exported under it. -/
structure ExportId where
  group : Nat
  layer : Nat
  slice : Nat
  mb : Nat
  exp : Int
  elems : List Int
  clips : Nat
deriving DecidableEq, Repr

/-- One compute die: CROFT_REMAP (R186), the diagnostic of its failed slot (R481), the excursion that holds its commits (R538), its die mill. -/
structure Die where
  remap : BitVec 64 := 0x00F0BA9876543210#64
  passes : Nat := 0
  failedOut : Bool := false
  /-- when the last passing slot of the die's free spare, or of the failed slot that runs its diagnostic, ended (R535, R542) -/
  sparePass : Nat := 0
  hold : Option Nat := none
  exports : List ExportId := []
deriving DecidableEq, Repr

/-- The shared token table (R182) and the tokens held back by spans and excursions (R254, R538). -/
structure Tokens where
  shared : List Nat := []
  /-- croft and token: set by a croft of a die under excursion; set in an open span -/
  held : List (Nat × Nat) := []
  spanHeld : List (Nat × Nat) := []
deriving DecidableEq, Repr

/-- Tallies, owl, storm and slot state (R222 to R262). -/
structure Tally where
  live : TallyBank := {}
  frozen : TallyBank := {}
  owl : List (Nat × Owl) := []
  layerNow : List (Nat × LayerCounts) := []
  layerLast : List (Nat × LayerCounts) := []
  layerReduced : List (Nat × LayerCounts) := []
  lastTiles : Nat := 0
  lastFallbacks : Nat := 0
  lastNarrow : Bool := true
  jobTiles : Nat := 0
  jobFallbacks : Nat := 0
  jobNarrow : Bool := true
  jobTotals : Bool := false
  normSat : Bool := false
  slotStep : Option Nat := none
  windowLast : Option Nat := none
deriving DecidableEq, Repr

/-- A parcel (R272). -/
structure Parcel where
  id : Nat
  base : Nat
  pages : Nat
  codec : Bool
  pin : Bool
  home : Nat
deriving DecidableEq, Repr

/-- Bear state of a page (R510). -/
inductive Bear where
  | clear | protected_ | copying | copied
deriving DecidableEq, Repr

/-- A mapped page (R269, R270, R282, R510): tier 1 larder, 2 cellar, 3 host. -/
structure Page where
  page : Nat
  parcel : Nat
  tier : Nat
  frame : Nat
  migrating : Option (Nat × Nat) := none
  head0 : BitVec 64 := 0
  head1 : BitVec 64 := 0
  bear : Bear := .clear
deriving DecidableEq, Repr

/-- A write that waits for a page (R277, R512) or for uncommitted readers (R475): address, bytes, and since when. -/
structure HeldWrite where
  address : Nat
  bytes : List Byte
  since : Nat
  postBarrier : Bool := true
  /-- the element kind of the tile for the codec (R283, R296): format code and elements -/
  kind : Option (Nat × Nat) := none
  /-- croft and operation index whose completion waits for the write -/
  owner : Option (Nat × Nat) := none
deriving DecidableEq, Repr

/-- A PCIe read outstanding (R295, R306). -/
structure HostRead where
  croft : Nat
  index : Nat
  since : Nat
  attempts : Nat
deriving DecidableEq, Repr

/-- The tiers (08): the page map beside the bytes, the squirrel, and the cellar's channels. -/
structure Tiers where
  parcels : List Parcel := []
  pages : List Page := []
  frameCtr : Nat := 0
  openCtr : Nat := 0
  retired : List Nat := []
  corrected : List (Nat × Nat) := []
  /-- the pages of retired frames with when they were last tried, on the own clock (R292) -/
  tried : List (Nat × Nat) := []
  offload : List Move := []
  prefetch : List Move := []
  heldWrites : List HeldWrite := []
  calibrating : List (Nat × Nat) := []
  /-- link-ECC corrections of the cellar's channels, with when (R290) -/
  linkEcc : List (Nat × Nat) := []
  retraining : List (Nat × Nat) := []
  reads : List HostRead := []
deriving DecidableEq, Repr

/-- An operand at a node of a group tree (R367 to R369, R386): what it is part of, the rank it comes from (its own rank for the leaf), the step, the elements
(records for PART 0b111) and INFO, which copies came, whether one is taken, and its digest term (R389). -/
structure Operand where
  group : Nat
  slice : Nat
  mb : Nat
  part : Nat
  from_ : Nat
  step : Nat
  elems : List Int
  info : Nat
  sub : Bool := false
  gotPartner : Bool := false
  gotTwin : Bool := false
  taken : Bool := false
  hash : BitVec 64 := 0
  arrivedAt : Nat := 0
deriving DecidableEq, Repr

/-- State of a held slice (R195). -/
inductive HeldState where
  | empty | partial_ | complete | released
deriving DecidableEq, Repr

/-- A held slice (R195, R196, R380). -/
structure Held where
  group : Nat
  layer : Nat
  slice : Nat
  state : HeldState := .empty
  exp : Int := 0
  elems : List Int := []
  got : List (Nat × List Int) := []
  raised : Bool := false
  maxlog : Option Int := none
deriving DecidableEq, Repr

/-- A clip-store entry (R377). -/
structure Clip where
  group : Nat
  slice : Nat
  mb : Nat
  pos : Nat
  excess : Int
deriving DecidableEq, Repr

/-- A reduced result that waits for its other half, its excess quarters or its predecessor (R370, R378). -/
structure Ready where
  group : Nat
  slice : Nat
  mb : Nat
  exp : Int := 0
  maxlog : Option Int := none
  lo : Option (List Int) := none
  hi : Option (List Int) := none
  clips : Nat := 0
  rereduce : Bool := false
  quarters : List (Nat × List Int) := []
deriving DecidableEq, Repr

/-- The digests of a group (R389, R390). -/
structure Digest where
  group : Nat
  step : Nat
  send : BitVec 64 := 0
  recv : BitVec 64 := 0
deriving DecidableEq, Repr

/-- A wait past a deadline (R387): the operand of a part from a rank. -/
structure MillWait where
  group : Nat
  slice : Nat
  mb : Nat
  part : Nat
  from_ : Nat
  since : Nat
deriving DecidableEq, Repr

/-- A broadcast range being received (R374): its entry, the chunks of 512 bytes that came and from which module, whether it was started in the step before,
whether that was before the barrier of the image being taken (R511), and whether its token is set. -/
structure BcastRx where
  entry : Nat
  chunks : List (Nat × Nat) := []
  old : Bool := false
  pre : Bool := false
  told : Bool := false
deriving DecidableEq, Repr

/-- A scalar record (R382, R507). -/
abbrev Record := BitVec 256

/-- A contribution that waits at its die for a link of the package on the way to its module-mill stage (R24, R343). -/
structure Inner where
  croft : Nat
  index : Nat
  die : Nat
  group : Nat
  slice : Nat
  mb : Nat
  exp : Int
  maxlog : Option Int
  elems : List Int
  clips : Nat
  lost : Bool
  /-- a reset of the die has taken it from the die mill: its operation's replay exports it again (R473, R476) -/
  wiped : Bool := false
deriving DecidableEq, Repr

/-- The mills (10): operands at nodes and the parts combined and passed on, held slices, results waiting, the clip store, re-reductions requested (R378), the norm
partial, the scalar records delivered, digests, broadcasts received and broadcasts started in the step, fences that timed out, and the members' digests at rank 0 (R390). -/
structure Mill where
  nodes : List Operand := []
  /-- parts of split accumulations that wait for the others (R100) -/
  parts : List PartTile := []
  sent : List (Nat × Nat × Nat × Nat) := []
  held : List Held := []
  ready : List Ready := []
  clips : List Clip := []
  requests : List (Nat × Nat × Nat × Nat) := []
  partial_ : Nat := 0
  scalarIssued : Option Nat := none
  scalar : List (Nat × Record) := []
  scalarDone : Bool := false
  digests : List Digest := []
  broadcasts : List BcastRx := []
  started : List Nat := []
  deadFences : List (Nat × Nat) := []
  waits : List MillWait := []
  rank0 : List (Nat × Digest) := []
  /-- the last completed step; this module's twins' digests that are still to be compared (R390); the partials of the root that a twin mismatch bars, by group, slice, micro-batch and whether they are of part 7 (R392); the modules, member and twin, that the last
  TWIN_MISMATCH named (R386); contributions that wait within the package -/
  lastStep : Option Nat := none
  twinDigests : List Digest := []
  barred : List (Nat × Nat × Nat × Bool) := []
  unequal : Option (Nat × Nat) := none
  inner : List Inner := []
deriving DecidableEq, Repr

/-- The cache engine (R408): flushes in flight and pages flushed, by slot and page, the rows of each slot's pages' last positions written, and the flushes in flight that
began before the barrier of the image being taken (R511). -/
structure Cache where
  flushes : List (Nat × Nat) := []
  flushed : List (Nat × Nat) := []
  written : List (Nat × Nat × Nat) := []
  before : List (Nat × Nat) := []
deriving DecidableEq, Repr

/-- Error classes (R458). -/
inductive Class_ where
  | c | t | d | m | j
deriving DecidableEq, Repr

/-- A reset domain (R467). -/
inductive Domain where
  | croft (n : Nat) | die (d : Nat) | compute | module
deriving DecidableEq, Repr

/-- An error (R458, R616): class, code, where it arose, what it needs, and the entry it stops. -/
structure ErrorRec where
  cls : Class_
  code : Nat
  at_ : Nat
  croft : Option Nat := none
  die : Option Nat := none
  port : Option Nat := none
  entry : Option Nat := none
  writer : Option (Nat × Nat) := none
  croftSide : Bool := false
  cause : Nat := 0
  suspectAt : Nat := 0
  /-- the module that the error names, where it is not this one (R333, R386) -/
  named : Option Nat := none
  /-- the LPDDR6 package that a cellar error names (R548) -/
  package : Option Nat := none
deriving DecidableEq, Repr

/-- A reset in progress (R467, R468). -/
structure Reset where
  domain : Domain
  since : Nat
  error : ErrorRec
deriving DecidableEq, Repr

/-- An open suspicion record (R485, R489, R490). -/
structure Suspicion where
  origin : Nat
  epoch : Nat
  witnesses : List Nat := []
  masks : Nat := 0
  closed : Bool := false
deriving DecidableEq, Repr

/-- A bell held (R495). -/
structure BellRec where
  origin : Nat
  epoch : Nat
  ta : Nat
  error : Nat := 0
  /-- T_SUSPECT of the error that this module raised it for (R542, R552) -/
  suspectAt : Nat := 0
deriving DecidableEq, Repr

/-- A wait that a remote watch has suspected (R464): the producer, and since when. -/
structure Watch where
  producer : Nat
  since : Nat
  bound : Bool := false
deriving DecidableEq, Repr

/-- Faults, crier and bell (13). -/
structure Faults where
  queue : List ErrorRec := []
  arrived : List ErrorRec := []
  handling : Option ErrorRec := none
  reset : Option Reset := none
  logFifo : List ErrorRec := []
  /-- class C errors that found the FIFO full (R460), whose trace records are still to be written (R548) -/
  untraced : List ErrorRec := []
  /-- has the run raised a class J error of its own (R491)? -/
  ownJ : Bool := false
  record : List Nat := []
  oosPending : Nat := 0
  epochs : List (Nat × Nat) := []
  open_ : List Suspicion := []
  /-- origins suspected since the digests were last compared (R390) -/
  compare : List Nat := []
  clears : List (Nat × Nat) := []
  bells : List BellRec := []
  watches : List Watch := []
  lastPorts : Nat := 0
deriving DecidableEq, Repr

/-- A time, from and to, for which a croft counts towards the cost of a snapshot (R506). -/
structure CostSpan where
  croft : Nat
  since : Nat
  till : Nat
deriving DecidableEq, Repr

/-- A time during which bear traffic stood on a tier (R506): 0 larder, 1 cellar, 2 host, 3 the fabric; the page copied, where one is. -/
structure BearSpan where
  tier : Nat
  page : Option Nat
  since : Nat
  till : Option Nat := none
deriving DecidableEq, Repr

/-- An image the bear holds (R510 to R520): its state section with the bytes of its job part, its destinations, the page records written, its slot, the page terms
of its digest (R518), and the ns of R506. -/
structure Image where
  snapId : Nat
  barrier : Nat
  section_ : List Byte
  jobPart : Nat
  dest : Nat
  records : Nat := 0
  slot : Nat
  digest : BitVec 64 := 0
  /-- when unit queues of a croft were held by a first-touch copy or by bear traffic, no two of a croft overlapping (R506) -/
  cost : List CostSpan := []
  traffic : List BearSpan := []
  /-- bytes written so far, and whether the header is (R515) -/
  length : Nat := 64
  sealed_ : Bool := false
  /-- bytes at the end that do not fill a slot of 16 yet (R329), and whether the trailer is written (R517) -/
  tail : List Byte := []
  trailed : Bool := false
deriving DecidableEq, Repr

/-- Snapshots (14). -/
structure Snap where
  image : Option Image := none
  lastCost : Nat := 0
  lastId : Option Nat := none
  done : Bool := false
  abandoned : Bool := false
  /-- the record of R507 as of the boundary that began the step -/
  atBoundary : Nat := 0
  jobAbandoned : Option Nat := none
  anyBarrier : Bool := false
  /-- the restore digest that came last: the module that sent it, SNAP_ID, digest, and when it came (R523) -/
  twinDigest : Option (Nat × Nat × BitVec 64 × Nat) := none
  lastSlot : Option Nat := none
deriving DecidableEq, Repr

/-- One entry of lifetime section 0x0B (R552). -/
structure LifeBell where
  ta : Nat
  origin : Nat
  epoch : Nat
  error : Nat
  jobId : Nat
  suspectAt : Nat
deriving DecidableEq, Repr

/-- A commit of the lifetime log to flash (R552, R553): its counters, what it lists, when, and its CRC-32C. -/
structure LifeCopy where
  at_ : Nat := 0
  counts : List (Counter × Nat) := []
  firstBoot : Option Nat := none
  onNs : Nat := 0
  retired : List Nat := []
  bells : List LifeBell := []
  crc : BitVec 32 := 0
deriving DecidableEq, Repr

/-- The lifetime log (R552, R553): gathered in standby SRAM, its counters being Counter.life; the copy last committed, and whether it is copy B; the copy before it, which
the flash holds until that commit is complete (R580); and the copy that an export by LOG_READ began with (R554). -/
structure Life where
  firstBoot : Option Nat := none
  onNs : Nat := 0
  onSince : Nat := 0
  retired : List Nat := []
  bells : List LifeBell := []
  saved : LifeCopy := {}
  /-- when it was last committed, by the count of R17 -/
  savedSpan : Nat := 0
  copyB : Bool := false
  before : Option LifeCopy := none
  reading : Option LifeCopy := none
deriving DecidableEq, Repr

/-- Safety and observation (15). -/
structure Safety where
  lastDetect : Nat := 0
  lastSuspect : Nat := 0
  cause : Nat := 0
  faultLine : Bool := false
  excursions : List (MonSource × Nat) := []
  /-- byte offset of the next trace record, and the ms and bytes of the rate window (R547) -/
  tracePos : Nat := 0
  traceWindow : Nat × Nat := (0, 0)
  lostPending : Bool := false
  exportSeq : Nat := 0
  exportDrop : Bool := false
deriving DecidableEq, Repr

/-- A firmware staging session (R569). -/
inductive Session where
  | closed | ring | pldm
deriving DecidableEq, Repr

/-- The PLDM update state (R572). -/
inductive PldmState where
  | idle | learn | ready | download | verify | apply | activate
deriving DecidableEq, Repr

/-- Boot, firmware and identity (16) and the management plane (R574). -/
structure Boot where
  stepping : Nat := 1
  romVersion : Nat := 0
  recordBody : BitVec 2048 := setFld (setFld (setFld (setFld (setFld (setFld (0 : BitVec 2048) 1359 1342 0x3FFFF) 1311 1308 0xF)
    1296 1285 1280) 1284 1281 0xA) 31 16 1) 15 0 0x4258
  recordValid : Bool := true
  /-- the EEPROM (R557): the configuration record, the PUF helper data, and whether boot has asserted its write protect -/
  eepromRecord : List Byte := leBytes 256 recordBody.toNat ++ slice Config.recordSignature 0 29792
  eepromHelper : List Byte := Config.pufHelper
  eepromProtected : Bool := true
  /-- the secret K of the identity engine, from which the identity key is formed (R561, R562); none where the extractor failed -/
  identity : Option (BitVec 256) := some Config.moduleSecret
  /-- the running image, and the image region of the flash (R556) -/
  image : List Byte := Config.imageRegion
  flashImage : List Byte := Config.imageRegion
  runVersion : BitVec 64 := BitVec.ofNat 64 (leAt Config.imageRegion 56 8)
  runSvn : Nat := leAt Config.imageRegion 50 2
  session : Session := .closed
  staged : Mem := []
  highWater : Nat := 0
  committing : Bool := false
  pldm : PldmState := .idle
  pldmOffset : Nat := 0
  pldmSize : Nat := 0
  /-- the endpoint ID of each binding (R574) -/
  eidI3c : Byte := 0
  eidSgmii : Byte := 0
  planeUp : Bool := true
  i3cUp : Bool := true
  sgmiiUp : Bool := true
  reply : Option (List Byte) := none
  /-- a module reset that is owed, and since when it may be made (R571, R587, R593); whether R484 keeps the module out of service -/
  resetDueAt : Option Nat := none
  heldOut : Bool := false
deriving DecidableEq, Repr

/-- State of the main domain (R577, R583, R584). -/
inductive MainDomain where
  | off | island | on | falling
deriving DecidableEq, Repr

/-- The PCIe link (R567): untrained, trained and answering configuration requests with Configuration Request Retry Status, or in service. -/
inductive PcieLink where
  | off | retry | ready
deriving DecidableEq, Repr

/-- Power, thermal state and pins (17). -/
structure Power where
  standby : Bool := true
  main : MainDomain := .on
  pcie : PcieLink := .ready
  /-- when the power-fail warning came (R579); whether the input has shed the main domain (R578); when its power-down begins (R584) -/
  warnedAt : Option Nat := none
  inputShed : Bool := false
  downAt : Option Nat := none
  /-- when a cause other than the power cap last held, since when every junction is cool, when the clock or duty last moved (R586, R588), since when the
  module is throttled (R585) -/
  causeAt : Option Nat := none
  coolSince : Option Nat := none
  movedAt : Nat := 0
  /-- when P100 was last compared, and when the junction throttle last moved the clock or the duty (R586, R588) -/
  comparedAt : Option Nat := none
  stepAt : Option Nat := none
  throttledAt : Option Nat := none
  packages : List Nat := []
  inletLoggedAt : Option Nat := none
  perstLow : Bool := false
  prsntOk : Bool := true
  tapIr : Option Nat := none
  thermals : List Int := []
  /-- the die junctions as last read: compute, larder, I/O and control dies -/
  junctions : List Int := []
deriving DecidableEq, Repr

/-- The module but for its memories and the queue of commands. -/
structure Block where
  clk : Clk := {}
  ports : List Port := List.replicate 18 {}
  /-- the two ends of each die-to-die link of R22 (R343), which the boot has trained: of link k, in the model's order (log 89), ends 2 k and 2 k + 1 -/
  dieLinks : List Port := List.replicate 68 { linkState := 2 }
  fab : Fab := {}
  dev : Dev := {}
  rings : List Ring := List.replicate 4 {}
  path : Path := {}
  job : Job := {}
  desc : Desc := {}
  crofts : List Croft := List.replicate 192 {}
  dies : List Die := List.replicate 16 {}
  tokens : Tokens := {}
  counts : List (Counter × Nat) := []
  tally : Tally := {}
  tiers : Tiers := {}
  mill : Mill := {}
  cache : Cache := {}
  faults : Faults := {}
  snap : Snap := {}
  safety : Safety := {}
  life : Life := {}
  boot : Boot := {}
  power : Power := {}
deriving DecidableEq, Repr

/-- The memories: parcel space (decoded bytes, whatever the tier; R269), host memory, and the croft stores by logical croft. -/
structure Memory where
  parcel : Mem := []
  host : Mem := []
  stores : List (Nat × Mem) := []
deriving DecidableEq, Repr

/-- The state: the block, its memories, and the commands that wait, first in first out. -/
structure State where
  m : Block
  mem : Memory
  pending : List Instr
deriving DecidableEq, Repr

/-- The module right after a module reset (R14, R433, R456): DEVICE_STATE SELF_TEST, every register at its Reset column, the values that log entries
1 to 11 name where the manual gives none. -/
def State.reset : State := { m := {}, mem := {}, pending := [] }

end Sys2Proof.Machine
end

