-- ==== Sys2Proof/Machine/Ops.lean ====
section
/-! DEFINITION. The shared operations: memory, counters, the clocks, completions and events (R428 to R430, R447), packets out (R322, R331, R333),
errors, and the bell (R458 to R463, R494, R495). -/
namespace Sys2Proof.Machine

/-! Memory -/

/-- The byte at an address; an unlisted one reads 0. -/
def Mem.read (m : Mem) (a : Nat) : Byte :=
  match m with
  | [] => 0
  | (k, v) :: rest => if k = a then v else Mem.read rest a

/-- One byte written, in canonical form. -/
def Mem.write (m : Mem) (a : Nat) (v : Byte) : Mem :=
  match m with
  | [] => if v = 0 then [] else [(a, v)]
  | (k, w) :: rest =>
    if a < k then (if v = 0 then (k, w) :: rest else (a, v) :: (k, w) :: rest)
    else if a = k then (if v = 0 then rest else (a, v) :: rest)
    else (k, w) :: Mem.write rest a v

/-- Bytes written from an address up. -/
def Mem.writeBytes (m : Mem) (a : Nat) : List Byte → Mem
  | [] => m
  | b :: bs => Mem.writeBytes (Mem.write m a b) (a + 1) bs

/-- n bytes from an address up. -/
def Mem.readBytes (m : Mem) (a : Nat) : Nat → List Byte
  | 0 => []
  | n + 1 => Mem.read m a :: Mem.readBytes m (a + 1) n

/-- The little-endian number in n bytes. -/
def Mem.readNat (m : Mem) (a n : Nat) : Nat := leNat (Mem.readBytes m a n)

/-- The canonical form above a bound: addresses strictly rise from it and no listed byte is 0. -/
def Mem.wfFrom : Nat → Mem → Bool
  | _, [] => true
  | lo, (k, v) :: rest => decide (lo ≤ k) && v != 0 && Mem.wfFrom (k + 1) rest

/-- The canonical form. -/
def Mem.wf (m : Mem) : Bool := Mem.wfFrom 0 m

/-- The croft stores: one memory per logical croft, crofts in rising order, no empty store listed. -/
def storesFrom : Nat → List (Nat × Mem) → Bool
  | _, [] => true
  | lo, (k, m) :: rest => decide (lo ≤ k) && m != [] && Mem.wf m && storesFrom (k + 1) rest

/-- Every memory is in canonical form. -/
def Memory.wf (m : Memory) : Bool := Mem.wf m.parcel && Mem.wf m.host && storesFrom 0 m.stores

/-- The croft store of a logical croft (R171, R172). -/
def Memory.store (m : Memory) (c : Nat) : Mem := (assocGet c m.stores).getD []

/-- A croft store put back, in canonical form. -/
def setStore (c : Nat) (v : Mem) : List (Nat × Mem) → List (Nat × Mem)
  | [] => if v = [] then [] else [(c, v)]
  | (k, w) :: rest =>
    if c < k then (if v = [] then (k, w) :: rest else (c, v) :: (k, w) :: rest)
    else if c = k then (if v = [] then rest else (c, v) :: rest)
    else (k, w) :: setStore c v rest

/-- The bytes of a range cleared. -/
def Mem.clear (m : Mem) (a n : Nat) : Mem := m.filter (fun c => decide (c.1 < a) || decide (a + n ≤ c.1))

/-- A write to host memory: visible at once and in the order made, where R295 leaves the order open until a FENCE_HOST (DESIGN CHOICE, log 77). While the link's IDE
stream is insecure it fails, as every host access does (R453). -/
def State.writeHost (s : State) (a : Nat) (bs : List Byte) : State :=
  { s with mem := { s.mem with host := if s.m.dev.ideState == 2 then s.mem.host else s.mem.host.writeBytes a bs } }
/-- A write to parcel space. -/
def State.writeParcel (s : State) (a : Nat) (bs : List Byte) : State :=
  { s with mem := { s.mem with parcel := s.mem.parcel.writeBytes a bs } }
/-- A range of parcel space cleared. -/
def State.clearParcel (s : State) (a n : Nat) : State := { s with mem := { s.mem with parcel := s.mem.parcel.clear a n } }
/-- A range of host memory cleared. -/
def State.clearHost (s : State) (a n : Nat) : State := { s with mem := { s.mem with host := s.mem.host.clear a n } }
/-- A write to a croft store. -/
def State.writeStore (s : State) (c a : Nat) (bs : List Byte) : State :=
  { s with mem := { s.mem with stores := setStore c ((s.mem.store c).writeBytes a bs) s.mem.stores } }
/-- A croft store lost (R172). -/
def State.loseStore (s : State) (c : Nat) : State := { s with mem := { s.mem with stores := setStore c [] s.mem.stores } }

/-- A change of the block alone. -/
def State.on (s : State) (f : Block → Block) : State := { s with m := f s.m }

/-! Parts of the block -/

/-- One counter up by k, stopping at 2^64 - 1 (R225, R498). -/
def bumpList (c : Counter) (k : Nat) : List (Counter × Nat) → List (Counter × Nat)
  | [] => [(c, addSat 0 k)]
  | (a, n) :: rest => if a = c then (a, addSat n k) :: rest else (a, n) :: bumpList c k rest

/-- A counter's value. -/
def Block.count (b : Block) (c : Counter) : Nat := (assocGet c b.counts).getD 0
/-- A counter up by k. -/
def Block.bump (b : Block) (c : Counter) (k : Nat := 1) : Block := if k = 0 then b else { b with counts := bumpList c k b.counts }
/-- A counter raised to at least v. -/
def Block.raiseTo (b : Block) (c : Counter) (v : Nat) : Block := b.bump c (v - b.count c)

def Block.croft (b : Block) (n : Nat) : Croft := (b.crofts[n]?).getD {}
def Block.onCroft (b : Block) (n : Nat) (f : Croft → Croft) : Block := { b with crofts := modAt n f b.crofts }
/-- A port is up (R322): UP or DEGRADED. -/
def Port.isUp (p : Port) : Bool := p.linkState == 2 || p.linkState == 3
/-- A port by its number; from 32 up, the ends of the die-to-die links (log 89). -/
def Block.port (b : Block) (n : Nat) : Port := if n < 32 then (b.ports[n]?).getD {} else (b.dieLinks[n - 32]?).getD {}
def Block.onPort (b : Block) (n : Nat) (f : Port → Port) : Block :=
  if n < 32 then { b with ports := modAt n f b.ports } else { b with dieLinks := modAt (n - 32) f b.dieLinks }
def Block.ring (b : Block) (n : Nat) : Ring := (b.rings[n]?).getD {}
def Block.onRing (b : Block) (n : Nat) (f : Ring → Ring) : Block := { b with rings := modAt n f b.rings }
def Block.die (b : Block) (n : Nat) : Die := (b.dies[n]?).getD {}
def Block.onDie (b : Block) (n : Nat) (f : Die → Die) : Block := { b with dies := modAt n f b.dies }

/-- The compute die of a logical croft (R28). -/
def dieOf (croft : Nat) : Nat := croft / 12

/-! Time -/

/-- Fabric time in whole ns (R344). -/
def Block.fabNs (b : Block) : Nat := b.clk.fab / 16
/-- A job exists (R456). -/
def Block.jobExists (b : Block) : Bool := b.dev.state == 3 || b.dev.state == 4 || b.dev.state == 5
/-- A job runs (R433). -/
def Block.jobRuns (b : Block) : Bool := b.dev.state == 4 || b.dev.state == 5
/-- DEVICE_STATE.TIME_VALID (R348, R456). -/
def Block.timeValid (b : Block) : Bool := b.jobExists && b.clk.locked
/-- What FABRIC_TIME reads, and the time of everything placed on time (R17, R348, R354). -/
def Block.now (b : Block) : Nat := if b.timeValid then b.fabNs else b.clk.own
/-- What fabric time runs in 1 ns of the own clock, in 10^-9 of 1/16 ns: at the rate of FAB_REFCLK, which no rule ties to the own clock's, steered on a master or acting master (R348, R353;
log 15). -/
def Clk.rate (c : Clk) : Nat := if c.role == 1 || c.role == 3 then (16 * (1000000000 + c.refRate + c.ppsRate)).toNat else (16 * (1000000000 + c.refRate)).toNat

/-- Fabric time runs for `ns` of the own clock. -/
def Clk.run (c : Clk) (ns : Nat) : Clk := { c with fab := c.fab + (c.rate * ns + c.frac) / 1000000000, frac := (c.rate * ns + c.frac) % 1000000000 }

/-- The own clock moves on to t and fabric time with it; neither goes back (R346, R348). Durations follow the clock that is shown (R17). -/
def Block.advanceTo (b : Block) (t : Nat) : Block :=
  let c := b.clk.run (t - b.clk.own)
  { b with clk := { c with own := max b.clk.own t, span := b.clk.span + (if b.timeValid then c.fab - b.clk.fab else 16 * (t - b.clk.own)) } }

/-- The count in ns that a duration is measured by where the clock shown may change within it (R17). -/
def Block.span (b : Block) : Nat := b.clk.span / 16

/-- The instant, on the clock that is shown now, at which that count stood at `at_` (R17). -/
def Block.instant (b : Block) (at_ : Nat) : Nat := b.now + at_ - b.span

/-- A value for what the manual leaves open, one of n, and the counter moved on (log 8). -/
def Block.freeNat (b : Block) (n : Nat) : Nat × Block :=
  ((Config.freeWord b.tiers.openCtr).toNat % n, { b with tiers := { b.tiers with openCtr := b.tiers.openCtr + 1 } })

/-- An event at t that changes the block alone. -/
def atTime (t : Nat) (f : Block → Block) (s : State) : State := s.on (fun b => f (b.advanceTo t))

/-- MODULE_ID (R316). -/
def Block.moduleId (b : Block) : Nat := fld b.fab.cfg 90 77

/-! Completions and events -/

/-- The 32 bytes of a completion entry (R428). -/
def entryBytes (c : Completion) (phase : Bool) : List Byte :=
  leBytes 8 c.tDone ++ leBytes 16 c.result.toNat ++ leBytes 2 c.tag.toNat ++ leBytes 1 c.status ++ leBytes 1 c.opcode
    ++ leBytes 1 (b2n phase + 2 * b2n c.event + 4 * b2n c.superseded) ++ leBytes 3 (Nat.min c.detail 0xFFFFFF)

/-- A vector is sent, or its pending bit set while its table entry is masked (R430, R455). -/
def Block.sendVector (b : Block) (v : Nat) : Block :=
  if flag ((b.dev.msixTable[v]?).getD 0) 96 then { b with dev := { b.dev with msixPending := setFld b.dev.msixPending v v 1 } }
  else { b with dev := { b.dev with msixOut := b.dev.msixOut ++ [v] } }

/-- Entries of the completion ring not yet consumed (R421), modulo 2^32. -/
def Ring.unread (r : Ring) : Nat := (r.cmplProd + 2 ^ 32 - r.cmplCons) % 2 ^ 32

/-- Can the ring take completions (R422): it is not STOPPED, and in ERROR only while its completion ring is usable. -/
def Ring.usable (r : Ring) : Bool := r.state == 1 || r.state == 2 || (r.state == 3 && r.err != 3)

/-- A ring moves to STOPPED (R422): DRAINING, once every command taken is complete and posted; in ERROR with EN cleared, once no command is in flight, and what it could not
post is discarded. -/
def Ring.settle (r : Ring) : Ring :=
  if r.cmds.isEmpty && ((r.state == 2 && r.postq.isEmpty) || (r.state == 3 && !r.en)) then { r with state := 0, postq := [] } else r

/-- A ring enters ERROR (R422): where its completion ring is not usable any more, the completions that wait are discarded. -/
def Ring.fail (r : Ring) (err : Nat) : Ring := { r with state := 3, err := err, postq := if err == 3 then [] else r.postq }

/-- The entry and CMPL_PROD are written (R428, R429), and the ring's vector is sent at most once in a poll period (R430). -/
def State.writeEntry (s : State) (n : Nat) (c : Completion) : State :=
  let r := s.m.ring n
  let s := s.writeHost (r.cmplBase + 32 * (r.cmplProd % 4096)) (entryBytes c (r.cmplProd / 4096 % 2 == 0))
  let prod := (r.cmplProd + 1) % 2 ^ 32
  let s := s.writeHost (r.ctrlBase + 12) (leBytes 4 prod)
  let s := s.on (fun b => b.onRing n (fun r => { r with cmplProd := prod }))
  if c.event then
    if s.m.dev.eventIrq && !s.m.dev.eventIrqDone then
      s.on (fun b => { b.sendVector b.dev.eventVector with dev := { (b.sendVector b.dev.eventVector).dev with eventIrqDone := true } })
    else s
  else if r.irqEn && !c.noIrq && !r.irqDone then
    s.on (fun b => (b.sendVector r.vector).onRing n (fun r => { r with irqDone := true }))
  else s

/-- A completion is posted, or waits for room (R424, R429, R457), or is discarded where the ring cannot take it (R422). -/
def State.postCompletion (s : State) (n : Nat) (c : Completion) : State :=
  let r := s.m.ring n
  if !r.usable then s
  else if r.postq.isEmpty && r.unread < 4096 then s.writeEntry n c
  else s.on (fun b => b.onRing n (fun r => { r with postq := r.postq ++ [c] }))

/-- The waiting completions that now have room are posted (R457). -/
def State.drainPosts (s : State) (n : Nat) : Nat → State
  | 0 => s
  | k + 1 =>
    let r := s.m.ring n
    match r.postq with
    | c :: rest =>
      if r.unread < 4096 then
        State.drainPosts ((s.on (fun b => b.onRing n (fun r => { r with postq := rest }))).writeEntry n c) n k
      else s
    | [] => s

/-- A command of ring n completes: its entry is posted, its TAG is free again, and its ring may stop (R422, R427, R429). -/
def State.complete (s : State) (n : Nat) (c : Completion) : State :=
  let s := s.postCompletion n { c with tDone := s.m.now }
  s.on (fun b => b.onRing n (fun r => ({ r with cmds := r.cmds.filter (fun t => t.tag != c.tag) } : Ring).settle))

/-- A host command completes with a status (R428). -/
def State.finish (s : State) (h : Hdr) (opcode status : Nat) (result : BitVec 128 := 0) (detail : Nat := 0) (superseded : Bool := false) : State :=
  s.complete h.ring { tag := h.tag, opcode := opcode, status := status, result := result, detail := detail, noIrq := h.noIrq,
                      superseded := superseded, tDone := 0 }

/-- The class code of R447. -/
def Class_.code : Class_ → Nat
  | .c => 0 | .t => 1 | .d => 2 | .m => 3 | .j => 4

/-- RESULT of an event (R447). -/
def eventResult (time origin cls arg : Nat) : BitVec 128 :=
  setFld (setFld (setFld (setFld (0 : BitVec 128) 127 64 time) 63 50 origin) 47 45 cls) 31 0 arg

/-- An event is posted into the event ring, waits (at most 64), or is counted in EVENTS_LOST (R447, R457). -/
def State.postEvent (s : State) (e : EventRec) : State :=
  let d := s.m.dev
  if !d.eventEn then s.on (fun b => { b with dev := { b.dev with eventsLost := addSatW 32 b.dev.eventsLost 1 } })
  else
    let r := s.m.ring d.eventRing
    if r.usable && r.unread < 4096 && d.eventsWaiting.isEmpty then
      s.writeEntry d.eventRing { tag := 0xFFFF#16, opcode := 0xFF, status := e.code, event := true, result := e.result, tDone := s.m.now }
    else if d.eventsWaiting.length < 64 then
      s.on (fun b => { b with dev := { b.dev with eventsWaiting := b.dev.eventsWaiting ++ [e] } })
    else s.on (fun b => { b with dev := { b.dev with eventsWaiting := b.dev.eventsWaiting.drop 1 ++ [e],
                                                     eventsLost := addSatW 32 b.dev.eventsLost 1 } })

/-- Waiting events that now have room are posted, oldest first, while EN is 1 (R447). -/
def State.drainEvents (s : State) : Nat → State
  | 0 => s
  | k + 1 =>
    match s.m.dev.eventsWaiting with
    | e :: rest =>
      let r := s.m.ring s.m.dev.eventRing
      if s.m.dev.eventEn && r.usable && r.unread < 4096 then
        let s := s.on (fun b => { b with dev := { b.dev with eventsWaiting := rest } })
        State.drainEvents (s.writeEntry s.m.dev.eventRing
          { tag := 0xFFFF#16, opcode := 0xFF, status := e.code, event := true, result := e.result, tDone := s.m.now }) k
      else s
    | [] => s

/-- An event of this module. -/
def State.event (s : State) (code cls arg : Nat) : State :=
  s.postEvent { code := code, result := eventResult s.m.now s.m.moduleId cls arg }

/-! Packets -/

end Sys2Proof.Machine

namespace Sys2Proof
open Machine

/-- Bits of a packet header (R329). -/
def Pkt.fld (p : Pkt) (hi lo : Nat) : Nat := Machine.fld p.head hi lo
def Pkt.set (p : Pkt) (hi lo x : Nat) : Pkt := { p with head := setFld p.head hi lo x }
def Pkt.dstModule (p : Pkt) : Nat := p.fld 207 194
def Pkt.dstDie (p : Pkt) : Nat := p.fld 193 189
def Pkt.srcModule (p : Pkt) : Nat := p.fld 188 175
def Pkt.srcDie (p : Pkt) : Nat := p.fld 174 170
def Pkt.urgent (p : Pkt) : Bool := p.fld 169 169 == 1
def Pkt.typ (p : Pkt) : Nat := p.fld 163 158
def Pkt.len (p : Pkt) : Nat := p.fld 157 152
def Pkt.address (p : Pkt) : Nat := p.fld 147 96
def Pkt.param (p : Pkt) : Nat := p.fld 95 64
def Pkt.jobId (p : Pkt) : Nat := p.fld 63 48
def Pkt.ext (p : Pkt) : Nat := p.fld 47 0
def Pkt.seq (p : Pkt) : Nat := p.fld 223 208

/-- The flow of a packet (R331). -/
def Pkt.flow (p : Pkt) : FlowKey :=
  { srcModule := p.srcModule, srcDie := p.srcDie, dstModule := p.dstModule, dstDie := p.dstDie, urgent := p.urgent }

/-- The header and payload as bytes, with the CRC field 0 (R329, R332). -/
def Pkt.crcBytes (p : Pkt) : List Byte := leBytes 32 (p.set 255 224 0).head.toNat ++ p.payload

/-- The packet with its PKT_CRC (R329). -/
def Pkt.seal (p : Pkt) : Pkt := p.set 255 224 (crc32c p.crcBytes).toNat

end Sys2Proof

namespace Sys2Proof.Machine

/-- A packet header from its fields; FLOW_SEQ and PKT_CRC are filled in when it is sent. -/
def mkPkt (dst dstDie src srcDie : Nat) (urgent : Bool) (typ addr param job ext : Nat) (payload : List Byte) : Pkt :=
  let h : BitVec 256 := 0
  let h := setFld (setFld (setFld (setFld h 207 194 dst) 193 189 dstDie) 188 175 src) 174 170 srcDie
  let h := setFld (setFld (setFld h 169 169 (b2n urgent)) 163 158 typ) 157 152 (payload.length / 16)
  { head := setFld (setFld (setFld (setFld h 147 96 addr) 95 64 param) 63 48 job) 47 0 ext, payload := payload }

/-- Is port n up. -/
def Block.up (b : Block) (n : Nat) : Bool := n < 18 && (b.port n).isUp
/-- Optical ports are 7 to 17 (R310). -/
def optical (n : Nat) : Bool := 7 ≤ n && n ≤ 17
/-- HOPS and LOCAL after a link by port n (R323): a crossing counts a hop, a copper link a local one. The packet keeps on the link what it had before it, which names its
channel (the worked example of R324; log 106), and shows the new values where it has arrived. -/
def crossed (p : Pkt) (n : Nat) : Pkt :=
  if optical n then (p.set 168 166 (p.fld 168 166 + 1)).set 165 164 0 else p.set 165 164 (p.fld 165 164 + 1)

/-- May a packet leave: HOPS at most 5 and LOCAL at most 2 (R323)? -/
def mayLeave (p : Pkt) : Bool := p.fld 168 166 ≤ 5 && p.fld 165 164 ≤ 2

/-- The port group of a port (R310): the unit that shares a clock domain. -/
def portGroup (n : Nat) : Nat :=
  if n < 3 then 0 else if n == 3 then 1 else if n < 7 then 3 else if n < 9 then 1 else if n == 9 then 2 else if n < 13 then 4 else if n < 15 then 2 else 5
/-- The I/O die of a port (R25, R310). -/
def ioDieOf (n : Nat) : Nat := if portGroup n < 3 then 0 else 1

/-! The package (R22, R342, R343): dies 0 to 15 compute, 16 and 17 I/O, 18 control; die-to-die links in the order of log 89. -/

/-- The two dies of a die-to-die link: 0 to 11 east-west and 12 to 23 north-south in the mesh, 24 to 31 from the I/O dies, 32 and 33 to the control die. -/
def linkDies (k : Nat) : Nat × Nat :=
  if k < 12 then (4 * (k / 3) + k % 3, 4 * (k / 3) + k % 3 + 1)
  else if k < 24 then (4 * (k % 3) + (k - 12) / 3, 4 * (k % 3 + 1) + (k - 12) / 3)
  else if k < 28 then (16, 4 * (k - 24))
  else if k < 32 then (17, 4 * (k - 28) + 3)
  else (k - 16, 18)

/-- The links along row r of the mesh between two columns. -/
def rowLinks (r c c' : Nat) : List Nat := (List.range (Nat.max c c' - Nat.min c c')).map (fun i => 3 * r + Nat.min c c' + i)
/-- The links along column c of the mesh between two rows. -/
def columnLinks (c r r' : Nat) : List Nat := (List.range (Nat.max r r' - Nat.min r r')).map (fun i => 12 + 3 * c + Nat.min r r' + i)

/-- The links a packet takes between two dies (R343): along its row first, then along its column; the control die is reached through I/O die 0. From one I/O die
to the other it takes row 0 of the mesh (log 89). -/
def diePath (a b : Nat) : List Nat :=
  if a == b then []
  else if a < 16 && b < 16 then rowLinks (a / 4) (a % 4) (b % 4) ++ columnLinks (b % 4) (a / 4) (b / 4)
  else if a < 16 then rowLinks (a / 4) (a % 4) (if b == 17 then 3 else 0) ++ [(if b == 17 then 28 else 24) + a / 4] ++ (if b == 18 then [32] else [])
  else if b < 16 then (if a == 18 then [32] else []) ++ [(if a == 17 then 28 else 24) + b / 4] ++ rowLinks (b / 4) (if a == 17 then 3 else 0) (b % 4)
  else if a == 18 then [if b == 17 then 33 else 32]
  else (if a == 17 then [28] ++ rowLinks 0 3 0 ++ [24] else []) ++ (if b == 17 then [24] ++ rowLinks 0 0 3 ++ [28] else if b == 18 then [32] else [])

/-- Are all links between two dies in service? -/
def Block.reaches (b : Block) (a d : Nat) : Bool := (diePath a d).all (fun k => (b.port (32 + 2 * k)).isUp && (b.port (33 + 2 * k)).isUp)

/-! Flits out (R324 to R328) -/

/-- The 248 bytes a flit's CRC-64 covers (R325). -/
def flitBytes (f : Flit) : List Byte := leBytes 8 f.head.toNat ++ slice f.payload 0 240

/-- The virtual channel of a packet on the link it takes (R324; log 106). -/
def pktChannel (p : Pkt) : Nat := 3 * p.fld 168 166 + p.fld 165 164 + (if p.urgent then 18 else 0)
/-- Slots of 16 bytes that a packet takes (R324, R329). -/
def slotsOf (p : Pkt) : Nat := 2 + ceilDiv p.payload.length 16

/-- The credits that the next flit of a port returns: channel 0x3F for none, at most 255 slots (R326). -/
def Port.returns (p : Port) : Nat × Nat :=
  match p.owed.find? (fun x => x.2 != 0) with
  | some (c, k) => (c, Nat.min k 255)
  | none => (0x3F, 0)

/-- A flit of a port with its ACK and the credits it returns; DATA flits take the next SEQ and are kept for retry (R326, R328). -/
def Block.emit (b : Block) (n ftype start : Nat) (payload : List Byte) : Block :=
  (b.onPort n (fun p =>
    let (vc, k) := p.returns
    let h : BitVec 64 := setFld (setFld (setFld (setFld (setFld (0 : BitVec 64) 51 40 p.rxAck) 38 36 ftype) 35 30 vc) 29 22 k) 14 0 start
    let h := if ftype == 1 then setFld h 63 52 p.txSeq else h
    let f : Flit := { head := h, payload := slice payload 0 240, crc := 0 }
    let f := { f with crc := crc64 (flitBytes f) }
    let p := { p with sent := p.sent ++ [f], acked := p.rxAck, owed := p.owed.map (fun (x : Nat × Nat) => if x.1 == vc then (x.1, x.2 - k) else x) }
    if ftype == 1 then { p with txSeq := (p.txSeq + 1) % 4096, retry := p.retry ++ [({ seq := p.txSeq, flit := f } : Kept)] } else p)).bump (.flitsTx n)

/-- The slots of packets, each with whether a header begins there (R325, R326). -/
def pktSlots (ps : List Pkt) : List (Bool × List Byte) :=
  (ps.map (fun q =>
    let bytes := leBytes 32 q.head.toNat ++ q.payload
    (List.range (slotsOf q)).map (fun i => (i == 0, slice bytes (16 * i) 16)))).flatten

/-- Slots cut into DATA flits of 15. -/
def Block.emitSlots (b : Block) (n : Nat) (xs : List (Bool × List Byte)) : Nat → Block
  | 0 => b
  | k + 1 =>
    if xs.isEmpty then b
    else
      let now := xs.take 15
      let start := ((List.range now.length).zip now).foldl (fun (a : Nat) (i, (x : Bool × List Byte)) => if x.1 then a + 2 ^ i else a) 0
      Block.emitSlots (b.emit n 1 start ((now.map (·.2)).flatten)) n (xs.drop 15) k

/-! A packet within the package (R24, R343) -/

/-- The ends of the links of a way between two dies, each the sending end and the receiving one. -/
def wayEnds : Nat → List Nat → List (Nat × Nat)
  | _, [] => []
  | d, k :: ks =>
    let (x, y) := linkDies k
    if x == d then (32 + 2 * k, 33 + 2 * k) :: wayEnds y ks else (33 + 2 * k, 32 + 2 * k) :: wayEnds x ks

/-- The channel of a packet on the i-th die-to-die link of its way: the links of the package use their own channels, numbered so that every link raises it (R324, R343;
DEDUCED, log 89). -/
def dieChannel (i : Nat) (p : Pkt) : Nat := i + (if p.urgent then 18 else 0)

/-- A packet crosses one die-to-die link: its flits leave the one end and arrive intact at the other, which returns their slots (R325, R328, R343; log 89). The sending
end keeps them until its next packet shows that they are acknowledged. -/
def Block.crossLink (b : Block) (i : Nat) (ends : Nat × Nat) (p : Pkt) : Block :=
  let xs := pktSlots [p]
  let n := ceilDiv xs.length 15
  let c := dieChannel i p
  let add (l : List (Nat × Nat)) : List (Nat × Nat) := assocSet c ((assocGet c l).getD 0 + xs.length) l
  (((b.emitSlots ends.1 xs xs.length).onPort ends.1 (fun q => { q with retry := q.retry.drop (b.port ends.1).retry.length, used := add q.used, credits := add q.credits })).onPort ends.2
    (fun q => { q with rxAck := (q.rxAck + n) % 4096, acked := (q.rxAck + n) % 4096 })).bump (.flitsRx ends.2) n

/-- A packet moves from one die to another of the package, over the links of R343. -/
def Block.carry (b : Block) (p : Pkt) (src dst : Nat) : Block :=
  let ends := wayEnds src (diePath src dst)
  ((List.range ends.length).zip ends).foldl (fun b (i, e) => b.crossLink i e p) b

/-- The routing entry for a module (R322). -/
def Block.route (b : Block) (dst : Nat) : BitVec 16 :=
  let me := b.moduleId
  if dst / 128 != me / 128 then (b.fab.hallRoute[dst / 128]?).getD 0
  else if dst / 8 % 16 != me / 8 % 16 then (b.fab.villageRoute[dst / 8 % 16]?).getD 0
  else (b.fab.hamletRoute[dst % 8]?).getD 0

/-- The port of a routing entry: the primary when up, else the alternate when up (R322). -/
def Block.pick (b : Block) (e : BitVec 16) : Option Nat :=
  if !flag e 15 then none
  else if b.up (fld e 4 0) then some (fld e 4 0)
  else if b.up (fld e 9 5) then some (fld e 9 5)
  else none

/-- A packet leaves by port n, or is discarded and counted (R323). Its PKT_CRC, which covers HOPS and LOCAL too, is made anew by every module it leaves, unread on the way:
no rule says who makes it after the first (DESIGN CHOICE, log 107). -/
def Block.leaveBy (b : Block) (n : Nat) (p : Pkt) : Block :=
  if !mayLeave p then b.bump .routeDiscard else b.onPort n (fun pt => { pt with txq := pt.txq ++ [p.seal] })

/-- A packet for another module is forwarded by the tables, or by a group's edge entry for its first link (R322, R361). It moves from the die where it stands to the
I/O die of its port (R343); where a die-to-die link on the way is not in service it is lost, and sent again by R333. -/
def Block.forward (b : Block) (p : Pkt) (die : Nat) (edge : Option (BitVec 16) := none) : Block :=
  match b.pick (edge.getD (b.route p.dstModule)) with
  | some n => if b.reaches die (16 + ioDieOf n) then (b.carry p die (16 + ioDieOf n)).leaveBy n p else b
  | none => b.bump .routeDiscard

/-- A packet of this module takes the next FLOW_SEQ of its flow (R331), from 0 (DESIGN CHOICE: the manual gives no first number; log 8). -/
def Block.number (b : Block) (p : Pkt) : Pkt := (p.set 223 208 ((assocGet p.flow b.fab.tx).getD 0)).seal

/-- A numbered packet moves its flow on (R331). -/
def Block.numbered (b : Block) (q : Pkt) : Block := { b with fab := { b.fab with tx := assocSet q.flow ((q.seq + 1) % 65536) b.fab.tx } }

/-- A numbered packet is kept in the end-to-end buffer of an I/O die until acknowledged (R333). -/
def Block.keep (b : Block) (q : Pkt) (io : Nat) (edge : Option (BitVec 16)) (port : Option Nat) : Block :=
  let e : E2e := { flow := q.flow, seq := q.seq, pkt := q, sentAt := b.span, sends := 1, io := io, edge := edge, port := port }
  { b with fab := { b.fab with e2e := b.fab.e2e ++ [e] } }

/-- A receiving flow. -/
def Block.rxFlow (b : Block) (k : FlowKey) : RxFlow := (b.fab.rx.find? (fun f => f.key == k)).getD { key := k }
/-- A receiving flow put in place. -/
def Block.setRx (b : Block) (f : RxFlow) : Block := { b with fab := { b.fab with rx := b.fab.rx.filter (fun g => g.key != f.key) ++ [f] } }

/-- A packet between two dies of the package (R24): numbered in its flow, sealed, carried over the links, and taken in its turn at the other end, which is in the same module: nothing
is left to be acknowledged (log 89). -/
def Block.within (b : Block) (p : Pkt) : Block :=
  let q := b.number p
  let b := (b.numbered q).carry q q.srcDie q.dstDie
  b.setRx { b.rxFlow q.flow with next := (q.seq + 1) % 65536 }

/-- Bytes that a packet takes: its header and its payload (R329). -/
def pktSize (p : Pkt) : Nat := 32 + p.payload.length

/-- Has the end-to-end buffer of an I/O die room for a packet (R333)? -/
def Block.e2eRoom (b : Block) (io : Nat) (q : Pkt) : Bool :=
  (b.fab.e2e.filter (fun e => e.io == io)).foldl (fun n e => n + pktSize e.pkt) 0 + pktSize q ≤ 8388608

/-- The UP ports but one (R486, R489). SP0 carries job traffic only under the number of the port it stands in for (R42, R340). -/
def Block.upPorts (b : Block) (but : Option Nat) : List Nat := (List.range 17).filter (fun n => b.up n && some n != but)

/-- A numbered packet leaves its die: by a port, or by the tables or an edge entry (R322, R333, R343, R361). Where the port is no longer up, another UP port of the
same peer carries it. -/
def Block.depart (b : Block) (q : Pkt) (edge : Option (BitVec 16)) (port : Option Nat) : Block :=
  match port with
  | some n =>
    match if b.up n then some n else (b.upPorts none).find? (fun k => (b.port k).peerModule == q.dstModule) with
    | some k => if b.reaches q.srcDie (16 + ioDieOf k) then (b.carry q q.srcDie (16 + ioDieOf k)).leaveBy k q else b
    | none => b.bump .routeDiscard
  | none => b.forward q q.srcDie edge

/-- A numbered packet is kept, and leaves for the first time (R333). -/
def Block.launch (b : Block) (q : Pkt) (io : Nat) (edge : Option (BitVec 16)) (port : Option Nat) : Block := (b.keep q io edge port).depart q edge port

/-- A numbered packet is sent, or waits while its I/O die's buffer is full (R333). -/
def Block.launchOrWait (b : Block) (q : Pkt) (io : Nat) (edge : Option (BitVec 16)) (port : Option Nat) : Block :=
  if b.fab.backlog.any (fun x => x.io == io) || !b.e2eRoom io q then
    { b with fab := { b.fab with backlog := b.fab.backlog ++ [({ pkt := q, edge := edge, port := port, io := io, since := b.span } : Backlog)] } }
  else b.launch q io edge port

/-- Packets that waited are sent once the buffer has room; the wait counts as a FABRIC stall with cause QUEUE (R303, R333). -/
def Block.drainBacklog (b : Block) : Block :=
  let xs := b.fab.backlog
  xs.foldl (fun b x =>
    if b.fab.backlog.any (fun y => y.io == x.io) || !b.e2eRoom x.io x.pkt then { b with fab := { b.fab with backlog := b.fab.backlog ++ [x] } }
    else ((b.launch x.pkt x.io x.edge x.port).bump (.stallNs 3 0) (b.span - x.since)).bump (.stallEvents 3 0))
    { b with fab := { b.fab with backlog := [] } }

/-- A packet of this module is sent by the tables (R331, R333). -/
def Block.send (b : Block) (p : Pkt) (edge : Option (BitVec 16) := none) : Block :=
  let q := b.number p
  let io := match b.pick (edge.getD (b.route q.dstModule)) with
    | some n => ioDieOf n
    | none => 0
  (b.numbered q).launchOrWait q io edge none

/-- A CRIER or BELL packet crosses one link, to the peer of port n (R486, R493). -/
def Block.sendLink (b : Block) (n typ param ext : Nat) (payload : List Byte) : Block :=
  let q := b.number (mkPkt (b.port n).peerModule 18 b.moduleId 18 true typ 0 param b.job.id ext payload)
  (b.numbered q).launchOrWait q (ioDieOf n) none (some n)

/-! Delays of transfers (R303) -/

/-- Delay added under a cause. -/
def addDelay (cause ns : Nat) (ds : List (Nat × Nat)) : List (Nat × Nat) := if ns = 0 then ds else assocSet cause ((assocGet cause ds).getD 0 + ns) ds

/-- The stalls that wait on the fabric take a delay that a Tlayn link of this module added since a time, on the count of R17 (R303, R309). Which link a late transfer
will come by is not known before it comes (log 101). -/
def Block.fabricDelay (b : Block) (cause since : Nat) : Block :=
  { b with crofts := b.crofts.map (fun (c : Croft) => if c.stalls.isEmpty then c else { c with stalls := c.stalls.map (fun (x : Stall) =>
      if x.tier == 3 then { x with delays := addDelay cause (Nat.min (b.now - x.since) (b.span - since)) x.delays } else x) }) }

/-! The trace stream (R546 to R548) -/

/-- The host address of an offset in the host window (R267). -/
def Block.hostAddr (b : Block) (offset : Nat) : Nat := fld b.desc.hostWin 63 0 + offset

/-- Bytes in the trace ring (R546). -/
def Block.traceBytes (b : Block) : Nat := fld b.desc.trace 459 440 * 4096

/-- The head of a record (R547). -/
def Block.traceHead (b : Block) (typ sub units : Nat) : List Byte :=
  leBytes 32 (putBits (putBits (putBits (putBits (putBits (putBits (putBits 0 255 192 b.now) 191 128 (fld b.desc.trace 319 256)) 127 112 units) 111 104 typ)
    103 96 sub) 95 64 b.job.step) 63 50 b.moduleId)

/-- A record written where the stream stands (R547). -/
def State.tracePut (s : State) (typ sub units : Nat) (payload : List Byte) : State :=
  let b := s.m
  let s := s.writeHost (b.hostAddr (fld b.desc.trace 511 460 + b.safety.tracePos)) (b.traceHead typ sub units ++ payload)
  s.on (fun b =>
    let ms := b.now / 1000000
    let used := if b.safety.traceWindow.1 == ms then b.safety.traceWindow.2 else 0
    { b with desc := { b.desc with trace := setFld b.desc.trace 319 256 (addSat (fld b.desc.trace 319 256) 1) },
             safety := { b.safety with tracePos := if b.safety.tracePos + 32 * units == b.traceBytes then 0 else b.safety.tracePos + 32 * units,
                                       traceWindow := (ms, used + 32 * units) } })

/-- A record that would cross the end of the ring follows a PAD record at its start (R547). -/
def State.tracePlace (s : State) (typ sub : Nat) (payload : List Byte) : State :=
  let units := 1 + ceilDiv payload.length 32
  let left := s.m.traceBytes - s.m.safety.tracePos
  let s := if left < 32 * units then s.tracePut 6 0 (left / 32) [] else s
  s.tracePut typ sub units (slice payload 0 (32 * (units - 1)))

/-- Bytes of the PAD record that a record of some units would follow at a place of the ring (R547). -/
def Block.tracePad (b : Block) (pos units : Nat) : Nat := if b.traceBytes - pos < 32 * units then b.traceBytes - pos else 0

/-- Bytes that writing a record of some units adds to the stream now (R547): its own, those of the LOST record that is due before it, and those of PAD records. -/
def Block.traceNeed (b : Block) (units : Nat) : Nat :=
  let pos := b.safety.tracePos
  if b.safety.lostPending then
    let pad := b.tracePad pos 2
    let next := if pad = 0 then pos + 64 else 64
    pad + 64 + b.tracePad (if next == b.traceBytes then 0 else next) units + 32 * units
  else b.tracePad pos units + 32 * units

/-- A record of the trace stream (R546 to R548): enabled by EN and TYPE_MASK, dropped above MAX_MBPS, and after a drop preceded by a LOST record. What the
manual leaves open of it is log 33. -/
def State.trace (s : State) (typ sub : Nat) (payload : List Byte) : State :=
  let d := s.m.desc.trace
  let units := 1 + ceilDiv payload.length 32
  if !flag d 0 || fld d 15 8 / 2 ^ (typ - 1) % 2 == 0 then s
  else
    let ms := s.m.now / 1000000
    let used := if s.m.safety.traceWindow.1 == ms then s.m.safety.traceWindow.2 else 0
    if fld d 439 408 * 1000 < used + s.m.traceNeed units || s.m.traceBytes < 32 * units then
      s.on (fun b => { b with desc := { b.desc with trace := setFld b.desc.trace 255 192 (addSat (fld b.desc.trace 255 192) 1) },
                              safety := { b.safety with lostPending := true, exportDrop := b.safety.exportDrop || typ == 4 } })
    else
      let s := if s.m.safety.lostPending then (s.tracePlace 5 0 (leBytes 8 (fld d 255 192))).on (fun b => { b with safety := { b.safety with lostPending := false } }) else s
      s.tracePlace typ sub payload

/-! Errors and the bell -/

/-- LAST_EPOCH of an origin (R485). -/
def Block.lastEpoch (b : Block) (origin : Nat) : Nat := (assocGet origin b.faults.epochs).getD 0

/-- The bell that decides: the earliest Ta (R495). -/
def Block.earliestTa (b : Block) : Option Nat := (b.faults.bells.map (·.ta)).min?

/-- Does the module hold a bell whose Ta has not passed (R496). -/
def Block.bellPending (b : Block) : Bool := b.dev.bellPending

/-- BELL packet fields (R493). -/
def bellExt (origin error raiser : Nat) (host : Bool) : Nat := putBits (putBits (putBits (putBits 0 47 34 origin) 33 26 error) 25 12 raiser) 11 11 (b2n host)
/-- BELL payload (R493). -/
def bellPayload (step reason ta : Nat) : List Byte := leBytes 16 (putBits (putBits (putBits 0 127 96 step) 95 64 reason) 63 0 ta)

/-- A bell received or raised (R495): forwarded if first of its origin and epoch or earlier than every bell held; the registers show the earliest; the
first is posted as an event; the state becomes ABORTING. -/
def State.takeBell (s : State) (origin epoch error raiser : Nat) (host : Bool) (step reason ta : Nat) (arrived : Option Nat) (suspectAt : Nat := 0) : State :=
  let b := s.m
  let known := b.faults.bells.any (fun r => r.origin == origin && r.epoch == epoch)
  let earlier := b.faults.bells.all (fun r => decide (ta < r.ta))
  let first := b.faults.bells.isEmpty
  let s := s.on (fun b =>
    let b := if b.lastEpoch origin < epoch then
        { b with faults := { b.faults with epochs := assocSet origin epoch b.faults.epochs,
                                           open_ := b.faults.open_.filter (fun r => !(r.origin == origin && r.epoch ≤ epoch)) } }
      else b
    if !known || earlier then
      let b := { b with faults := { b.faults with bells := b.faults.bells ++ [({ origin := origin, epoch := epoch, ta := ta, error := error, suspectAt := suspectAt } : BellRec)] } }
      (b.upPorts arrived).foldl (fun b n => b.sendLink n 0x11 epoch (bellExt origin error raiser host) (bellPayload step reason ta)) b
    else b.bump .bellDups)
  let s := s.on (fun b =>
    if earlier then
      { b with dev := { b.dev with bellOrigin := origin, bellEpoch := epoch, bellTa := ta, bellPending := true, bellPassed := false, bellDone := false } } else b)
  let s := s.on (fun b => if b.jobRuns then { b with dev := { b.dev with state := 5 } } else b)
  if first then s.postEvent { code := 0x13, result := eventResult s.m.now origin 7 (if host then reason else epoch) } else s

/-- Ta of a bell raised now (R494). -/
def Block.newTa (b : Block) : Nat := ceilDiv (b.now + 250000) 1000 * 1000

/-- A bell raised here (R494, R495), counted in BELLS_RAISED. -/
def State.raiseBell (s : State) (origin epoch error : Nat) (host : Bool) (reason : Nat) (suspectAt : Nat := 0) : State :=
  (s.on (fun b => b.bump .bellsRaised)).takeBell origin epoch error s.m.moduleId host (s.m.job.step % 2 ^ 32) reason s.m.newTa none suspectAt

/-- The class counter of R498. -/
def Class_.counter : Class_ → Counter
  | .c => .errorsC | .t => .errorsT | .d => .errorsD | .m => .errorsM | .j => .errorsJ

/-- An error is counted in its class, and in the lifetime log (R498, R552). -/
def Block.countErr (b : Block) (k : Class_) : Block := (b.bump k.counter).bump (.life 7 k.code)

/-- A detection by a mechanism of R532 is counted under its row, whatever its class (R552). -/
def Block.detection (b : Block) (e : ErrorRec) : Block := if e.cause = 0 then b else b.bump (.life 0xA (2 + e.cause))

/-- The ERROR record of an error (R548, log 33). -/
def State.traceErr (s : State) (e : ErrorRec) : State :=
  let n (x : Option Nat) : Nat := x.getD 0xFF
  let die := match e.die, e.croft with
    | some d, _ => some d
    | none, some c => some (dieOf c)
    | none, none => none
  s.trace 2 (n e.croft) ([BitVec.ofNat 8 e.cls.code, BitVec.ofNat 8 e.code, BitVec.ofNat 8 e.cause, BitVec.ofNat 8 (n die), BitVec.ofNat 8 (n e.croft),
    BitVec.ofNat 8 (n e.port), BitVec.ofNat 8 (n e.package), 0] ++ leBytes 8 e.suspectAt ++ leBytes 4 s.m.job.step)

/-- A class C error enters the log FIFO, or is lost and counted (R460); the trace has every error (R548). -/
def Block.logC (b : Block) (e : ErrorRec) : Block :=
  if b.faults.logFifo.length < 256 then { b with faults := { b.faults with logFifo := b.faults.logFifo ++ [e] } }
  else ({ b with faults := { b.faults with untraced := b.faults.untraced ++ [e] } } : Block).bump .logLost

/-- Is a packet an image write to the partner: a WRITE to one of its two slots (R519). -/
def Block.imageWrite (b : Block) (p : Pkt) : Bool :=
  let base := fld b.desc.snap 383 332
  p.typ == 1 && p.dstModule == fld b.desc.snap 111 98 && base ≤ p.address && p.address < base + 2 * 65536 * fld b.desc.snap 175 144

/-- The image's writes to the partner that are not acknowledged (R514, R517). -/
def Block.imageWrites (b : Block) : List Pkt := (b.fab.e2e.map (·.pkt) ++ b.fab.backlog.map (·.pkt)).filter (fun p => b.imageWrite p)

/-- n bytes the manual leaves undefined, from an address up (log 8). -/
def freeBytes (ctr a n : Nat) : List Byte := (List.range n).map (fun i => Config.freeByte ctr (a + i))

/-- The host slot of an abandoned image holds undefined bytes (R519, R520, R543); the partner's memory is not the module's. -/
def State.voidSlot (s : State) : State :=
  match s.m.snap.image with
  | none => s
  | some i =>
    if i.dest < 2 then s
    else
      let size := fld s.m.desc.snap 175 144 * 65536
      let a := s.m.hostAddr (fld s.m.desc.snap 279 228 + i.slot * size)
      (s.writeHost a (freeBytes s.m.tiers.openCtr a size)).on (fun b => { b with tiers := { b.tiers with openCtr := b.tiers.openCtr + 1 } })

/-- The image in progress is abandoned with a SNAP_STATUS: its slot's content is undefined, its pages return to CLEAR (R514, R520), a class C error (R616). -/
def State.abandonImage (s : State) (status : Nat) : State :=
  match s.m.snap.image with
  | none => s
  | some _ =>
    s.voidSlot.on (fun b =>
      ({ b with snap := { b.snap with image := none, abandoned := true },
                tiers := { b.tiers with pages := b.tiers.pages.map (fun (p : Page) => { p with bear := Bear.clear }) },
                desc := { b.desc with snap := setFld (setFld (setFld b.desc.snap 47 16 0) 3 3 0) 15 8 status } } : Block).logC { cls := .c, code := 0x37, at_ := b.now })

/-- A class J or M detection by a mechanism of R532 is recorded, and an image not older than T_SUSPECT is abandoned (R542, R543, R550). -/
def State.detect (s : State) (e : ErrorRec) : State :=
  let s := if e.cause = 0 then s else s.on (fun b => { b with safety := { b.safety with lastDetect := e.at_, lastSuspect := e.suspectAt, cause := e.cause } })
  match s.m.snap.image with
  | some i => if e.suspectAt ≤ i.barrier then (s.abandonImage 9).on (·.bump .safetyAbandons) else s
  | none => s

/-- An error is raised (R458 to R462). C goes to the log; T, D and M arrive at the handler queue; J is counted and posted, raises the bell unless a bell is
pending (R496) or the module is past Ta (R554), and asserts the fault line (R541). -/
def State.raiseErr (s : State) (e : ErrorRec) : State :=
  let e := { e with at_ := s.m.now, suspectAt := if e.suspectAt = 0 then s.m.now else e.suspectAt }
  match e.cls with
  | .c => s.on (·.logC e)
  | .j =>
    let s := (s.on (fun b => (b.countErr .j).detection e)).detect e |>.traceErr e
    let s := s.postEvent { code := e.code, result := eventResult s.m.now (e.named.getD s.m.moduleId) 4 (s.m.job.step % 2 ^ 32) }
    if !s.m.jobRuns then s
    else
      let s := s.on (fun b => { b with safety := { b.safety with faultLine := true }, faults := { b.faults with ownJ := true } })
      let me := s.m.moduleId
      if s.m.bellPending || s.m.dev.bellPassed then s else s.raiseBell me (s.m.lastEpoch me + 1) e.code false 0 e.suspectAt
  | _ => s.on (fun b => { b with faults := { b.faults with arrived := b.faults.arrived ++ [e] } })

/-- A class C error with a code (R616), its row of R532 and its package where it has them. -/
def Block.raiseC (b : Block) (code : Nat) (port : Option Nat := none) (cause : Nat := 0) (package : Option Nat := none) : Block :=
  b.logC { cls := .c, code := code, at_ := b.now, port := port, cause := cause, package := package }

end Sys2Proof.Machine
end

