-- ==== Sys2Proof/Machine/Real.lean ====
section
/-! DEFINITION. Exact values, the float layouts of R46 to R53, rounding (R75, R76), the conversion table (R70) and KF32 arithmetic (R56, R80,
R82, R169). A value is exact until it is encoded once (R69). -/
namespace Sys2Proof.Machine

/-- A value: NaN, an infinity, or the sign and the exact magnitude m * 2^e. -/
inductive Ext where
  | nan
  | inf (neg : Bool)
  | fin (neg : Bool) (m : Nat) (e : Int)
deriving DecidableEq, Repr

/-- Rounding to nearest even, or stochastic with the draw u (R74 to R76). -/
inductive Rnd where
  | rne
  | sr (u : Nat)
deriving DecidableEq, Repr

/-- A float format (R48, R49, R51, R53): width, mantissa bits, bias, largest finite magnitude code, and what it can hold. -/
structure FloatFmt where
  width : Nat
  mant : Nat
  bias : Nat
  maxCode : Nat
  signedZero : Bool
  nanCode : Option Nat
  infCode : Option Nat
deriving DecidableEq, Repr

/-- KT2 (R48). -/
def kt2 : FloatFmt := { width := 2, mant := 0, bias := 1, maxCode := 1, signedZero := false, nanCode := none, infCode := none }
/-- KF3 (R49). -/
def kf3 : FloatFmt := { width := 3, mant := 0, bias := 1, maxCode := 3, signedZero := false, nanCode := none, infCode := none }
/-- KF4 (R51). -/
def kf4 : FloatFmt := { width := 4, mant := 1, bias := 1, maxCode := 7, signedZero := false, nanCode := none, infCode := none }
/-- KF6 (R53). -/
def kf6 : FloatFmt := { width := 6, mant := 2, bias := 3, maxCode := 31, signedZero := true, nanCode := none, infCode := none }
/-- KF8M (R53, R54). -/
def kf8m : FloatFmt :=
  { width := 8, mant := 3, bias := 7, maxCode := 0x7E, signedZero := true, nanCode := some 0x7F, infCode := none }
/-- KF8E (R53, R54). -/
def kf8e : FloatFmt :=
  { width := 8, mant := 2, bias := 15, maxCode := 0x7B, signedZero := true, nanCode := some 0x7E, infCode := some 0x7C }
/-- KF16 (R53, R54). -/
def kf16 : FloatFmt :=
  { width := 16, mant := 7, bias := 127, maxCode := 0x7F7F, signedZero := true, nanCode := some 0x7FC0, infCode := some 0x7F80 }
/-- KF32 (R53, R54). -/
def kf32 : FloatFmt :=
  { width := 32, mant := 23, bias := 127, maxCode := 0x7F7FFFFF, signedZero := true, nanCode := some 0x7FC00000,
    infCode := some 0x7F800000 }

/-- m * 2^k for a signed k of a whole number, cut toward zero. -/
def scaleTrunc (m : Nat) (k : Int) : Nat := if 0 ≤ k then m <<< k.toNat else m >>> (-k).toNat

/-- Is m1 * 2^e1 below m2 * 2^e2. -/
def ltMag (m1 : Nat) (e1 : Int) (m2 : Nat) (e2 : Int) : Bool :=
  if e1 ≤ e2 then m1 < m2 <<< (e2 - e1).toNat else m1 <<< (e1 - e2).toNat < m2

/-- Floor of log2 of m * 2^e, for m above 0. -/
def floorLog2 (m : Nat) (e : Int) : Int := (Nat.log2 m : Int) + e

/-- Does x at fraction rem / 2^k of the way from one code to the next go up (R75, R76)? -/
def roundsUp (r : Rnd) (odd : Bool) (rem k : Nat) : Bool :=
  match r with
  | .rne => 2 ^ k < 2 * rem || (2 * rem == 2 ^ k && odd)
  | .sr u => u < (rem <<< 16) >>> k

/-- The magnitude code that m * 2^e rounds to, without bound (R75, R76): codes of one format are consecutive magnitudes. -/
def magCode (f : FloatFmt) (r : Rnd) (m : Nat) (e : Int) : Nat :=
  if m = 0 then 0 else
  let low : Int := 1 - f.bias
  let u := max (floorLog2 m e) low - f.mant
  let base := ((u - (low - f.mant)).toNat) <<< f.mant
  let k := u - e
  if k ≤ 0 then base + m <<< (-k).toNat
  else
    let n := m >>> k.toNat
    let c := base + n
    if roundsUp r (c % 2 == 1) (m % 2 ^ k.toNat) k.toNat then c + 1 else c

/-- Mantissa and exponent of a magnitude code (R53). -/
def magOf (f : FloatFmt) (c : Nat) : Nat × Int :=
  let ex := c >>> f.mant
  let mt := c % 2 ^ f.mant
  if ex = 0 then (mt, 1 - (f.bias : Int) - f.mant) else (2 ^ f.mant + mt, (ex : Int) - f.bias - f.mant)

/-- The value of a code (R48, R49, R51, R53). -/
def decodeFloat (f : FloatFmt) (code : Nat) : Ext :=
  let neg := code >>> (f.width - 1) % 2 == 1
  let mag := code % 2 ^ (f.width - 1)
  if mag ≤ f.maxCode then
    let (m, e) := magOf f mag
    .fin (neg && (m != 0 || f.signedZero)) m e
  else if f.infCode == some mag then .inf neg
  else .nan

/-- What an encoding gives and what it is counted as (R70, R71). -/
structure Enc where
  code : Nat
  sat : Bool := false
  nonfin : Bool := false
  vanish : Bool := false
  zero : Bool := false
deriving DecidableEq, Repr

/-- A magnitude code with its sign. -/
def signCode (f : FloatFmt) (neg : Bool) (c : Nat) : Nat :=
  if neg && (c != 0 || f.signedZero) then c + 2 ^ (f.width - 1) else c

/-- The conversion table for the float formats (R70). -/
def encodeFloat (f : FloatFmt) (r : Rnd) : Ext → Enc
  | .nan => match f.nanCode with
    | some c => { code := c, nonfin := true }
    | none => { code := 0, nonfin := true, zero := true }
  | .inf neg => match f.infCode with
    | some c => { code := signCode f neg c, nonfin := true }
    | none => { code := signCode f neg f.maxCode, nonfin := true, sat := true }
  | .fin neg m e =>
    if m = 0 then { code := signCode f neg 0, zero := true }
    else
      let (mm, me) := magOf f f.maxCode
      if ltMag mm me m e then { code := signCode f neg f.maxCode, sat := true }
      else
        let c := magCode f r m e
        { code := signCode f neg c, vanish := c == 0, zero := c == 0 }

/-- A whole number with the sign. -/
def signInt (neg : Bool) (n : Nat) : Int := if neg then -(n : Int) else n

/-- An exact value rounded to a whole number by magnitude (R75, R76). -/
def roundWhole (r : Rnd) (m : Nat) (e : Int) : Nat :=
  if 0 ≤ e then m <<< e.toNat
  else
    let k := (-e).toNat
    let n := m >>> k
    if roundsUp r (n % 2 == 1) (m % 2 ^ k) k then n + 1 else n

/-- The result of an integer encoding. -/
structure EncInt where
  val : Int
  sat : Bool := false
  nonfin : Bool := false
  vanish : Bool := false
  zero : Bool := false
deriving DecidableEq, Repr

/-- The conversion table for the integer formats (R70): x is already divided by 2^E; limits as magnitudes. -/
def encodeInt (r : Rnd) (hi lo : Nat) : Ext → EncInt
  | .nan => { val := 0, nonfin := true, zero := true }
  | .inf neg => { val := if neg then -(lo : Int) else hi, nonfin := true, sat := true }
  | .fin neg m e =>
    if m = 0 then { val := 0, zero := true }
    else
      let lim := if neg then lo else hi
      if ltMag lim 0 m e then { val := signInt neg lim, sat := true }
      else
        let n := roundWhole r m e
        { val := signInt neg n, vanish := n == 0, zero := n == 0 }

/-- The value times 2^k, exactly. -/
def Ext.scale (x : Ext) (k : Int) : Ext := match x with
  | .fin neg m e => .fin neg m (e + k)
  | y => y

/-- A whole number as a value. -/
def Ext.ofInt (x : Int) : Ext := .fin (decide (x < 0)) x.natAbs 0

/-- The value of a KF32 code. -/
def f32 (x : F32) : Ext := decodeFloat kf32 x.toNat

/-- Exact to KF32 by one rounding to nearest even, overflow to infinity (R56). -/
def toF32 : Ext → F32
  | .nan => 0x7FC00000#32
  | .inf neg => if neg then 0xFF800000#32 else 0x7F800000#32
  | .fin neg m e =>
    let c := magCode kf32 .rne m e
    let c := if kf32.maxCode < c then 0x7F800000 else c
    BitVec.ofNat 32 (signCode kf32 neg c)

/-- Exact to KF32 as a conversion (R70, R114), with its counts. -/
def convF32 (x : Ext) : Enc := encodeFloat kf32 .rne x

/-- Exact to KF32 as a conversion (R70, R170): beyond the largest finite value the KF32 maximum, and a NaN the canonical one (log 92). -/
def asF32 (x : Ext) : F32 := BitVec.ofNat 32 (convF32 x).code

/-- The exact sum (IEEE 754 signs of zero). -/
def addExt : Ext → Ext → Ext
  | .nan, _ => .nan
  | _, .nan => .nan
  | .inf a, .inf b => if a == b then .inf a else .nan
  | .inf a, _ => .inf a
  | _, .inf b => .inf b
  | .fin a m e, .fin b n f =>
    let g := min e f
    let x := signInt a (m <<< (e - g).toNat) + signInt b (n <<< (f - g).toNat)
    if x = 0 then .fin (a && b) 0 0 else .fin (decide (x < 0)) x.natAbs g

/-- The exact product (R79, R82). -/
def mulExt : Ext → Ext → Ext
  | .nan, _ => .nan
  | _, .nan => .nan
  | .inf a, .inf b => .inf (a != b)
  | .inf a, .fin b n _ => if n = 0 then .nan else .inf (a != b)
  | .fin a m _, .inf b => if m = 0 then .nan else .inf (a != b)
  | .fin a m e, .fin b n f => .fin (a != b) (m * n) (e + f)

/-- The value with the other sign. -/
def negExt : Ext → Ext
  | .nan => .nan
  | .inf a => .inf (!a)
  | .fin a m e => .fin (!a) m e

/-- The quotient cut to 80 bits with a sticky bit below, which rounds to KF32 as the exact quotient does. -/
def divExt : Ext → Ext → Ext
  | .nan, _ => .nan
  | _, .nan => .nan
  | .inf _, .inf _ => .nan
  | .inf a, .fin b _ _ => .inf (a != b)
  | .fin a _ _, .inf b => .fin (a != b) 0 0
  | .fin a m e, .fin b n f =>
    if n = 0 then (if m = 0 then .nan else .inf (a != b))
    else if m = 0 then .fin (a != b) 0 0
    else
      let k := 80 + Nat.log2 n
      let q := (m <<< k) / n
      let s := if (m <<< k) % n = 0 then 0 else 1
      .fin (a != b) (2 * q + s) (e - f - k - 1)

/-- The square root cut with a sticky bit below. -/
def sqrtExt : Ext → Ext
  | .nan => .nan
  | .inf a => if a then .nan else .inf false
  | .fin a m e =>
    if m = 0 then .fin a 0 0
    else if a then .nan
    else
      let (m, e) := if e % 2 = 0 then (m, e) else (2 * m, e - 1)
      let n := m <<< 160
      let r := isqrt n
      .fin false (2 * r + (if r * r = n then 0 else 1)) (e / 2 - 81)

/-- 1 / sqrt: the root of the exact quotient 2^400 / m, with a sticky bit below (R169). -/
def rsqrtExt : Ext → Ext
  | .nan => .nan
  | .inf a => if a then .nan else .fin false 0 0
  | .fin a m e =>
    if m = 0 then .inf a
    else if a then .nan
    else
      let (m, e) := if e % 2 = 0 then (m, e) else (2 * m, e - 1)
      let n := (2 ^ 400) / m
      let r := isqrt n
      .fin false (2 * r + (if r * r * m = 2 ^ 400 then 0 else 1)) (-(e / 2) - 201)

/-- Working bits of EXP2 and LOG2: far beyond the hardest case of a binary32 argument (log 20). -/
def workBits : Nat := 256

/-- The root of a number scaled by 2^workBits, so scaled. -/
def rootStep (y : Nat) (bit : Bool) : Nat := isqrt ((if bit then 2 * y else y) <<< workBits)

/-- 2^f for the fraction f = frac / 2^k, scaled by 2^workBits, from the lowest bit of f up. -/
def exp2Frac (frac : Nat) : Nat → Nat → Nat
  | 0, y => y
  | k + 1, y => exp2Frac (frac / 2) k (rootStep y (frac % 2 == 1))

/-- 2^x (R169). A whole x is exact; any other x gives an irrational result, marked by a sticky bit. -/
def exp2Ext : Ext → Ext
  | .nan => .nan
  | .inf a => if a then .fin false 0 0 else .inf false
  | .fin a m e =>
    if m = 0 then .fin false 1 0
    else if 0 ≤ e || m % 2 ^ (-e).toNat = 0 then
      let n := scaleTrunc m e
      if 2000 < n then (if a then .fin false 1 (-2000) else .fin false 1 2000)
      else .fin false 1 (signInt a n)
    else
      let k := (-e).toNat
      let x := signInt a m
      let whole := x / (2 ^ k : Nat)
      let frac := (x % (2 ^ k : Nat)).toNat
      .fin false (2 * exp2Frac frac k (2 ^ workBits) + 1) (whole - workBits - 1)

/-- The next bits of log2 of y / 2^workBits, for y from 2^workBits below 2^(workBits + 1), onto acc. -/
def log2Bits : Nat → Nat → Nat → Nat
  | 0, _, acc => acc
  | k + 1, y, acc =>
    let y2 := (y * y) >>> workBits
    if 2 ^ (workBits + 1) ≤ y2 then log2Bits k (y2 / 2) (2 * acc + 1) else log2Bits k y2 (2 * acc)

/-- log2 x (R169): exact for a power of two, else 120 fraction bits and a sticky bit. -/
def log2Ext : Ext → Ext
  | .nan => .nan
  | .inf a => if a then .nan else .inf false
  | .fin a m e =>
    if m = 0 then .inf true
    else if a then .nan
    else
      let l := Nat.log2 m
      let whole := (l : Int) + e
      if m = 2 ^ l then .ofInt whole
      else
        let fr := log2Bits 120 (m <<< (workBits - l)) 0
        let x := 2 * (whole * (2 ^ 120 : Nat) + fr) + 1
        .fin (decide (x < 0)) x.natAbs (-121)

/-- Is a below b, as values; false with a NaN (R79, R82). -/
def ltExt : Ext → Ext → Bool
  | .nan, _ => false
  | _, .nan => false
  | .inf a, .inf b => a && !b
  | .inf a, _ => a
  | _, .inf b => !b
  | .fin a m e, .fin b n f =>
    if m = 0 && n = 0 then false
    else if a && m != 0 then (if b && n != 0 then ltMag n f m e else true)
    else if b && n != 0 then false
    else ltMag m e n f

/-- Are a and b equal as values; false with a NaN (R79, R82). -/
def eqExt (a b : Ext) : Bool := a != .nan && b != .nan && !ltExt a b && !ltExt b a

/-- Is the code a NaN. -/
def isNan (x : F32) : Bool := f32 x == .nan

/-- Is the code an infinity. -/
def isInf (x : F32) : Bool := match f32 x with
  | .inf _ => true
  | _ => false

/-- Is the code finite. -/
def isFin (x : F32) : Bool := match f32 x with
  | .fin _ _ _ => true
  | _ => false

def f32Add (a b : F32) : F32 := toF32 (addExt (f32 a) (f32 b))
def f32Sub (a b : F32) : F32 := toF32 (addExt (f32 a) (negExt (f32 b)))
def f32Mul (a b : F32) : F32 := toF32 (mulExt (f32 a) (f32 b))
def f32Fma (a b c : F32) : F32 := toF32 (addExt (mulExt (f32 a) (f32 b)) (f32 c))
def f32Div (a b : F32) : F32 := toF32 (divExt (f32 a) (f32 b))
def f32Recip (a : F32) : F32 := f32Div 0x3F800000#32 a
def f32Sqrt (a : F32) : F32 := toF32 (sqrtExt (f32 a))
def f32Rsqrt (a : F32) : F32 := toF32 (rsqrtExt (f32 a))
def f32Exp2 (a : F32) : F32 := toF32 (exp2Ext (f32 a))
def f32Log2 (a : F32) : F32 := toF32 (log2Ext (f32 a))
/-- The sign bit cleared (R168, R82). -/
def f32Abs (a : F32) : F32 := a &&& 0x7FFFFFFF#32
/-- The sign bit inverted (R168, R82). -/
def f32Neg (a : F32) : F32 := a ^^^ 0x80000000#32

/-- Is the code a zero of either sign. -/
def f32Zero (a : F32) : Bool := a &&& 0x7FFFFFFF#32 == 0

/-- Maximum (R80). -/
def f32Max (a b : F32) : F32 :=
  if isNan a then (if isNan b then 0x7FC00000#32 else b)
  else if isNan b then a
  else if f32Zero a && f32Zero b then a &&& b
  else if ltExt (f32 a) (f32 b) then b else a

/-- Minimum (R80). -/
def f32Min (a b : F32) : F32 :=
  if isNan a then (if isNan b then 0x7FC00000#32 else b)
  else if isNan b then a
  else if f32Zero a && f32Zero b then a ||| b
  else if ltExt (f32 b) (f32 a) then b else a

/-- 1.0 in KF32. -/
def f32One : F32 := 0x3F800000#32

/-- CMP (R168): MODE 0 equal, 1 below, 2 at most; reserved modes are refused at load (R613). -/
def f32Cmp (mode : Nat) (a b : F32) : F32 :=
  let x := f32 a
  let y := f32 b
  let t := match mode with
    | 0 => eqExt x y
    | 1 => ltExt x y
    | _ => ltExt x y || eqExt x y
  if t then f32One else 0

/-- SEL (R168): a if c is not 0, else b; a NaN c selects a. -/
def f32Sel (a b c : F32) : F32 := if f32Zero c then b else a

/-- A pairwise tree over a list padded to a power of two: level by level, node 2m with node 2m + 1 (R117, R169). -/
def pairLevel {α : Type} (f : α → α → α) : List α → List α
  | a :: b :: rest => f a b :: pairLevel f rest
  | rest => rest

/-- k levels of the pairwise tree. -/
def pairTree {α : Type} (f : α → α → α) : Nat → List α → List α
  | 0, l => l
  | k + 1, l => pairTree f k (pairLevel f l)

/-- The pairwise combination of the values of l, absent ones as z. -/
def pairwise {α : Type} (f : α → α → α) (z : α) (l : List α) : α :=
  let k := ceilLog2 l.length
  ((pairTree f k (l ++ List.replicate (2 ^ k - l.length) z)).head?).getD z

/-- Rounding of x / d to the nearest whole number, ties to even (R129, R196, R209, R379). -/
def rneDiv (x : Int) (d : Nat) : Int := signInt (decide (x < 0)) <|
  let n := x.natAbs / d
  let r := x.natAbs % d
  if d < 2 * r || (2 * r == d && n % 2 == 1) then n + 1 else n

/-- x / 2^k cut toward zero, or x * 2^(-k), and whether non-zero bits were dropped (R92, R101, R145). -/
def shiftTrunc (x : Int) (k : Int) : Int × Bool :=
  if 0 ≤ k then (x * (2 ^ k.toNat : Nat), false)
  else
    let d := 2 ^ (-k).toNat
    (signInt (decide (x < 0)) (x.natAbs / d), x.natAbs % d != 0)

end Sys2Proof.Machine
end

