-- ==== Sys2Proof/Machine/Formats.lean ====
section
/-! DEFINITION. Tensors and formats: the tensor-table entry and the operation record (R174 to R177), packing (R47), the layout of the
streams in tiles (R278 to R280), scale and side records (R63, R141), and encoding into a format (R66, R70). -/
namespace Sys2Proof.Machine

/-- A tensor-table entry (R177). -/
structure Tensor where
  ovfBase : Nat := 0
  tag : Nat := 0
  tagBase : Nat := 0
  square : Bool := false
  magpie : Bool := false
  scaled : Bool := false
  format : Nat := 8
  cols : Nat := 0
  rows : Nat := 0
  inStore : Bool := false
  address : Nat := 0
deriving DecidableEq, Repr

/-- The fields of a tensor-table entry (R177). A croft-store address is its low 22 bits. -/
def tensorOf (v : BitVec 256) : Tensor :=
  { ovfBase := fld v 211 160, tag := fld v 159 144, tagBase := fld v 141 136, square := flag v 135, magpie := flag v 134, scaled := flag v 133,
    format := fld v 132 128, cols := fld v 127 96, rows := fld v 95 64, inStore := flag v 63,
    address := if flag v 63 then fld v 21 0 else fld v 51 0 }

/-- The tensor of an index in the loaded almanac; 0xFFFF and indices beyond the table name none. -/
def Block.tensor (b : Block) (i : Nat) : Option Tensor :=
  match b.job.almanac with
  | some a => if i == 0xFFFF then none else (a.tensors[i]?).map tensorOf
  | none => none

/-- Slices of a stored row (R57, R190). -/
def slicesPerRow (t : Tensor) : Nat := ceilDiv t.cols 256

/-- Slices of a KQ32 or KQ24 tensor in a tile of 32 KiB, and the bytes of one with its trailer (R57, R278). -/
def sliceSize (format : Nat) : Nat × Nat := if format == 9 then (31, 1028) else (42, 772)

/-- The address of the slice of a row and column block (R57, R278). -/
def Tensor.sliceAddr (t : Tensor) (row cb : Nat) : Nat :=
  let k := row * slicesPerRow t + cb
  let (per, n) := sliceSize t.format
  t.address + 32768 * (k / per) + k % per * n

/-! Operation records (R174 to R178) -/

/-- Word n of an operation record. -/
def opWord (op : BitVec 512) (n : Nat) : Nat := fld op (32 * n + 31) (32 * n)
def opCode (op : BitVec 512) : Nat := fld op 7 0
/-- FLAGS bit n (R176). -/
def opFlag (op : BitVec 512) (n : Nat) : Bool := flag op (16 + n)
def opSched (op : BitVec 512) : Nat := fld op 26 25
def opMb (op : BitVec 512) : Nat := fld op 15 8
def opAcc (op : BitVec 512) : Nat := opWord op 1
def opDrain (op : BitVec 512) : Nat := opWord op 2
def opCols (op : BitVec 512) : Nat := bitsOf (opWord op 3) 29 22 + 1
def opRows (op : BitVec 512) : Nat := bitsOf (opWord op 3) 21 14 + 1
def opBlocks (op : BitVec 512) : Nat := bitsOf (opWord op 3) 13 0
def opAux (op : BitVec 512) : Nat := bitsOf (opWord op 10) 15 0
def opLayer (op : BitVec 512) : Nat := bitsOf (opWord op 10) 31 16
def opStream (op : BitVec 512) : Nat := opWord op 11
def opSignal (op : BitVec 512) : Nat := bitsOf (opWord op 13) 15 0
def opPred (op : BitVec 512) : Nat := opWord op 14
/-- WAIT tokens (R174). -/
def opWaits (op : BitVec 512) : List Nat := [bitsOf (opWord op 12) 15 0, bitsOf (opWord op 12) 31 16].filter (· != 0xFFFF)

/-- A block reference (R177): tensor index, first row, first column in elements. -/
structure BlockRef where
  tensor : Nat
  row : Nat
  col : Nat
deriving DecidableEq, Repr

/-- The block reference of words n and n + 1. -/
def blockRef (op : BitVec 512) (n : Nat) : BlockRef :=
  { tensor := fld op (32 * n + 15) (32 * n), row := fld op (32 * n + 39) (32 * n + 16), col := 32 * fld op (32 * n + 63) (32 * n + 40) }

def opA (op : BitVec 512) : BlockRef := blockRef op 4
def opB (op : BitVec 512) : BlockRef := blockRef op 6
def opOut (op : BitVec 512) : BlockRef := blockRef op 8

/-- Fields of a DRAIN_CTRL word (R110). -/
structure DrainCtrl where
  tagBase : Nat
  norm : Bool
  magpie : Bool
  clip : Bool
  bias : Bool
  mulMode : Nat
  headroom : Nat
  scaled : Bool
  table : Bool
  sr : Bool
  fmt : Nat
deriving DecidableEq, Repr

/-- DRAIN_CTRL decoded (R110). -/
def drainCtrl (w : Nat) : DrainCtrl :=
  { tagBase := bitsOf w 31 26, norm := bitsOf w 25 25 == 1, magpie := bitsOf w 24 24 == 1, clip := bitsOf w 23 23 == 1, bias := bitsOf w 22 22 == 1,
    mulMode := bitsOf w 21 20, headroom := bitsOf w 19 17, scaled := bitsOf w 16 16 == 1, table := bitsOf w 15 15 == 1,
    sr := bitsOf w 14 14 == 1, fmt := bitsOf w 13 10 }

/-! Packing and layout -/

/-- The float layout of a format code (R111); KI4 and the integer formats have none. -/
def floatOf : Nat → Option FloatFmt
  | 0 => some kt2 | 1 => some kf3 | 3 => some kf4 | 4 => some kf6 | 5 => some kf8m | 6 => some kf8e | 7 => some kf16 | 8 => some kf32
  | _ => none

/-- Bits of an element's container (R47). -/
def containerBits : Nat → Nat
  | 0 => 2 | 1 => 4 | 2 => 4 | 3 => 4 | 4 => 6 | 5 => 8 | 6 => 8 | 7 => 16 | 10 => 24
  | _ => 32

/-- Code bits that a reader takes from the container: KF3's nibble has a reserved bit (R47). -/
def codeMask (fmt : Nat) : Nat := if fmt = 1 then 7 else 2 ^ containerBits fmt - 1

/-- Bytes of a segment and segments in a tile (R279). -/
def segBytes (fmt : Nat) : Nat := 16 * containerBits fmt
def segsPerTile (fmt : Nat) (scaled : Bool) : Nat :=
  match fmt with
  | 0 => if scaled then 992 else 1024
  | 1 | 2 | 3 => if scaled then 496 else 512
  | 4 => if scaled then 330 else 341
  | 5 | 6 => if scaled then 248 else 256
  | 7 => if scaled then 124 else 128
  | _ => 64

/-- The elements packed little-endian, element 0 lowest (R47): codes of one width as one number. -/
def packCodes (bits : Nat) : List Nat → Nat
  | [] => 0
  | c :: cs => c % 2 ^ bits + 2 ^ bits * packCodes bits cs

/-- n codes of one width from a number. -/
def unpackCodes (bits : Nat) : Nat → Nat → List Nat
  | 0, _ => []
  | n + 1, v => v % 2 ^ bits :: unpackCodes bits n (v / 2 ^ bits)

/-- Segments of a stored row (R62). -/
def Tensor.spr (t : Tensor) : Nat := ceilDiv t.cols 128
/-- Segment number of a row's segment (R68, R278). -/
def Tensor.seg (t : Tensor) (row sg : Nat) : Nat := row * t.spr + sg
/-- Segments of the tensor. -/
def Tensor.segs (t : Tensor) : Nat := t.rows * t.spr
/-- Is the tensor in slices with trailers (KQ32, KQ24). -/
def Tensor.sliced (t : Tensor) : Bool := t.format == 9 || t.format == 10
/-- Tiles of the data stream (R279, R280). -/
def Tensor.dataTiles (t : Tensor) : Nat :=
  if t.format == 9 then ceilDiv (t.rows * ceilDiv t.cols 256) 31
  else if t.format == 10 then ceilDiv (t.rows * ceilDiv t.cols 256) 42
  else ceilDiv t.segs (segsPerTile t.format t.scaled)
/-- Tiles of the scale stream (R280). -/
def Tensor.scaleTiles (t : Tensor) : Nat := if t.scaled then ceilDiv t.segs 6553 else 0
/-- Tiles of all streams (R278). -/
def Tensor.tiles (t : Tensor) : Nat := t.dataTiles + t.scaleTiles + (if t.magpie then ceilDiv t.segs 2048 else 0)
/-- Address of segment k in the data stream (R279). -/
def Tensor.segAddr (t : Tensor) (k : Nat) : Nat :=
  let s := segsPerTile t.format t.scaled
  t.address + 32768 * (k / s) + k % s * segBytes t.format
/-- Address of segment k's tag byte (R279). -/
def Tensor.tagAddr (t : Tensor) (k : Nat) : Nat :=
  let s := segsPerTile t.format t.scaled
  t.address + 32768 * (k / s) + 31744 + k % s
/-- Address of segment k's scale record (R280). -/
def Tensor.scaleAddr (t : Tensor) (k : Nat) : Nat := t.address + 32768 * (t.dataTiles + k / 6553) + 5 * (k % 6553)
/-- The bytes that no segment uses behind segment k, where it is the last of its data tile: of the data area and of the tag area (R279). -/
def Tensor.dataTail (t : Tensor) (k : Nat) : List (Nat × Nat) :=
  let s := segsPerTile t.format t.scaled
  let tile := t.address + 32768 * (k / s)
  let n := Nat.min s (t.segs - k / s * s)
  if k % s + 1 != n then []
  else
    let used := n * segBytes t.format
    if t.scaled then [(tile + used, 31744 - used), (tile + 31744 + n, 1024 - n)] else [(tile + used, 32768 - used)]
/-- The bytes left over behind segment k's scale and side records, where they are the last of their tiles (R280). -/
def Tensor.recordTail (t : Tensor) (k : Nat) : List (Nat × Nat) :=
  let left (first per bytes : Nat) : List (Nat × Nat) :=
    let n := Nat.min per (t.segs - k / per * per)
    if k % per + 1 != n then [] else [(t.address + 32768 * (first + k / per) + n * bytes, 32768 - n * bytes)]
  (if t.scaled then left t.dataTiles 6553 5 else []) ++ (if t.magpie then left (t.dataTiles + t.scaleTiles) 2048 16 else [])
/-- The bytes left over behind the slice of a row and column block, where it is the last of its tile (R280). -/
def Tensor.sliceTail (t : Tensor) (row cb : Nat) : List (Nat × Nat) :=
  let k := row * slicesPerRow t + cb
  let (per, n) := sliceSize t.format
  let used := Nat.min per (t.rows * slicesPerRow t - k / per * per)
  if k % per + 1 != used then [] else [(t.address + 32768 * (k / per) + used * n, 32768 - used * n)]
/-- Address of segment k's side record (R280). -/
def Tensor.sideAddr (t : Tensor) (k : Nat) : Nat := t.address + 32768 * (t.dataTiles + t.scaleTiles + k / 2048) + 16 * (k % 2048)

/-- Bytes read by an operation of croft c, from its croft store or from the device range (R172, R177). -/
def readLoc (m : Memory) (c : Nat) (inStore : Bool) (a n : Nat) : List Byte :=
  if inStore then (m.store c).readBytes a n else m.parcel.readBytes a n

/-- A segment as stored: codes, tag byte, scale record, side record, number of elements that are no padding. -/
structure Seg where
  codes : List Nat
  tag : Nat := 0
  scale : Nat := 0
  side : Nat := 0
  valid : Nat := 128
deriving DecidableEq, Repr

/-- Segment sg of a stored row (R278 to R280). A segment past the row's end is padding. -/
def readSeg (m : Memory) (c : Nat) (t : Tensor) (row sg : Nat) : Seg :=
  let k := t.seg row sg
  { codes := (unpackCodes (containerBits t.format) 128 (leNat (readLoc m c t.inStore (t.segAddr k) (segBytes t.format)))).map (· % (codeMask t.format + 1)),
    tag := if t.scaled then leNat (readLoc m c t.inStore (t.tagAddr k) 1) % 64 else 0,
    scale := if t.scaled then leNat (readLoc m c t.inStore (t.scaleAddr k) 5) else 0,
    side := if t.magpie then leNat (readLoc m c t.inStore (t.sideAddr k) 16) else 0,
    valid := Nat.min 128 (t.cols - 128 * sg) }

/-! Scale and side records -/

def recScale (r : Nat) : Nat := bitsOf r 15 0
def recShift (r j : Nat) : Nat := bitsOf r (19 + 4 * j) (16 + 4 * j)
def recTag (r : Nat) : Nat := bitsOf r 37 32
def recSide (r : Nat) : Bool := bitsOf r 38 38 == 1

/-- A scale record (R63). -/
def mkRecord (scale : Nat) (shifts : List Nat) (tag : Nat) (side : Bool) : Nat :=
  putBits (putBits (putBits (putBits (putBits (putBits (putBits 0 38 38 (b2n side)) 37 32 tag) 31 28 (shifts.getD 3 0)) 27 24 (shifts.getD 2 0))
    23 20 (shifts.getD 1 0)) 19 16 (shifts.getD 0 0)) 15 0 scale

/-- Is a ROW_SCALE valid (R67): positive, normal and finite. -/
def scaleOk (s : Nat) : Bool := 0x0080 ≤ s && s ≤ 0x7F7F

/-- Significand and exponent of a valid row scale (R92). -/
def scaleParts (s : Nat) : Nat × Int := (128 + s % 128, (s / 128 % 256 : Nat) - 134)

/-- fl of a row scale (R96). -/
def scaleFl (s : Nat) : Int := (s / 128 % 256 : Nat) - 127

def sideCount (r : Nat) : Nat := bitsOf r 94 92
def sideOvfCount (r : Nat) : Nat := bitsOf r 107 101
def sideOvfStart (r : Nat) : Nat := bitsOf r 119 108
def sideOvfCroft (r : Nat) : Nat := bitsOf r 127 120
def sideTag (r : Nat) : Nat := bitsOf r 100 95
/-- Entry n of a side list: position and KF16 value (R141). -/
def sideEntry (r n : Nat) : Nat × Nat := (bitsOf r (23 * n + 22) (23 * n + 16), bitsOf r (23 * n + 15) (23 * n))

/-- Is a side record corrupted (R148). -/
def sideBad (side scale : Nat) : Bool :=
  4 < sideCount side || 124 < sideOvfCount side || 4096 < sideOvfStart side + sideOvfCount side || 191 < sideOvfCroft side
    || (recSide scale != (sideCount side != 0 || sideOvfCount side != 0))

/-- Pool entry i of a segment's side record (R142, R143): its 64 bits. -/
def poolEntry (m : Memory) (t : Tensor) (side i : Nat) : Nat :=
  m.parcel.readNat (t.ovfBase + 32768 * sideOvfCroft side + 8 * (sideOvfStart side + i)) 8

/-- Do the tags of a segment disagree (R148): data tag, scale tag, side tag, pool tags and segment numbers. -/
def tagBad (m : Memory) (t : Tensor) (k : Nat) (g : Seg) : Bool :=
  t.scaled && (g.tag != recTag g.scale || (t.magpie && (sideTag g.side != g.tag || sideBad g.side g.scale
    || (List.range (sideOvfCount g.side)).any (fun i =>
        let e := poolEntry m t g.side i
        bitsOf e 61 56 != g.tag || bitsOf e 55 24 != k))))

/-- The magpie's escape code of a format (R139). -/
def escapeCode : Nat → Option Nat
  | 0 => some 2 | 3 => some 8 | _ => none

/-- The side value of an escaped position of a segment (R141, R142), as a KF16 code. -/
def sideValue (m : Memory) (t : Tensor) (g : Seg) (pos : Nat) : Option Nat :=
  let listed := (List.range (Nat.min (sideCount g.side) 4)).map (sideEntry g.side)
  let pooled := (List.range (sideOvfCount g.side)).map (fun i => let e := poolEntry m t g.side i; (bitsOf e 22 16, bitsOf e 15 0))
  assocGet pos (listed ++ pooled)

/-! Values -/

/-- The code value of an element, before row scale and block shift (R48 to R53); an integer format's element is its integer. -/
def codeValue (fmt code : Nat) : Ext :=
  match fmt with
  | 2 => .ofInt (signed 4 code)
  | 9 | 11 => .ofInt (max (-(2 ^ 31 - 1)) (signed 32 code))
  | 10 => .ofInt (max (-(2 ^ 23 - 1)) (signed 24 code))
  | f => match floatOf f with
    | some ff => decodeFloat ff code
    | none => .fin false 0 0

/-- The value of an element under a row scale and a block shift (R65). -/
def scaledValue (fmt code scale shift : Nat) : Ext :=
  let (ms, qs) := scaleParts scale
  (mulExt (codeValue fmt code) (.fin false ms qs)).scale (-(shift : Int))

/-- fmax of a format (R120), as an exact value; KT2 1, KF3 4, KI4 7, KF4 6, else the largest finite value. -/
def fmaxOf (fmt : Nat) : Nat × Int :=
  match fmt with
  | 2 => (7, 0)
  | f => match floatOf f with
    | some ff => magOf ff ff.maxCode
    | none => (1, 0)

/-- Encoding of y into a format (R70): a float code, or KI4's four bits. -/
def encodeElem (fmt : Nat) (r : Rnd) (y : Ext) : Enc :=
  match floatOf fmt with
  | some ff => encodeFloat ff r y
  | none =>
    let e := encodeInt r 7 8 y
    { code := unsigned 4 e.val, sat := e.sat, nonfin := e.nonfin, vanish := e.vanish, zero := e.zero }

/-- Step 1 of R66: y of x under a row scale and a block shift. A quotient or product beyond the KF32 maximum is that maximum, by R70; R66 does not say (DESIGN
CHOICE, log 92). -/
def scaleDown (x : Ext) (scale shift : Nat) : Ext :=
  f32 (asF32 (mulExt x (f32 (asF32 (divExt (.fin false 1 shift) (decodeFloat kf16 scale))))))

/-- Does a finite magnitude exceed Qc times a row scale (R120, R122)? -/
def aboveQc (fmt scale m : Nat) (e : Int) : Bool :=
  let (fm, fe) := fmaxOf fmt
  let (ms, qs) := scaleParts scale
  ltMag (fm * 255 * ms) (fe + qs) (m * 256) e

/-- The code of the largest positive code value of a format, or of its negative (R120, R122). -/
def fmaxCode (fmt : Nat) (neg : Bool) : Nat :=
  match floatOf fmt with
  | some ff => signCode ff neg ff.maxCode
  | none => unsigned 4 (if neg then -7 else 7)

/-- The smallest normal KF16 code at or above m * 2^e for a positive m / d (R120, R122), and whether it was limited. -/
def ruKf16 (m : Nat) (e : Int) (d : Nat) : Nat × Bool :=
  let k := 64 + Nat.log2 d
  let q := (m <<< k) / d
  let sticky := (m <<< k) % d != 0
  let ex := e - k
  let l := floorLog2 q ex
  if l < -126 then (0x0080, true)
  else
    let u := l - 7
    let sh := u - ex
    let n := if 0 ≤ sh then q >>> sh.toNat else q <<< (-sh).toNat
    let rem := sticky || (0 ≤ sh && q % 2 ^ sh.toNat != 0)
    let c := ((l + 126).toNat) <<< 7
    let code := c + n + b2n rem
    if 0x7F7F < code || 127 < l then (0x7F7F, true) else (code, false)

/-- The row scale of a segment (R120, R122): m as an exact magnitude, OUT_HEADROOM, the format. fmax * 255/256 divides m * 2^headroom. -/
def rowScale (fmt : Nat) (headroom : Nat) (m : Nat) (e : Int) : Nat × Bool :=
  if m = 0 then (0x3F80, false)
  else
    let (fm, fe) := fmaxOf fmt
    ruKf16 m (e + headroom + 8 - fe) (fm * 255)

/-- The block shift (R121): the largest h from 0 to 15 with bm * 2^h at most m. -/
def blockShift (m : Nat) (e : Int) (bm : Nat) (be : Int) : Nat :=
  if bm = 0 then 0
  else (List.range 16).foldl (fun (h i : Nat) => if !ltMag m e bm (be + (i : Int)) then i else h) 0

/-- The larger of two exact magnitudes. -/
def maxMag (a b : Nat × Int) : Nat × Int := if ltMag a.1 a.2 b.1 b.2 then b else a

/-! Counts (R223, R71) -/

/-- The counts of one conversion into a format slot of a tag (R70, R71, R223). -/
def countEnc (tag slot : Nat) (e : Enc) : Counts :=
  [((tag, slot, .elements), 1)] ++ (if e.zero then [((tag, slot, TallyCtr.zeros), 1)] else []) ++ (if e.sat then [((tag, slot, TallyCtr.sat), 1)] else [])
    ++ (if e.nonfin then [((tag, slot, TallyCtr.nonfin), 1)] else []) ++ (if e.vanish then [((tag, slot, TallyCtr.vanish), 1)] else [])

/-- One draw under a stream (R526): a conversion under SR of a finite value. -/
def countDraw (sr : Bool) (stream : Nat) (finite : Bool) : Counts := if sr && finite then [((stream, 0, TallyCtr.draws), 1)] else []

/-- k added to one count of an attempt. -/
def addCount (c : Counts) (key : Nat × Nat × TallyCtr) (k : Nat) : Counts :=
  if k = 0 then c else assocSet key ((assocGet key c).getD 0 + k) c

/-- Counts added together, each stopping at 2^64 - 1 (R225). -/
def mergeCounts (c d : Counts) : Counts := d.foldl (fun c (k, n) => assocSet k (addSat ((assocGet k c).getD 0) n) c) c

/-- The counts of an attempt enter the live tally (R224). -/
def TallyBank.release (t : TallyBank) (c : Counts) : TallyBank := { t with counts := mergeCounts t.counts c }

/-- The max-abs of no value: a NaN, which every value but a NaN replaces (R80, R81). -/
def noMax : F32 := 0x7FC00000#32

/-- A magnitude folded into a tag's max-abs (R80, R81, R118). -/
def TallyBank.foldMax (t : TallyBank) (tag : Nat) (v : F32) : TallyBank :=
  { t with maxAbs := assocSet tag (f32Max ((assocGet tag t.maxAbs).getD noMax) (f32Abs v)) t.maxAbs }

/-- A layer counter up by k, stopping at 2^32 - 1 (R229); LAYER 0xFFFF has no record (R233). -/
def TallyBank.layerUp (t : TallyBank) (layer : Nat) (c : LayerCtr) (k : Nat) : TallyBank :=
  if layer == 0xFFFF then t else { t with layers := assocSet (layer, c) (addSatW 32 ((assocGet (layer, c) t.layers).getD 0) k) t.layers }

end Sys2Proof.Machine
end

