-- ==== Sys2Proof/Machine/Pages.lean ====
section
/-! DEFINITION. The tiers: the page map, tile headers (R269 to R285), writes that a migration, the bear or an uncommitted reader holds back (R277,
R475, R512), migration and frames (R277, R292), and the completion of operations (R182). -/
namespace Sys2Proof.Machine

/-- Is the address in parcel space (R265). -/
def inParcel (a : Nat) : Bool := a < 2 ^ 51
/-- The page of an address (R269). -/
def pageOf (a : Nat) : Nat := a / 65536
/-- The page-map entry of a page. -/
def Block.page (b : Block) (p : Nat) : Option Page := b.tiers.pages.find? (fun e => e.page == p)
/-- A page-map entry changed. -/
def Block.onPage (b : Block) (p : Nat) (f : Page → Page) : Block :=
  { b with tiers := { b.tiers with pages := b.tiers.pages.map (fun e => if e.page == p then f e else e) } }
/-- The parcel that holds an address (R272). -/
def Block.parcelAt (b : Block) (a : Nat) : Option Parcel := b.tiers.parcels.find? (fun p => decide (p.base ≤ a) && decide (a < p.base + 65536 * p.pages))
/-- The parcel of an identifier. -/
def Block.parcel (b : Block) (id : Nat) : Option Parcel := b.tiers.parcels.find? (fun p => p.id == id)
/-- A counter of SNAP or a field of the snapshot descriptor raised by one, in w bits (R503). -/
def Block.snapUp (b : Block) (hi lo : Nat) : Block :=
  { b with desc := { b.desc with snap := setFld b.desc.snap hi lo (addSatW (hi + 1 - lo) (fld b.desc.snap hi lo) 1) } }

/-! The tile codec -/

/-- Which elements a tile holds, for EXP_DELTA: format code (KF16 or KF32) and their number; none otherwise (R283). -/
abbrev TileElems := Option (Nat × Nat)

/-- The element kind of a tensor's data tiles (R283). -/
def elemsOf (t : Tensor) : TileElems :=
  if t.format == 7 then some (7, if t.scaled then 15872 else 16384) else if t.format == 8 then some (8, 8192) else none

/-- Exponent fields of a tile's elements. -/
def exponentFields (kind n : Nat) (bytes : List Byte) : List Nat :=
  (unpackCodes (if kind == 7 then 16 else 32) n (leNat bytes)).map (fun c => if kind == 7 then c / 128 % 256 else c / 2 ^ 23 % 256)

/-- Bits needed for a difference (R284). -/
def deltaWidth (d : Nat) : Nat := if d = 0 then 0 else Nat.log2 d + 1

/-- Units of 4 bytes that are not zero (R283). -/
def nonzeroUnits : Nat → List Byte → Nat
  | 0, _ => 0
  | k + 1, bs => (if (bs.take 4).all (· == 0) then 0 else 1) + nonzeroUnits k (bs.drop 4)

/-- The header of a tile written in a tier (R282 to R284): tier 1 larder, 2 cellar, 3 host. -/
def tileHeader (tier : Nat) (codec : Bool) (kind : TileElems) (bytes : List Byte) : BitVec 64 :=
  let zero := bytes.all (· == 0)
  let head (len w par cdc : Nat) : BitVec 64 :=
    setFld (setFld (setFld (setFld (setFld (0 : BitVec 64) 63 32 (if cdc == 0 then 0 else (crc32c bytes).toNat)) 31 24 par) 23 20 w) 19 10 len) 1 0 cdc
  if zero && !(tier == 3 && !codec) then head 0 0 0 0
  else if tier == 1 || !codec then head 512 0 0 1
  else
    let bitmap := ceilDiv (1024 + 4 * nonzeroUnits 8192 bytes) 64
    let delta : Option (Nat × Nat × Nat) :=
      match kind with
      | none => none
      | some (k, n) =>
        let es := exponentFields k n bytes
        let lo := es.foldl Nat.min 255
        let w := deltaWidth (es.foldl Nat.max 0 - lo)
        if 7 < w then none
        else
          let part := n * (if k == 7 then 1 else 3) + ceilDiv (n * w) 8 + (32768 - n * (if k == 7 then 2 else 4))
          some (ceilDiv part 64, w, lo)
    let best := if bitmap < 512 then bitmap else 512
    match delta with
    | some (len, w, lo) => if len < best then head len w lo 3 else if bitmap < 512 then head bitmap 0 0 2 else head 512 0 0 1
    | none => if bitmap < 512 then head bitmap 0 0 2 else head 512 0 0 1

/-- Codes of one width packed most significant bit first (R283), in whole bytes. -/
def packMsb (bits : Nat) (codes : List Nat) : List Byte :=
  let n := ceilDiv (bits * codes.length) 8
  (leBytes n ((codes.foldl (fun v c => v * 2 ^ bits + c % 2 ^ bits) 0) * 2 ^ (8 * n - bits * codes.length))).reverse

/-- n codes of one width from bytes packed most significant bit first (R283). -/
def unpackMsb (bits n : Nat) (bs : List Byte) : List Nat :=
  let v := leNat bs.reverse / 2 ^ (8 * bs.length - bits * n)
  (List.range n).map (fun j => v / 2 ^ (bits * (n - 1 - j)) % 2 ^ bits)

/-- The exponent field and the rest, sign above significand, of a KF16 or KF32 code (R283). -/
def splitExp (kind c : Nat) : Nat × Nat := if kind == 7 then (c / 128 % 256, c / 32768 * 128 + c % 128) else (c / 2 ^ 23 % 256, c / 2 ^ 31 * 2 ^ 23 + c % 2 ^ 23)
/-- The code of an exponent field and the rest. -/
def joinExp (kind e r : Nat) : Nat := if kind == 7 then r / 128 * 32768 + e * 128 + r % 128 else r / 2 ^ 23 * 2 ^ 31 + e * 2 ^ 23 + r % 2 ^ 23

/-- A tile's stored bytes under its header (R283), padded to 64 bytes. All of EXP_DELTA is packed most significant bit first (DESIGN CHOICE, log 96). -/
def storedTile (h : BitVec 64) (kind : TileElems) (bytes : List Byte) : List Byte :=
  match fld h 1 0 with
  | 0 => []
  | 1 => bytes
  | 2 =>
    let units := (List.range 8192).map (fun k => slice bytes (4 * k) 4)
    let on := units.map (fun u => !(u.all (· == 0)))
    let bitmap := leBytes 1024 ((List.range 8192).foldl (fun n k => if on.getD k false then n + 2 ^ k else n) 0)
    let data := (units.filter (fun u => !(u.all (· == 0)))).flatten
    slice (bitmap ++ data) 0 (64 * fld h 19 10)
  | _ =>
    match kind with
    | none => bytes
    | some (k, n) =>
      let w := if k == 7 then 2 else 4
      let es := ((List.range n).map (fun j => leAt bytes (w * j) w)).map (splitExp k)
      slice (packMsb (8 * (w - 1)) (es.map (·.2)) ++ packMsb (fld h 23 20) (es.map (fun e => e.1 - fld h 31 24)) ++ bytes.drop (w * n)) 0
        (64 * fld h 19 10)

/-- The 32,768 bytes of a stored tile (R283). -/
def decodeTile (h : BitVec 64) (kind : TileElems) (bs : List Byte) : List Byte :=
  match fld h 1 0 with
  | 0 => List.replicate 32768 0
  | 1 => slice bs 0 32768
  | 2 =>
    let bits := leAt bs 0 1024
    let rec go : Nat → Nat → List Byte → List Byte
      | 0, _, _ => []
      | k + 1, u, data => if bits / 2 ^ u % 2 == 1 then slice data 0 4 ++ go k (u + 1) (data.drop 4) else 0 :: 0 :: 0 :: 0 :: go k (u + 1) data
    go 8192 0 (bs.drop 1024)
  | _ =>
    match kind with
    | none => slice bs 0 32768
    | some (k, n) =>
      let w := if k == 7 then 1 else 3
      let dn := ceilDiv (n * fld h 23 20) 8
      let rest := unpackMsb (8 * w) n (slice bs 0 (w * n))
      let deltas := unpackMsb (fld h 23 20) n (slice bs (w * n) dn)
      slice (((rest.zip deltas).map (fun (r, d) => leBytes (w + 1) (joinExp k (fld h 31 24 + d) r))).flatten ++ bs.drop (w * n + dn)) 0 32768

/-- The header of one tile is formed anew after a write to it. Host memory holds the stored bytes of a host-tier tile (R283, R284, R294). -/
def State.refreshTile (s : State) (tile : Nat) (kind : TileElems) : State :=
  match s.m.page (tile / 2) with
  | none => s
  | some p =>
    let codec := match s.m.parcel p.parcel with
      | some q => q.codec
      | none => false
    let bytes := s.mem.parcel.readBytes (32768 * tile) 32768
    let h := tileHeader p.tier codec kind bytes
    let s := if p.tier == 3 then s.writeHost (s.m.hostAddr (65536 * p.frame + 32768 * (tile % 2))) (storedTile h kind bytes) else s
    s.on (fun b => b.onPage (tile / 2) (fun p => if tile % 2 == 0 then { p with head0 := h } else { p with head1 := h }))

/-! Completion of operations -/

/-- The guard descriptor's reset value (R230). -/
def guardReset : BitVec 64 := 0x40803E8000004080#64

/-- The guard descriptor of a layer (R230, R233). -/
def Block.guard (b : Block) (layer : Nat) : BitVec 64 := if layer == 0xFFFF then guardReset else (b.desc.guard[layer]?).getD guardReset
/-- Is the layer under RESCALE_REPLAY (R230). -/
def Block.spans (b : Block) (layer : Nat) : Bool := fld (b.guard layer) 5 4 == 1

/-- Does an operation belong to a span: one of a layer under RESCALE_REPLAY (R253); a MOVE names no layer (R296). -/
def Block.inSpan (b : Block) (op : BitVec 512) : Bool := opCode op != 0x10 && b.spans (opLayer op)

/-- The operation record of a croft's stream (R174, R444). -/
def Block.op (b : Block) (croft i : Nat) : BitVec 512 :=
  match b.job.almanac with
  | some a => ((a.streams[croft]?.getD [])[i]?).getD 0
  | none => 0

/-- A SIGNAL token is set (R182): local, or shared; a shared one is held back in an open span or during an excursion of the croft's die (R254, R538). -/
def Block.setToken (b : Block) (croft tok : Nat) (hold : Bool) : Block :=
  if tok == 0xFFFF then b
  else if tok < 0x1000 then b.onCroft croft (fun c => { c with tokens := insertNew tok c.tokens })
  else if hold then { b with tokens := { b.tokens with spanHeld := insertNew (croft, tok) b.tokens.spanHeld } }
  else if (b.die (dieOf croft)).hold.isSome then { b with tokens := { b.tokens with held := insertNew (croft, tok) b.tokens.held } }
  else { b with tokens := { b.tokens with shared := insertNew tok b.tokens.shared } }

/-! Layers and cache tensors -/

/-- The layer descriptor of an index (R204). -/
def Block.layer (b : Block) (l : Nat) : BitVec 512 := (b.desc.layer[l]?).getD 0
/-- E_L (R204). -/
def layerExp (d : BitVec 512) : Int := signed 10 (fld d 67 58)
/-- E_GEN of a generation (R204). -/
def layerGenExp (d : BitVec 512) (g : Nat) : Int := signed 10 (if g == 0 then fld d 77 68 else fld d 87 78)
/-- A tensor at a generation of a layer's master and moment tensors (R205). -/
def atGen (d : BitVec 512) (g : Nat) (t : Tensor) : Tensor := { t with address := t.address + g * fld d 143 108 * 65536 }
/-- The element kind of the tile at an address: that of a tensor of the loaded almanac whose data stream covers it, in either generation of the master and moment
tensors of a layer (R205, R284). -/
def Block.elemsAt (b : Block) (a : Nat) : TileElems :=
  match b.job.almanac with
  | some al =>
    let covers (t : Tensor) : Bool := !t.inStore && decide (t.address ≤ a) && decide (a < t.address + 32768 * t.dataTiles)
    let second (_ : Unit) : Option Tensor := (b.desc.layer.map (fun d =>
      ([fld d 159 144, fld d 175 160, fld d 191 176].filterMap b.tensor).map (atGen d 1))).flatten.find? covers
    match ((al.tensors.map tensorOf).find? covers).orElse second with
    | some t => elemsOf t
    | none => none
  | none => none

/-- Generation that the step reads (R205). -/
def Block.readGen (b : Block) : Nat := b.job.step % 2
/-- Generation that the step writes (R205). -/
def Block.writeGen (b : Block) : Nat := (b.job.step + 1) % 2

/-- Is the tensor a cache tensor (R395): its ADDRESS is the POOL_BASE of a valid cache descriptor, unscaled, in the store's format. -/
def Block.isCache (b : Block) (t : Tensor) : Bool :=
  flag b.desc.cache 200 && !t.inStore && t.address == fld b.desc.cache 511 460 && !t.scaled && t.format == (if flag b.desc.cache 202 then 3 else 5)
/-- Does an index name a cache tensor. -/
def Block.namesCache (b : Block) (i : Nat) : Bool := match b.tensor i with
  | some t => b.isCache t
  | none => false

/-! The cache's descriptor, pages and staging (R395, R404 to R411) -/

/-- Fields of the cache descriptor (R409). -/
structure CacheDesc where
  pool : Nat
  stage : Nat
  seqTable : Nat
  pageTable : Nat
  units : Nat
  unitFrames : Nat
  slots : Nat
  maxTokens : Nat
  appendMax : Nat
  layers : Nat
  heads : Nat
  k : Nat
  kf4 : Bool
  sr : Bool
  valid : Bool
deriving DecidableEq, Repr

/-- The cache descriptor decoded (R409). -/
def cacheDesc (v : BitVec 512) : CacheDesc :=
  { pool := fld v 511 460, stage := fld v 459 408, seqTable := fld v 407 356, pageTable := fld v 355 304, units := fld v 303 280,
    unitFrames := fld v 279 268, slots := fld v 267 256, maxTokens := fld v 255 236, appendMax := fld v 235 222, layers := fld v 221 214,
    heads := fld v 213 206, k := fld v 205 203, kf4 := flag v 202, sr := flag v 201, valid := flag v 200 }

/-- Channels of a cached row (R395). -/
def CacheDesc.chans (c : CacheDesc) : Nat := 128 * c.heads
/-- ROW_BYTES (R405). -/
def CacheDesc.rowBytes (c : CacheDesc) : Nat := if c.kf4 then c.chans / 2 + c.chans / 16 else c.chans + c.chans / 32
/-- TOKEN_BYTES (R405). -/
def CacheDesc.tokenBytes (c : CacheDesc) : Nat := 2 * c.layers * c.rowBytes
/-- Positions of page i (R404). -/
def CacheDesc.pageSize (c : CacheDesc) (i : Nat) : Nat := 16 * 2 ^ Nat.min i c.k
/-- STAGE_FRAMES (R407). -/
def CacheDesc.stageFrames (c : CacheDesc) : Nat := ceilDiv (16 * 2 ^ c.k * c.tokenBytes) 65536

/-- Page and offset of a position (R404). -/
def CacheDesc.pageOf (c : CacheDesc) (x : Nat) : Nat × Nat :=
  let cap := 16 * (2 ^ (c.k + 1) - 1)
  if x < cap then
    let i := Nat.log2 (x / 16 + 1)
    (i, x - 16 * (2 ^ i - 1))
  else
    let r := x - cap
    (c.k + 1 + r / (16 * 2 ^ c.k), r % (16 * 2 ^ c.k))

/-- PT_ENTRIES (R406). -/
def CacheDesc.ptEntries (c : CacheDesc) : Nat := (c.pageOf (c.maxTokens - 1)).1 + 1
/-- Address of a page-table entry (R406). -/
def CacheDesc.ptAddr (c : CacheDesc) (slot page : Nat) : Nat := c.pageTable + 4 * (slot * c.ptEntries + page)

/-- The cache descriptor in force. -/
def Block.cacheD (b : Block) : CacheDesc := cacheDesc b.desc.cache

/-- Sequence entries (R411). -/
def seqTokens (e : BitVec 128) : Nat := fld e 127 96
def seqAppend (e : BitVec 128) : Nat := fld e 95 80
def seqState (e : BitVec 128) : Nat := fld e 43 40
/-- A sequence entry at its Reset column (R411). -/
def seqReset : BitVec 128 := setFld (setFld (0 : BitVec 128) 95 80 1) 79 72 0x80
/-- The entry of a slot. -/
def Block.seq (b : Block) (slot : Nat) : BitVec 128 := (assocGet slot b.desc.seqs).getD seqReset

/-- Does a write for a position wait (R408): the page before its own is still to be flushed from the staging region that both lie in? -/
def Block.stageBusy (b : Block) (slot x : Nat) : Bool :=
  let pg := (b.cacheD.pageOf x).1
  pg != 0 && !b.cache.flushed.contains (slot, pg) && !b.cache.flushed.contains (slot, pg - 1)

/-- Bytes of parcel space as a unit of the module that waits for its own writes reads them: those that are held stand (R277, R512). -/
def State.ownBytes (s : State) (a n : Nat) : List Byte :=
  s.m.tiers.heldWrites.foldl (fun bs w =>
    if a + n ≤ w.address || w.address + w.bytes.length ≤ a then bs
    else ((List.range n).zip bs).map (fun (i, x) => if w.address ≤ a + i then w.bytes.getD (a + i - w.address) x else x)) (s.mem.parcel.readBytes a n)
/-- A number read so. -/
def State.ownNat (s : State) (a n : Nat) : Nat := leNat (s.ownBytes a n)

/-- Address of a position's row of a layer and kind in its page or in staging (R405 to R408): staging until the page's flush completes. -/
def State.cacheRow (s : State) (slot x lk : Nat) : Nat :=
  let c := s.m.cacheD
  let (i, u) := c.pageOf x
  let off := (lk * c.pageSize i + u) * c.rowBytes
  if s.m.cache.flushed.contains (slot, i) then c.pool + s.ownNat (c.ptAddr slot i) 4 * c.unitFrames * 65536 + off
  else c.stage + slot * c.stageFrames * 65536 + off

/-- Where a flush of a slot's page reads in staging and writes in the pool (R408). -/
def State.flushRanges (s : State) (slot pg : Nat) : (Bool × Nat × Nat) × (Bool × Nat × Nat) :=
  let c := s.m.cacheD
  let n := 2 * c.layers * c.pageSize pg * c.rowBytes
  ((false, c.stage + slot * c.stageFrames * 65536, n), (false, c.pool + s.ownNat (c.ptAddr slot pg) 4 * c.unitFrames * 65536, n))

/-- Elements of a run's row: the row length of SHAPE, cut at the output's last column; a cache output's row has C channels (R166, R395). -/
def Block.rowLen (b : Block) (op : BitVec 512) : Nat :=
  let k := 32 * opBlocks op
  match b.tensor (opOut op).tensor with
  | some t => if b.isCache t then Nat.min k b.cacheD.chans else Nat.min k (t.cols - (opOut op).col)
  | none => k

/-- Slot, append index and head of row r of a run that names a cache tensor (R395). -/
def Block.cacheRowOf (b : Block) (op : BitVec 512) (r : Nat) : Nat × Nat × Nat :=
  let c := b.cacheD
  let g := if b.namesCache (opOut op).tensor then 1 else Nat.max c.heads 1
  (r / (Nat.max c.appendMax 1 * g), r / g % Nat.max c.appendMax 1, r % g)

/-- Does a run name a cache tensor. -/
def Block.usesCache (b : Block) (op : BitVec 512) : Bool :=
  [(opA op).tensor, (opB op).tensor, (opOut op).tensor].any b.namesCache

/-- Is the row that operand row r of a run over the cache belongs to active (R395). -/
def Block.cacheActive (b : Block) (op : BitVec 512) (r : Nat) : Bool :=
  let (slot, a, _) := b.cacheRowOf op r
  slot < b.cacheD.slots && seqState (b.seq slot) == 1 && a < seqAppend (b.seq slot)

/-- Is row j of an operand block active: each operand's row belongs to a position of its own (R395). -/
def Block.refActive (b : Block) (op : BitVec 512) (r : BlockRef) (j : Nat) : Bool := !b.usesCache op || b.cacheActive op (r.row + j)

/-- The row of the run itself, by its first reference that is no cache tensor: it is the run's lanes that are active or not by it, where an instruction names no
operand (R166, R395; log 22). -/
def Block.runRow (b : Block) (op : BitVec 512) (j : Nat) : Nat :=
  match [opA op, opB op, opOut op].find? (fun r => (b.tensor r.tensor).isSome && !b.namesCache r.tensor) with
  | some r => r.row + j
  | none => j

/-- Is the run's row active (R395). -/
def Block.rowActive (b : Block) (op : BitVec 512) (j : Nat) : Bool := !b.usesCache op || b.cacheActive op (b.runRow op j)

/-- Is the LANE_RUN an update run (R206). -/
def Block.isUpdate (b : Block) (op : BitVec 512) : Bool :=
  opCode op == 8 && (match b.tensor (opOut op).tensor with
    | some t => t.format == 11
    | none => false)

/-- The block an input slot is read at (R615). -/
def Block.slotRef (b : Block) (op : BitVec 512) (n : Nat) : BlockRef :=
  match n with
  | 0 => opA op
  | 1 => opB op
  | _ =>
    let usable (r : BlockRef) : Bool := (b.tensor r.tensor).isSome && !b.namesCache r.tensor
    if usable (opB op) then { opB op with tensor := opAux op }
    else if usable (opA op) then { opA op with tensor := opAux op }
    else { tensor := opAux op, row := 0, col := 0 }

/-- The attention of a run (R396): an input slot that names the values of a layer, 2L + 1, while the other names its keys, 2L, and the query comes in input slot 2. The
spec says that attention follows R396 and not which LOAD gives its result: the value slot does (DESIGN CHOICE, log 22). -/
def Block.attends (b : Block) (op : BitVec 512) (n : Nat) : Option (BlockRef × BlockRef) :=
  let v := if n == 0 then opA op else opB op
  let k := if n == 0 then opB op else opA op
  if n < 2 && b.namesCache v.tensor && b.namesCache k.tensor && v.row == k.row + 1 && k.row % 2 == 0 && (b.tensor (opAux op)).isSome
      && !b.namesCache (opOut op).tensor then some (k, v) else none

/-- The row number by which row j of a run reads cached rows: that of an attention's query, else the run's own (R395, R396). -/
def Block.cachedRow (b : Block) (op : BitVec 512) (j : Nat) : Nat :=
  if (b.attends op 0).isSome || (b.attends op 1).isSome then (b.slotRef op 2).row + j else b.runRow op j

/-- Is row j of an input slot active (R395). -/
def Block.slotActive (b : Block) (op : BitVec 512) (n j : Nat) : Bool :=
  let r := b.slotRef op n
  if (b.tensor r.tensor).isSome && !b.namesCache r.tensor then b.refActive op r j
  else !b.usesCache op || b.cacheActive op (b.cachedRow op j)

/-- The tensor of an input slot; moments are read at the read generation in an update run (R205). -/
def Block.slotTensor (b : Block) (op : BitVec 512) (n : Nat) : Tensor :=
  let t := (b.tensor (b.slotRef op n).tensor).getD {}
  if b.isUpdate op && n != 0 then atGen (b.layer (opLayer op)) b.readGen t else t

/-- The companion entry of a tensor and kind: 1 COPY, 2 PATCH (R244). -/
def Block.companion (b : Block) (tensor kind : Nat) : Option (BitVec 128) :=
  match b.job.almanac with
  | some a => a.companions.find? (fun c => fld c 15 0 == tensor && fld c 65 64 == kind)
  | none => none

/-- The tensor of an index at the write generation, for the master and moment tensors of an update run (R205). -/
def Block.genTensor (b : Block) (op : BitVec 512) (i : Nat) : Option Tensor := (b.tensor i).map (atGen (b.layer (opLayer op)) b.writeGen)

/-- An operation has passed its checks and written its output: its journal entry is DONE and its SIGNAL token set (R182, R470), unless one of its
writes still waits. -/
def Block.completeOp (b : Block) (croft i : Nat) : Block :=
  if b.tiers.heldWrites.any (fun w => w.owner == some (croft, i)) || (b.croft croft).moves.any (fun m => m.index == i) then b
  else
    let op := b.op croft i
    let b := { b with tiers := { b.tiers with reads := b.tiers.reads.filter (fun r => !(r.croft == croft && r.index == i)) } }
    (b.onCroft croft (fun c => { c with journal := c.journal.map (fun e => if e.index == i && e.state == .issued then { e with state := .done } else e) })).setToken
      croft (opSignal op) (b.inSpan op)

/-! Ranges that operations read and write -/

/-- A range: in the croft store or the device range, address, bytes. -/
abbrev Range := Bool × Nat × Nat

/-- The bytes of rows and columns of a tensor's block, with its scale and side records (R278 to R280). -/
def blockRanges (t : Tensor) (row rows col cols : Nat) : List Range :=
  if t.sliced then
    ((List.range rows).map (fun r => (List.range (ceilDiv (col % 256 + cols) 256)).map (fun g =>
      (t.inStore, t.sliceAddr (row + r) (col / 256 + g), (sliceSize t.format).2)))).flatten
  else
    ((List.range rows).map (fun r =>
      ((List.range (ceilDiv (col % 128 + cols) 128)).map (fun g =>
        let k := t.seg (row + r) (col / 128 + g)
        [(t.inStore, t.segAddr k, segBytes t.format)]
          ++ (if t.scaled then [(t.inStore, t.tagAddr k, 1), (t.inStore, t.scaleAddr k, 5)] else [])
          ++ (if t.magpie then [(t.inStore, t.sideAddr k, 16)] else []))).flatten)).flatten

/-- Do two ranges meet. -/
def meets (a b : Range) : Bool := a.1 == b.1 && a.2.1 < b.2.1 + b.2.2 && b.2.1 < a.2.1 + a.2.2

/-- Ranges of a referenced block; none for index 0xFFFF. -/
def Block.refRanges (b : Block) (r : BlockRef) (rows cols : Nat) : List Range :=
  match b.tensor r.tensor with
  | some t => blockRanges t r.row rows r.col cols
  | none => []

/-- Ranges of a block with those of its companion of a kind (R246, R249). -/
def Block.withCompanion (b : Block) (r : BlockRef) (kind rows cols : Nat) : List Range :=
  b.refRanges r rows cols ++ (match b.companion r.tensor kind with
    | some c => b.refRanges { r with tensor := fld c 31 16 } rows cols
    | none => [])

/-- Is the opcode an array product (R178). -/
def isArray (op : BitVec 512) : Bool := opCode op == 1 || opCode op == 2 || opCode op == 3

/-- A MOVE's side (R296): croft store or device range, address. -/
def moveSide (op : BitVec 512) (n : Nat) : Bool × Nat := (flag op (32 * n + 63), fld op (32 * n + 51) (32 * n))
/-- Tiles of a MOVE (R296). -/
def moveTiles (op : BitVec 512) : Nat := fld op 111 96 + 1
/-- KIND of a MOVE (R297). -/
def moveKind (op : BitVec 512) : Nat := fld op 35 32
/-- TIER of a MOVE (R297). -/
def moveTier (op : BitVec 512) : Nat := fld op 43 40

/-- Rows and columns of the stored block of operand A or B of an array operation (R158). -/
def operandSize (op : BitVec 512) (isA : Bool) : Nat × Nat :=
  let k := 32 * opBlocks op
  let n := if isA then opRows op else opCols op
  if opFlag op (if isA then 0 else 1) then (k, n) else (n, k)

/-- What an array operation reads of operand A or B: the tensor, and the companions that a repeat or a cascade reads instead (R246, R251). -/
def Block.operandReads (b : Block) (op : BitVec 512) (isA : Bool) : List Range :=
  let (rows, cols) := operandSize op isA
  let r := if isA then opA op else opB op
  b.withCompanion r 1 rows cols ++ (match b.companion r.tensor 2 with
    | some c => b.refRanges { r with tensor := fld c 31 16 } rows cols
    | none => [])

/-- What a LANE_RUN reads of input slot n (R615), but of the cache, whose rows the engine gives (R395); in an update run the moments at the read generation, and with slot 0 the master weights (R205, R209). -/
def Block.slotReads (b : Block) (op : BitVec 512) (n : Nat) : List Range :=
  let k := 32 * opBlocks op
  let r := b.slotRef op n
  if b.isUpdate op then
    let at_ (r : BlockRef) : List Range := match b.tensor r.tensor with
      | some t => blockRanges (atGen (b.layer (opLayer op)) b.readGen t) r.row (opRows op) r.col k
      | none => []
    if n == 0 then b.refRanges r (opRows op) k ++ at_ (opOut op) else at_ r
  else if b.namesCache r.tensor then []
  else b.refRanges r (opRows op) k

/-- What an operation reads (R475, R180). -/
def Block.opReads (b : Block) (op : BitVec 512) : List Range :=
  let k := 32 * opBlocks op
  if isArray op then
    b.operandReads op true ++ b.operandReads op false
      ++ (if opFlag op 7 then [] else
          let d := drainCtrl (opDrain op)
          if d.bias || d.clip || d.mulMode != 0 then
            b.refRanges { tensor := opAux op, row := 0, col := (opOut op).col } 2 (opCols op)
              ++ (if d.clip then b.refRanges { tensor := opAux op, row := 2, col := 0 } 1 2 else [])
          else [])
  else if opCode op == 8 then b.slotReads op 0 ++ b.slotReads op 1 ++ b.slotReads op 2
  else if opCode op == 0x0C || opCode op == 0x0D then b.refRanges (opA op) (opRows op) k
  else if opCode op == 0x10 && moveKind op != 1 then let (l, a) := moveSide op 4; [(l, a, 32768 * moveTiles op)]
  else []

/-- What a MOVE reads, the pages of a MIGRATE among them. -/
def moveReads (op : BitVec 512) : List Range := let (l, a) := moveSide op 4; [(l, a, 32768 * moveTiles op)]

/-- The last position that a run's row over the cache reads: that of its token (R395). -/
def Block.rowPosition (b : Block) (slot a : Nat) : Nat := seqTokens (b.seq slot) - seqAppend (b.seq slot) + a

/-- The cached rows that a LANE_RUN reads, where they lie now: of every position up to the row's own, or of that one alone where the output is cached (R395, R405
to R408). -/
def State.cacheReads (s : State) (op : BitVec 512) : List Range :=
  let b := s.m
  if opCode op != 8 then []
  else
    let refs := [opA op, opB op].filter (fun r => b.namesCache r.tensor)
    if refs.isEmpty then []
    else (((List.range (opRows op)).filter (fun j => b.cacheActive op (b.cachedRow op j))).map (fun j =>
      let (slot, a, _) := b.cacheRowOf op (b.cachedRow op j)
      let t := b.rowPosition slot a
      let xs := if b.namesCache (opOut op).tensor then [t] else List.range (t + 1)
      (refs.map (fun r => xs.map (fun x => ((false, s.cacheRow slot x r.row, b.cacheD.rowBytes) : Range)))).flatten)).flatten

/-- What the accesses of an operation can meet: all it reads, a MIGRATE's pages and cached rows among them, and all it writes (R306). -/
def State.readsOf (s : State) (op : BitVec 512) : List Range :=
  s.m.opReads op ++ (if opCode op == 0x10 && moveKind op == 1 then moveReads op else []) ++ s.cacheReads op

/-- What an operation writes (R180, R475). -/
def Block.opWrites (b : Block) (op : BitVec 512) : List Range :=
  let k := 32 * opBlocks op
  let out := opOut op
  if isArray op then (if opFlag op 7 then [] else b.withCompanion out 2 (opRows op) (opCols op))
  else if b.isUpdate op then
    let ld := b.layer (opLayer op)
    let ranges (t : Option Tensor) : List Range := match t with
      | some t => blockRanges t out.row (opRows op) out.col k
      | none => []
    let patch (i : Nat) : List Range := match b.companion i 2 with
      | some c => ranges (b.tensor (fld c 31 16))
      | none => []
    ranges (b.genTensor op out.tensor) ++ ranges (b.genTensor op (fld ld 175 160)) ++ ranges (b.genTensor op (fld ld 191 176))
      ++ ranges (b.tensor (fld ld 207 192)) ++ ranges (b.tensor (fld ld 223 208))
      ++ patch (fld ld 175 160) ++ patch (fld ld 191 176) ++ patch (fld ld 207 192) ++ patch (fld ld 223 208)
  else if opCode op == 8 then (if b.namesCache out.tensor then [] else b.withCompanion out 2 (opRows op) k)
  else if opCode op == 0x0C || opCode op == 0x0D then b.refRanges out (opRows op) k
  else if opCode op == 0x10 && moveKind op != 1 then let (l, a) := moveSide op 6; [(l, a, 32768 * moveTiles op)]
  else []

/-- Where a LANE_RUN with a cache output writes: the rows of its active sequences (R395, R408). -/
def State.cacheWrites (s : State) (op : BitVec 512) : List Range :=
  let b := s.m
  if opCode op != 8 || !b.namesCache (opOut op).tensor then []
  else ((List.range (opRows op)).filter (b.rowActive op)).map (fun j =>
    let (slot, a, _) := b.cacheRowOf op (b.runRow op j)
    ((false, s.cacheRow slot (b.rowPosition slot a) (opOut op).row, b.cacheD.rowBytes) : Range))

/-- What an operation writes, cached rows among it (R306). -/
def State.writesOf (s : State) (op : BitVec 512) : List Range := s.m.opWrites op ++ s.cacheWrites op

/-! Physical places (R286, R287) -/

/-- Larder die of a larder address, and the offset within it (R286). -/
def larderPlace (a : Nat) : Nat × Nat := (a / 8192 % 4, a / 32768 * 8192 + a % 8192)
/-- Cellar channel of a cellar address, and its granule of that channel (R287). -/
def cellarPlace (a : Nat) : Nat × Nat := (a / 512 % 80, a / 512 / 80)
/-- LPDDR6 package of a cellar address (R287). -/
def cellarPackage (a : Nat) : Nat := (cellarPlace a).1 / 4
/-- Where an address in parcel space lies now: its tier, and its offset in that tier's window (R265, R269). -/
def Block.placeOf (b : Block) (a : Nat) : Option (Nat × Nat) := (b.page (pageOf a)).map (fun p => (p.tier, 65536 * p.frame + a % 65536))
/-- Does a range of parcel space have a granule on a cellar channel? -/
def Block.onChannel (b : Block) (channel a n : Nat) : Bool :=
  (List.range (ceilDiv (a % 512 + n) 512)).any (fun k => match b.placeOf (a - a % 512 + 512 * k) with
    | some (2, x) => (cellarPlace x).1 == channel
    | _ => false)
/-- Cellar channels whose accesses wait: those retraining, and those in the 400 ns of a calibration (R290). -/
def Block.waitingChannels (b : Block) : List Nat :=
  b.tiers.retraining.map (·.1) ++ (b.tiers.calibrating.filter (fun x => b.span < x.2 + 400)).map (·.1)
/-- Do accesses to some ranges wait for a cellar channel (R290)? -/
def Block.channelHeld (b : Block) (rs : List Range) : Bool :=
  b.waitingChannels.any (fun c => rs.any (fun r => !r.1 && b.onChannel c r.2.1 r.2.2))

/-! Writes to the device range -/

/-- Has an uncommitted entry of the croft read the range, other than the writer's own (R475)? -/
def State.readsRange (s : State) (c a n : Nat) (owner : Option (Nat × Nat)) : Bool :=
  (s.m.croft c).journal.any (fun e => e.state != .retained && some (c, e.index) != owner && (s.m.opReads e.op ++ s.cacheReads e.op).any (meets (false, a, n)))

/-- Does the writer only write again what an earlier attempt of its entry wrote: a replay, whose bytes are the same and change no range (R475, R476), or that of a
span, which nothing outside it has read (R254)? -/
def Block.rewrites (b : Block) (owner : Option (Nat × Nat)) : Bool :=
  match owner with
  | some (c, i) => (b.croft c).journal.any (fun e => e.index == i && e.wrote)
  | none => false

/-- Does an uncommitted reader hold a write back (R475)? -/
def State.readerHolds (s : State) (a n : Nat) (owner : Option (Nat × Nat)) : Bool :=
  !s.m.rewrites owner && (List.range s.m.crofts.length).any (fun c => s.readsRange c a n owner)

/-- The image changed. -/
def Block.onImage (b : Block) (f : Image → Image) : Block := { b with snap := { b.snap with image := b.snap.image.map f } }

/-- The bear begins to copy a page (R510): traffic on its tier (R506). -/
def Block.copyBegins (b : Block) (page : Nat) : Block :=
  (b.onPage page (fun (p : Page) => { p with bear := Bear.copying })).onImage (fun i =>
    { i with traffic := i.traffic ++ [{ tier := ((b.page page).map (·.tier)).getD 1 - 1, page := some page, since := b.now }] })

/-- Traffic of the bear, that of a page or (none) that on the fabric, ends. -/
def Block.trafficEnds (b : Block) (page : Option Nat) : Block :=
  b.onImage (fun i => { i with traffic := i.traffic.map (fun x => if x.page == page && x.till.isNone then { x with till := some b.now } else x) })

/-- The image's writes on the fabric (R519) are traffic there from the first that is not acknowledged to the last (R506; log 71). -/
def Block.fabricTraffic (b : Block) : Block :=
  if b.imageWrites.isEmpty then b.trafficEnds none
  else b.onImage (fun i => if i.traffic.any (fun x => x.page.isNone && x.till.isNone) then i else { i with traffic := i.traffic ++ [{ tier := 3, page := none, since := b.now }] })

/-- Does the page hold the write back (R277, R510, R511). -/
def pageHolds (p : Page) (post : Bool) : Bool :=
  p.migrating.isSome || (post && (p.bear == .protected_ || p.bear == .copying))

/-- A write to a page of the host tier while the link's IDE stream is insecure fails (R306, R453): class T where an operation made it, which is uncommitted, else class J. -/
def State.hostWriteFails (s : State) (owner : Option (Nat × Nat)) : State :=
  (s.on (·.bump .ioFailed)).raiseErr { cls := if owner.isSome then .t else .j, code := 0x28, at_ := 0, croft := owner.map (·.1), entry := owner.map (·.2), writer := owner, cause := 6 }

/-- A write within one page, by an operation (owner) or by another engine (R277, R281, R475, R511, R512), which waits for a cellar channel too (R290). Held writes keep their
order on a page; a write of before the barrier goes ahead of those after it. -/
def State.writePage (s : State) (a : Nat) (bs : List Byte) (owner : Option (Nat × Nat)) (post : Bool) (kind : TileElems) : State :=
  match s.m.page (pageOf a) with
  | none => s
  | some p =>
    let reader := s.readerHolds a bs.length owner
    if reader || pageHolds p post || s.m.channelHeld [(false, a, bs.length)] || s.m.tiers.heldWrites.any (fun w => pageOf w.address == pageOf a && (post || !w.postBarrier)) then
      s.on (fun b =>
        let b := if reader then b.bump .commitHolds else b
        let b := if post && p.bear == .protected_ then (b.copyBegins (pageOf a)).snapUp 79 48 else b
        { b with tiers := { b.tiers with heldWrites := b.tiers.heldWrites
                                         ++ [({ address := a, bytes := bs, since := b.now, postBarrier := post, kind := kind, owner := owner } : HeldWrite)] } })
    else if p.tier == 3 && s.m.dev.ideState == 2 then s.hostWriteFails owner
    else
      let s := s.writeParcel a bs
      let t0 := a / 32768
      let t1 := (a + bs.length - 1) / 32768
      let s := s.refreshTile t0 kind
      if t1 == t0 then s else s.refreshTile t1 kind

/-- A write to parcel space, page by page. -/
def State.devWriteFrom (s : State) (fuel a : Nat) (bs : List Byte) (owner : Option (Nat × Nat)) (post : Bool) (kind : TileElems) : State :=
  match fuel with
  | 0 => s
  | k + 1 =>
    if bs.isEmpty then s
    else
      let room := 65536 - a % 65536
      State.devWriteFrom (s.writePage a (bs.take room) owner post kind) k (a + room) (bs.drop room) owner post kind

/-- A write to parcel space. -/
def State.devWrite (s : State) (a : Nat) (bs : List Byte) (owner : Option (Nat × Nat) := none) (post : Bool := true) (kind : TileElems := none) : State :=
  if inParcel a then s.devWriteFrom (bs.length / 65536 + 2) a bs owner post kind else s

/-- A write of an operation of croft c to its croft store or to the device range. -/
def State.locWrite (s : State) (c i : Nat) (inStore : Bool) (a : Nat) (bs : List Byte) (kind : TileElems := none) : State :=
  if inStore then s.writeStore c a bs else s.devWrite a bs (some (c, i)) true kind

/-- A range of the croft store or of the device range is written 0, where anything else stands in it (R279, R280). -/
def State.locZero (s : State) (c i : Nat) (inStore : Bool) (kind : TileElems) (r : Nat × Nat) : State :=
  let m := if inStore then s.mem.store c else s.mem.parcel
  if m.clear r.1 r.2 == m then s else s.locWrite c i inStore r.1 (List.replicate r.2 0) kind

/-- Held writes that nothing holds back any more take effect, in their order (R277, R475, R510); operations that waited for them complete. -/
def State.releaseList (s : State) : List HeldWrite → State
  | [] => s
  | w :: ws =>
    let blocked := match s.m.page (pageOf w.address) with
      | some p => s.readerHolds w.address w.bytes.length w.owner || pageHolds p w.postBarrier || s.m.channelHeld [(false, w.address, w.bytes.length)]
          || s.m.tiers.heldWrites.any (fun x => pageOf x.address == pageOf w.address && (w.postBarrier || !x.postBarrier))
      | none => false
    if blocked then
      State.releaseList (s.on (fun b => { b with tiers := { b.tiers with heldWrites := b.tiers.heldWrites ++ [w] } })) ws
    else
      let s := s.devWrite w.address w.bytes w.owner w.postBarrier w.kind
      State.releaseList s ws

/-- Every held write is looked at again. -/
def State.releaseWrites (s : State) : State :=
  let ws := s.m.tiers.heldWrites
  let s := (s.on (fun b => { b with tiers := { b.tiers with heldWrites := [] } })).releaseList ws
  s.on (fun b => (ws.filterMap (·.owner)).foldl (fun b (c, i) => b.completeOp c i) b)

/-! Frames and migration -/

/-- Pages that parcels can use in a tier (R268, R292): BXJ-9640-A or -B by the record's density. No register, command or management request that would report the
count is named, and none shows it (log 108). -/
def Block.placeable (b : Block) (tier : Nat) : Nat :=
  match tier with
  | 1 => 24064
  | 2 => (if fld b.boot.recordBody 1296 1285 == 640 then 10354688 else 20840448) - b.tiers.retired.length
  | 3 => fld b.desc.hostWin 116 104 * 16384
  | _ => 0

/-- Frames of a tier in use: by pages there, and by migrations into it (R277). -/
def Block.framesUsed (b : Block) (tier : Nat) : Nat :=
  (b.tiers.pages.filter (fun p => p.tier == tier && !(tier == 2 && b.tiers.retired.contains p.frame))).length
    + (b.tiers.pages.filter (fun p => match p.migrating with
        | some (t, _) => t == tier
        | none => false)).length

/-- Free frames of a tier. -/
def Block.framesFree (b : Block) (tier : Nat) : Nat := b.placeable tier - b.framesUsed tier

/-- Frames of a tier (R268, R293). -/
def Block.framesOf (b : Block) (tier : Nat) : Nat :=
  match tier with
  | 1 => 24576
  | 2 => if fld b.boot.recordBody 1296 1285 == 640 then 10485760 else 20971520
  | _ => fld b.desc.hostWin 116 104 * 16384

/-- Is a frame of a tier held: by a page there, by a migration into it (R277), or because it is retired (R292)? -/
def Block.frameHeld (b : Block) (tier frame : Nat) : Bool :=
  b.tiers.pages.any (fun p => (p.tier == tier && p.frame == frame) || p.migrating == some (tier, frame)) || (tier == 2 && b.tiers.retired.contains frame)

/-- From a frame on, of n frames in a ring, the first that nothing holds. -/
def Block.frameFrom (b : Block) (tier n : Nat) : Nat → Nat → Nat
  | 0, frame => frame
  | k + 1, frame => if b.frameHeld tier frame then Block.frameFrom b tier n k ((frame + 1) % n) else frame

/-- A free frame of a tier is chosen: the manual does not say which (log 7). -/
def Block.newFrame (b : Block) (tier : Nat) : Nat × Block :=
  let n := Nat.max (b.framesOf tier) 1
  (b.frameFrom tier n (2 * b.tiers.pages.length + b.tiers.retired.length) (Config.freeFrame b.tiers.frameCtr % n),
    { b with tiers := { b.tiers with frameCtr := b.tiers.frameCtr + 1 } })

/-- A page begins to migrate to a tier (R277), or is skipped: already there, unmapped, or no free frame there (counted in MIGRATE_SKIPPED, R308). -/
def Block.startMigration (b : Block) (page tier : Nat) (force : Bool := false) : Block :=
  match b.page page with
  | none => b
  | some p =>
    if p.migrating.isSome || (p.tier == tier && !force) then b
    else if b.framesFree tier = 0 then b.bump .migrateSkipped
    else
      let (f, b) := b.newFrame tier
      b.onPage page (fun p => { p with migrating := some (tier, f) })

/-- The page-map entry switches to the new frame (R277); headers are those of the new tier, under the element kind that the MOVE names, or else that of each
tile (R284, R296). -/
def State.switchPage (s : State) (page : Nat) (kind : Option TileElems) : State :=
  match s.m.page page with
  | some p =>
    match p.migrating with
    | some (t, f) =>
      let s := s.on (fun b => b.onPage page (fun p => { p with tier := t, frame := f, migrating := none }))
      (s.refreshTile (2 * page) (kind.getD (s.m.elemsAt (65536 * page)))).refreshTile (2 * page + 1) (kind.getD (s.m.elemsAt (65536 * page + 32768)))
    | none => s
  | none => s

/-! The way to a tier (R23, R25) -/

/-- The larder die over a compute die (R23): the die of its quadrant of the mesh. -/
def quadrant (d : Nat) : Nat := 2 * (d / 8) + d % 4 / 2
/-- The compute die under larder die q by which die d reaches it: itself in its own quadrant, else the nearest over the mesh links (R23). -/
def larderGate (d q : Nat) : Nat :=
  let clamp (x h : Nat) : Nat := Nat.max (2 * h) (Nat.min x (2 * h + 1))
  4 * clamp (d / 4) (q / 2) + clamp (d % 4) (q % 2)
/-- The die by which die d reaches an address: a larder die's gate (R23), or the I/O die of the cellar package or of PCIe (R25). -/
def Block.gateOf (b : Block) (d a : Nat) : Nat := match b.placeOf a with
  | some (1, x) => larderGate d (larderPlace x).1
  | some (2, x) => 16 + cellarPackage x / 10
  | some (3, _) => 16
  | _ => d
/-- Is a die-to-die link out of service? -/
def Block.linksDown (b : Block) : Bool := b.dieLinks.any (fun p => !p.isUp)
/-- Can a die reach every granule of a range of parcel space over the links of the package (R23, R343)? -/
def Block.reachesRange (b : Block) (d a n : Nat) : Bool :=
  !b.linksDown || (List.range (ceilDiv (a % 512 + n) 512)).all (fun k => b.reaches d (b.gateOf d (a - a % 512 + 512 * k)))

/-- Does an operation of a croft wait for a cellar channel (R290), or for a link of the package on its way to a tier (R23, R343)? -/
def State.waitsOnTier (s : State) (croft : Nat) (op : BitVec 512) : Bool :=
  let rs := (s.m.opReads op ++ s.cacheReads op ++ s.writesOf op).filter (fun r => !r.1)
  s.m.channelHeld rs || rs.any (fun r => !s.m.reachesRange (dieOf croft) r.2.1 r.2.2)

/-- Does a range of parcel space meet a page that answers a test? -/
def Block.meetsPage (b : Block) (rs : List Range) (p : Page → Bool) : Bool :=
  rs.any (fun r => !r.1 && (List.range (ceilDiv (r.2.1 % 65536 + r.2.2) 65536)).any (fun k => (b.page (pageOf r.2.1 + k)).any p))

/-- Does an operation read host memory: a tile of the host tier whose header is not NONE, in the ranges given (R301)? -/
def Block.readsHost (b : Block) (rs : List Range) : Bool :=
  rs.any (fun r => !r.1 && (List.range (ceilDiv (r.2.1 % 32768 + r.2.2) 32768)).any (fun k =>
    let tile := r.2.1 / 32768 + k
    match b.page (tile / 2) with
    | some e => e.tier == 3 && fld (if tile % 2 == 0 then e.head0 else e.head1) 1 0 != 0
    | none => false))

/-- A read of host memory begins, with its completion timeout (R295). -/
def Block.hostRead (b : Block) (croft i : Nat) (rs : List Range) : Block :=
  if b.readsHost rs then
    { b with tiers := { b.tiers with reads := b.tiers.reads.filter (fun r => !(r.croft == croft && r.index == i)) ++ [({ croft := croft, index := i, since := b.span, attempts := 1 } : HostRead)] } }
  else b

/-! Errors of the memories (R286, R289, R290, R292) -/

/-- Item k of LPDDR6 package p in lifetime section 0x05 (R552): 0 link ECC, 1 on-die ECC, 2 R289, 3 uncorrectable, 4 retrains, 5 frames retired. -/
def cellarItem (p k : Nat) : Counter := .life 5 (6 * p + k)

/-- The page of a retired frame is tried (R292): it moves where its tiles can be read and a free frame exists; else it stays, counted once. `tries` attempts at
reading it failed (R306, R308). -/
def Block.tryRetired (b : Block) (page tries : Nat) : Block :=
  match b.page page with
  | some e =>
    if e.tier != 2 || !b.tiers.retired.contains e.frame || e.migrating.isSome then b
    else
      let b := { b with tiers := { b.tiers with tried := assocSet page b.clk.own b.tiers.tried } }
      if 3 ≤ tries then (b.bump .retries 2).bump .migrateSkipped
      else (b.bump .retries tries).startMigration page 2 true
  | none => b

/-- A cellar frame is retired for a package (R292): recorded in the lifetime log and counted; its page is tried at once where no job runs: whether it
can be read, the end of the migration says (PAGE_MIGRATION_SWITCH). -/
def Block.retire (b : Block) (frame package : Nat) : Block :=
  if b.tiers.retired.contains frame then b
  else
    let b := { b with tiers := { b.tiers with retired := b.tiers.retired ++ [frame] }, life := { b.life with retired := insertNew frame b.life.retired } }
    let b := (b.bump .framesRetired).bump (cellarItem package 5)
    match b.tiers.pages.find? (fun p => p.tier == 2 && p.frame == frame) with
    | some p => if b.jobRuns then b else b.tryRetired p.page 0
    | none => b

/-- A cellar channel begins to retrain (R290), counted for its package (R552). -/
def Block.startRetrain (b : Block) (channel : Nat) : Block :=
  if 80 ≤ channel || b.tiers.retraining.any (fun x => x.1 == channel) then b
  else ({ b with tiers := { b.tiers with retraining := b.tiers.retraining ++ [(channel, b.span)] } } : Block).bump (cellarItem (channel / 4) 4)

/-- A corrected error at a cellar address (R289): class C, counted for the package by the code. More than 64 by the link ECC in 1 ms retrain the channel (R290);
the third of a frame in 24 h by the other two codes, which find it there, retires the frame (R292). -/
def Block.correctedBurst (b : Block) (x code : Nat) : Block :=
  let b := (b.raiseC 0x35 none 5 (some (cellarPackage x))).bump (cellarItem (cellarPackage x) code)
  if code == 0 then
    let ch := (cellarPlace x).1
    let seen := b.tiers.linkEcc.filter (fun (_, t) => b.span < t + 1000000) ++ [(ch, b.span)]
    let b := { b with tiers := { b.tiers with linkEcc := seen } }
    if 64 < (seen.filter (fun y => y.1 == ch)).length then b.startRetrain ch else b
  else
    let seen := b.tiers.corrected.filter (fun (_, t) => b.clk.own < t + 86400000000000) ++ [(x / 65536, b.clk.own)]
    let b := { b with tiers := { b.tiers with corrected := seen } }
    if 3 ≤ (seen.filter (fun y => y.1 == x / 65536)).length then b.retire (x / 65536) (cellarPackage x) else b

/-- Corrected errors at device addresses: in the cellar by `correctedBurst`, in the larder class C (R286). -/
def Block.correctedAt (b : Block) (cs : List (Nat × Nat)) : Block :=
  cs.foldl (fun b (a, code) => match b.placeOf a with
    | some (2, x) => b.correctedBurst x code
    | some (1, _) => b.raiseC 0x35 none 4
    | _ => b) b

/-- A failed access at a device address retires its frame where it lies in the cellar (R306), and is counted for its package. -/
def Block.failedAt (b : Block) (a : Nat) : Block :=
  match b.placeOf a with
  | some (2, x) => (b.bump (cellarItem (cellarPackage x) 3)).retire (x / 65536) (cellarPackage x)
  | _ => b

/-- The row of R532 whose mechanism finds a failed access: the SEC-DED code of the larder, the codes of the cellar, and the CRC of a host-tier tile (where both a code and a tile's CRC
may fail, the code: DESIGN CHOICE, log 41). -/
def Block.tierRow (b : Block) (rs : List Range) : Nat := match rs.head?.bind (fun r => b.placeOf r.2.1) with
  | some (2, _) => 5
  | some (3, _) => 6
  | _ => 4
/-- The LPDDR6 package of a failed access in the cellar (R548). -/
def Block.packageOf (b : Block) (rs : List Range) : Option Nat := match rs.head?.bind (fun r => b.placeOf r.2.1) with
  | some (2, x) => some (cellarPackage x)
  | _ => none

end Sys2Proof.Machine
end

