-- ==== Sys2Proof/Machine/Issue.lean ====
section
/-! DEFINITION. Issue of almanac operations: groups and slice numbers (R359, R373), the checks at issue (R179 and what it cites), queues and interlocks
(R180, R181), the work journal and commits (R183, R470 to R473). -/
namespace Sys2Proof.Machine

/-! Groups -/

/-- A group descriptor as it is reset (R359). -/
def groupReset : BitVec 512 := setFld (setFld (setFld (setFld (0 : BitVec 512) 355 324 0x3D090) 323 308 0x0FA0) 307 276 0xC350) 247 240 1
/-- The group descriptor of an index: as loaded, else as reset (R359). -/
def Block.groupDesc (b : Block) (g : Nat) : BitVec 512 := match b.desc.groups.find? (fun x => x.index == g) with
  | some x => x.desc
  | none => groupReset
/-- The group descriptor of an index, when VALID (R359). -/
def Block.group (b : Block) (g : Nat) : Option (BitVec 512) := if flag (b.groupDesc g) 210 then some (b.groupDesc g) else none
def gMembers (d : BitVec 512) : Nat := fld d 261 248
def gMicro (d : BitVec 512) : Nat := fld d 247 240
def gKind (d : BitVec 512) : Nat := fld d 213 212
def gKq24 (d : BitVec 512) : Bool := flag d 211
def gRank (d : BitVec 512) : Nat := fld d 275 262
/-- n of R164 (R192): each working member once for every micro-batch. -/
def gCount (d : BitVec 512) : Nat := Nat.max (gMembers d * gMicro d) 1
/-- The limit of a contribution (R164). -/
def gLimit (d : BitVec 512) : Nat := ((if gKq24 d then 2 ^ 23 else 2 ^ 31) - 1) / gCount d

/-- The weight-gradient tensors of a group, by layer (R373): outputs of its BA_MATMUL_OS operations with KQ_OUT, in the order of the layers. -/
def Block.gradTensors (b : Block) (g : Nat) : List (Nat × Tensor) :=
  match b.job.almanac with
  | none => []
  | some a =>
    let ops := a.streams.flatten.filter (fun op => opCode op == 3 && opFlag op 7 && opAux op == g)
    (List.range a.layers).filterMap (fun l =>
      match ops.find? (fun op => opLayer op == l) with
      | some op => (b.tensor (opOut op).tensor).map (fun t => (l, t))
      | none => none)

/-- SLICE_ID of a row and column block of a layer's weight gradient (R190, R373). -/
def Block.sliceId (b : Block) (g layer row cb : Nat) : Nat :=
  let rec go : List (Nat × Tensor) → Nat → Nat
    | [], n => n
    | (l, t) :: rest, n => if l == layer then n + row * slicesPerRow t + cb else go rest (n + t.rows * slicesPerRow t)
  go (b.gradTensors g) 0

/-- Layer, tensor and place within it of a SLICE_ID (R373). -/
def Block.sliceOf (b : Block) (g slice : Nat) : Option (Nat × Tensor × Nat) :=
  let rec go : List (Nat × Tensor) → Nat → Option (Nat × Tensor × Nat)
    | [], _ => none
    | (l, t) :: rest, n => if n < t.rows * slicesPerRow t then some (l, t, n) else go rest (n - t.rows * slicesPerRow t)
  go (b.gradTensors g) slice

/-- Slices of a group. -/
def Block.sliceCount (b : Block) (g : Nat) : Nat := (b.gradTensors g).foldl (fun n (_, t) => n + t.rows * slicesPerRow t) 0

/-- The group whose weight gradients include a layer's (R373). -/
def Block.gradGroup (b : Block) (layer : Nat) : Option Nat :=
  match b.job.almanac with
  | none => none
  | some a => (a.streams.flatten.find? (fun op => opCode op == 3 && opFlag op 7 && opLayer op == layer)).map opAux

/-! Layers -/

/-- Is the layer pinned (R232). -/
def Block.pinned (b : Block) (l : Nat) : Bool := flag (b.guard l) 6
/-! Companions (R244) -/

/-- Rung of a format (R242). -/
def rungOf : Nat → Nat
  | 0 | 1 => 0 | 2 | 3 => 1 | 4 => 2 | 5 | 6 => 3 | _ => 4
/-- Target format of a rung (R242): none for rung 4. -/
def targetOf : Nat → Option Nat
  | 0 => some 3 | 1 => some 4 | 2 => some 5 | 3 => some 7 | _ => none
/-- Is the widening exact, by R72 and R243. -/
def exactWiden (a c : Nat) : Bool :=
  (a ≤ 3 && 4 ≤ c && c ≤ 8) || (a == 4 && 5 ≤ c && c ≤ 8) || ((a == 5 || a == 6) && (c == 7 || c == 8)) || (a == 7 && c == 8)
    || (a ≤ 1 && c == 3) || a == c

/-! Checks at issue (R179) -/

/-- Does a block lie within a tensor, with the reach of R179 along the contraction. -/
def reaches (t : Tensor) (r : BlockRef) (lines k : Nat) (transp : Bool) : Bool :=
  if transp then r.col + lines ≤ t.cols && r.row + k ≤ 32 * ceilDiv t.rows 32
  else r.row + lines ≤ t.rows && r.col + k ≤ 128 * t.spr

/-- Do a block's rows, of k elements each, lie within a tensor? Lane and stile rows are counted in blocks of 32 (R175), and R179 gives their reach no exception. -/
def holdsRows (t : Tensor) (r : BlockRef) (lines k : Nat) : Bool := r.row + lines ≤ t.rows && r.col + k ≤ t.cols

/-- Rows that SQUARE_OUT misaligns (R160). -/
def badSquareRows (t : Tensor) (out : BlockRef) (rows : Nat) : Bool :=
  out.row % 128 != 0 || ((out.row + rows) % 128 != 0 && out.row + rows != t.rows)

/-- A reserved DRAIN_CTRL value or combination (R112), less the clip bounds. -/
def badDrain (w acc : Nat) : Bool :=
  let d := drainCtrl w
  bitsOf w 9 0 != 0 || 8 < d.fmt || d.mulMode == 3 || (d.scaled && d.fmt == 8) || (d.magpie && ((d.fmt != 0 && d.fmt != 3) || !d.scaled))
    || (d.table && (d.scaled || d.magpie || d.norm || !(d.fmt == 0 || d.fmt == 2 || d.fmt == 8) || bitsOf acc 7 6 != 2))

/-- A reserved ACC_CTRL value (R99). -/
def badAcc (w : Nat) : Bool := bitsOf w 31 27 != 0 || bitsOf w 7 6 == 3 || bitsOf w 4 2 == 7 || bitsOf w 1 0 == 3

/-- Does the drain-parameter tensor break R614, or CLIP its bounds (R112)? -/
def badParams (b : Block) (m : Memory) (croft : Nat) (op : BitVec 512) (outCols : Nat) : Bool :=
  let d := drainCtrl (opDrain op)
  if !(d.bias || d.clip || d.mulMode != 0) then false
  else match b.tensor (opAux op) with
    | none => true
    | some t =>
      t.scaled || t.format != 8 || t.rows < 3 || t.cols < outCols || t.cols < 2 || 0xFFF < t.tag
        || (d.clip &&
            let g := readSeg m croft t 2 0
            let lo := BitVec.ofNat 32 (g.codes.getD 0 0)
            let hi := BitVec.ofNat 32 (g.codes.getD 1 0)
            isNan lo || isNan hi || ltExt (f32 hi) (f32 lo))

/-- Does the output descriptor disagree with DRAIN_CTRL (R179); STILE_WIDEN leaves MAGPIE out. -/
def disagrees (t : Tensor) (d : DrainCtrl) (magpie : Bool) : Bool :=
  t.format != d.fmt || t.tagBase != d.tagBase || t.scaled != d.scaled || (magpie && t.magpie != d.magpie)

/-- A reserved field of OP_HEAD, SHAPE or SIGNAL, or a PRED_NS above its bound (R175, R176, R179). -/
def badControl (op : BitVec 512) : Bool :=
  bitsOf (opWord op 0) 31 27 != 0 || opSched op == 3 || (opMb op != 0 && !(opCode op == 3 && opFlag op 7)) || bitsOf (opWord op 3) 31 30 != 0
    || 50000 < opPred op || bitsOf (opWord op 13) 31 16 != 0

/-- A tensor index that names no tensor, or one whose TALLY_TAG is too large (R177, R222). -/
def badIndex (b : Block) (i : Nat) : Bool := match b.tensor i with
  | some t => 0xFFF < t.tag
  | none => i != 0xFFFF

/-- FLAGS that the operands and the output do not allow (R176, R179). KQ24 without KQ_OUT says nothing. -/
def badFlags (b : Block) (op : BitVec 512) : Bool :=
  let is (i : Nat) (p : Tensor → Bool) : Bool := match b.tensor i with
    | some t => p t
    | none => false
  let a := (opA op).tensor
  let c := (opB op).tensor
  let ba := opCode op == 2 || opCode op == 3
  (opFlag op 0 && is a (fun t => !t.square || t.magpie)) || (opFlag op 1 && is c (fun t => !t.square || t.magpie))
    || (opFlag op 2 && is a (fun t => !t.magpie)) || (opFlag op 3 && is c (fun t => !t.magpie))
    || (opFlag op 4 && (ba || is a (·.format != 0) || is c (·.format != 0)))
    || (opFlag op 6 && ((drainCtrl (opDrain op)).magpie || is (opOut op).tensor (fun t => !t.square || badSquareRows t (opOut op) (opRows op))))
    || (opFlag op 7 && !ba)

/-- Is a rotation site outside the limits of R131: a block of 32, 64, 128 or 256, on a tensor whose logical rows have at most 16,384 elements, a multiple of it? -/
def Block.rotationBad (b : Block) (r : RotationSite) : Bool :=
  (b.tensor r.tensor).isNone || !([32, 64, 128, 256].contains r.block) || 16384 < r.rowLength || r.rowLength % r.block != 0

/-- Does an operation name a tensor with a rotation site that fails R131 (R179)? -/
def Block.siteBad (b : Block) (op : BitVec 512) : Bool :=
  match b.job.almanac with
  | some a => a.rotations.any (fun r => b.rotationBad r && [(opA op).tensor, (opB op).tensor, (opOut op).tensor].contains r.tensor)
  | none => false

/-- What every operation but MOVE and those that no unit runs must keep (R131, R175, R176, R179, R222). -/
def badHead (b : Block) (op : BitVec 512) : Bool :=
  badControl op || badFlags b op || b.siteBad op || badIndex b (opA op).tensor || badIndex b (opB op).tensor || badIndex b (opOut op).tensor

/-- The check at issue of an array operation (R179). -/
def badArray (b : Block) (m : Memory) (croft : Nat) (op : BitVec 512) : Bool :=
  match b.tensor (opA op).tensor, b.tensor (opB op).tensor, b.tensor (opOut op).tensor with
  | some ta, some tb, some tout =>
    let fa := opCode op == 1
    let kq := opFlag op 7
    let d := drainCtrl (opDrain op)
    let out := opOut op
    let k := 32 * opBlocks op
    badHead b op || badAcc (opAcc op) || badDrain (opDrain op) (opAcc op) || opBlocks op == 0
      || opCols op > (if fa then 128 else 256)
      || (if fa then ta.format > 3 || tb.format > 3 else ta.format < 4 || ta.format > 7 || tb.format < 4 || tb.format > 7)
      || opFlag op 2 != ta.magpie || opFlag op 3 != tb.magpie
      || b.isCache ta || b.isCache tb || b.isCache tout
      || !reaches ta (opA op) (opRows op) k (opFlag op 0) || !reaches tb (opB op) (opCols op) k (opFlag op 1)
      || out.row + opRows op > tout.rows || out.col + opCols op > tout.cols
      || (b.pinned (opLayer op) && !(ta.format == 7 && tb.format == 7))
      || (if kq then
            fa || out.col % 256 != 0 || tout.format != (if opFlag op 8 then 10 else 9)
              || (match b.group (opAux op) with
                  | none => true
                  | some g => (opCode op == 3 && gMicro g ≤ opMb op) || (opFlag op 8 && 256 < gCount g) || gKq24 g != opFlag op 8)
          else
            disagrees tout d true || badParams b m croft op tout.cols || (d.scaled && out.col % 128 != 0))
  | _, _, _ => true

/-- The check at issue of a stile operation (R163, R147, R179). A narrowing or a widening between a scaled and an unscaled tensor is not rejected (log 108). -/
def badStile (b : Block) (op : BitVec 512) : Bool :=
  match b.tensor (opA op).tensor, b.tensor (opOut op).tensor with
  | some ta, some tout =>
    let d := drainCtrl (opDrain op)
    let k := 32 * opBlocks op
    let wide := opCode op == 0x0C
    badHead b op || badDrain (opDrain op) (opAcc op) || (tout.scaled && (opOut op).col % 128 != 0) || opBlocks op == 0 || b.pinned (opLayer op) || b.isCache ta || b.isCache tout
      || !holdsRows ta (opA op) (opRows op) k || !holdsRows tout (opOut op) (opRows op) k
      || (if wide then
            3 < ta.format || !ta.scaled || tout.format < 4 || 6 < tout.format || !exactWiden ta.format tout.format || disagrees tout d false
              || tout.magpie != ta.magpie || (ta.magpie && tout.ovfBase != ta.ovfBase)
          else ta.format < 4 || 7 < ta.format || 3 < tout.format || disagrees tout d true)
  | _, _ => true

/-! Lane programs (R165, R613) -/

def lopOf (i : W64) : Nat := fld i 63 56
def lopMode (i : W64) : Nat := fld i 31 24
def lopImm (i : W64) : Nat := fld i 15 0

/-- The slots of a program, up to and including the first END; none without one (R165). -/
def programSlots (store : List W64) : Nat → Nat → Option (List W64)
  | 0, _ => none
  | n + 1, i =>
    match store[i]? with
    | none => none
    | some x => if lopOf x == 0x1F then some [x] else (programSlots store n (i + 1)).map (x :: ·)

/-- The program of a table entry of a croft: first slot and slots, when VALID (R165). -/
def Croft.program (c : Croft) (p : Nat) : Option (Nat × List W64) :=
  match c.progTable[p]? with
  | some e => if flag e 11 then (programSlots c.progStore 2048 (fld e 10 0)).map (fun l => (fld e 10 0, l)) else none
  | none => none

/-- A DRAIN_CTRL word of a layer descriptor that a LANE_RUN's shared quantisation cannot take (R112, R124). -/
def badWord (w : Nat) : Bool := badDrain w 0x80 || (drainCtrl w).table

/-- A target of an update run's STORE MODE 2 to 5, the moments, the forward or the backward copy, that its quantisation word does not allow (R112, R119, R124, R160, R179, R208): the word
itself; the tensor's FORMAT, TAG_BASE, SCALED or MAGPIE against it; the block's place; SQUARE, which the backward copy must have. -/
def badTarget (b : Block) (op : BitVec 512) (tensor w mode : Nat) : Bool :=
  let d := drainCtrl w
  badWord w || (match b.tensor tensor with
    | none => true
    | some t =>
      badIndex b tensor || b.isCache t || disagrees t d true || (d.scaled && (opOut op).col % 128 != 0) || !holdsRows t (opOut op) (opRows op) (32 * opBlocks op)
        || (mode == 5 && !t.square) || (4 ≤ mode && t.square && (d.magpie || badSquareRows t (opOut op) (opRows op))))

/-- Has an update run a bad target, of those named in its layer descriptor and stored to by its program (R204, R208)? A mode stored to whose target is none is no
reason to reject the run: no rule says what such a STORE does (DESIGN CHOICE, log 108). -/
def badTargets (b : Block) (op : BitVec 512) (ld : BitVec 512) (prog : List W64) : Bool :=
  [(2, (175, 160), (255, 224)), (3, (191, 176), (287, 256)), (4, (207, 192), (319, 288)), (5, (223, 208), (351, 320))].any (fun (mode, t, w) =>
    fld ld t.1 t.2 != 0xFFFF && prog.any (fun i => lopOf i == 0x14 && lopMode i == mode)
      && badTarget b op (fld ld t.1 t.2) (fld ld w.1 w.2) mode)

/-- The check at issue of a LANE_RUN (R124, R165, R170, R179, R206, R207, R613, R615). A run whose OUTPUT is none has no row length, no position and no store, and is
rejected (DESIGN CHOICE, log 108). -/
def badLane (b : Block) (croft : Nat) (op : BitVec 512) : Bool :=
  let upd := b.isUpdate op
  let d := drainCtrl (opDrain op)
  let out := b.tensor (opOut op).tensor
  let k := 32 * opBlocks op
  let within (r : BlockRef) : Bool := match b.tensor r.tensor with
    | some t => b.isCache t || holdsRows t r (opRows op) k
    | none => true
  let ld := b.layer (opLayer op)
  badHead b op || bitsOf (opWord op 1) 31 6 != 0 || opBlocks op == 0 || badDrain (opDrain op) 0x80 || d.table
    || b.namesCache (opAux op) || badIndex b (opAux op) || !within (b.slotRef op 2) || !within (opA op) || !within (opB op) || !within (opOut op)
    || (match (b.croft croft).program (opWord op 1 % 64) with
        | none => true
        | some (_, prog) => prog.any (fun i =>
            let l := lopOf i
            let slotUsed := if l == 0x15 then 0 else lopMode i
            (l == 0x13 && lopImm i != 0 && !upd) || (l == 0x14 && 2 ≤ lopMode i && !upd) || (l == 0x14 && lopMode i == 0 && upd)
              || (l == 0x14 && lopMode i == 1 && !upd)
              || (l == 0x13 && lopImm i == 0 && [(opA op).tensor, (opB op).tensor, opAux op].getD slotUsed 0xFFFF == 0xFFFF))
            || (upd && badTargets b op ld prog))
    || (match out with
        | none => true
        | some tout =>
          if upd then
            b.desc.layer.length ≤ opLayer op || fld ld 159 144 != (opOut op).tensor
              || (match b.tensor (opA op).tensor with
                  | some t => t.format != 9
                  | none => true)
              || fld ld 175 160 != (opB op).tensor || fld ld 191 176 != opAux op
              || badSquareRows tout (opOut op) (opRows op)
          else !b.isCache tout && (disagrees tout d true || (d.scaled && (opOut op).col % 128 != 0)))

/-- Does every page of a range of parcel space lie in the larder or the cellar (R298)? -/
def Block.nearTier (b : Block) (a n : Nat) : Bool :=
  (List.range (ceilDiv (a % 65536 + n) 65536)).all (fun k => match b.page (pageOf a + k) with
    | some p => p.tier != 3
    | none => false)

/-- The check at issue of a MOVE (R296 to R298, R395). Homes are those of the parcels named. -/
def badMove (b : Block) (op : BitVec 512) : Bool :=
  let (ls, as_) := moveSide op 4
  let (ld, ad) := moveSide op 6
  let n := 32768 * moveTiles op
  let kind := moveKind op
  let home (a : Nat) : Nat := match b.parcelAt a with
    | some p => if a + n ≤ p.base + 65536 * p.pages then p.home else 0
    | none => 0
  let inStore (a : Nat) : Bool := a % 32768 == 0 && a + n ≤ 2 ^ 22
  let sideOk (l : Bool) (a : Nat) : Bool := a % 32768 == 0 && (if l then inStore a else inParcel a && home a != 0)
  let ctrl := opWord op 1
  bitsOf (opWord op 0) 31 27 != 0 || opSched op == 3 || opMb op != 0 || 50000 < opPred op || bitsOf (opWord op 13) 31 16 != 0
    || bitsOf ctrl 31 12 != 0 || bitsOf ctrl 7 4 != 0 || 3 < kind || bitsOf (opWord op 2) 31 16 != 0 || bitsOf (opWord op 3) 31 16 != 0
    || fld op 190 180 != 0 || fld op 254 244 != 0 || opWord op 10 != 0
    || badIndex b (bitsOf (opWord op 2) 15 0) || b.namesCache (bitsOf (opWord op 2) 15 0)
    || (if kind == 1 then
          moveTier op == 0 || 3 < moveTier op || ls || as_ % 65536 != 0 || moveTiles op % 2 != 0 || home as_ == 0
            || (match b.parcelAt as_ with
                | some p => p.pin
                | none => true) || ld || ad != 0
        else moveTier op != 0 || !sideOk ls as_ || !sideOk ld ad
          || (kind == 0 && meets (ls, as_, n) (ld, ad, n))
          || (kind == 2 && (ld || home ad != 3 || (!ls && !b.nearTier as_ n)))
          || (kind == 3 && (ls || home as_ != 3 || (!ld && !b.nearTier ad n))))

/-! Queues -/

/-- The issue queue of an opcode (R180). -/
def unitOf : Nat → Option CroftUnit
  | 1 => some .fa | 2 => some .ba | 3 => some .ba | 8 => some .lane | 0x0C => some .stile | 0x0D => some .stile | 0x10 => some .move
  | _ => none

/-- The array of an attempt by the rung of the formats it reads, or of the operation as compiled (R242, R246). -/
def unitAt (op : BitVec 512) (a : Attempt) : Option CroftUnit :=
  match a.rung with
  | some r => if r ≤ 1 then some .fa else some .ba
  | none => unitOf (opCode op)

/-- Is an operation of the croft's stream in flight: issued and not complete. -/
def Croft.inFlight (c : Croft) : List JEntry := c.journal.filter (fun e => e.state == .issued)

/-- Does the croft run: a job runs and has begun, and nothing has stopped the croft (R476, R497). What has issued goes on, its repeats among it. -/
def Block.runs (b : Block) (croft : Nat) : Bool := croft < 192 && b.jobRuns && b.job.begun && !b.dev.bellDone && !(b.croft croft).stopped

/-- Does the croft issue now: it runs, and neither a forced commit nor a WAIT_TIME holds it (R178, R183). -/
def Block.issues (b : Block) (croft : Nat) : Bool := b.runs croft && !(b.croft croft).forcing && (b.croft croft).waitUntil.isNone

/-- The operation at the head of a unit's queue (R180), held back behind a FENCE_CROFT or WAIT_TIME that comes before it (R178). -/
def Block.headOf (b : Block) (croft : Nat) (u : CroftUnit) : Option Nat :=
  let rec go : List Nat → Option Nat
    | [] => none
    | i :: rest =>
      let code := opCode (b.op croft i)
      if code == 0x19 || code == 0x1A then none
      else if unitOf code == some u then some i
      else go rest
  go (b.croft croft).todo

/-- Is the unit of the croft free to take an operation. -/
def Croft.unitFree (c : Croft) : CroftUnit → Bool
  | .fa => c.fa.tile.isNone
  | .ba => c.ba.tile.isNone
  | .lane => c.lane.isNone
  | _ => true

/-- Has the croft a span open (R253): an uncommitted entry of one. -/
def Croft.spanOpen (c : Croft) : Bool := c.journal.any (fun e => e.span && e.state != .retained)

/-- Does an operation issue within a span (R253, R254): one of the layer, or one that no unit runs while the span is open. -/
def Block.insideSpan (b : Block) (croft : Nat) (op : BitVec 512) : Bool :=
  b.inSpan op || (0x18 ≤ opCode op && (b.croft croft).spanOpen)

/-- The uncommitted entries of an open span of the croft, as an operation outside the span finds them: it may not act on what they did before the span is final
(R254). -/
def Block.spanBars (b : Block) (croft : Nat) (op : BitVec 512) : List JEntry :=
  if b.insideSpan croft op then [] else (b.croft croft).journal.filter (fun e => e.span && e.state != .retained)

/-- Is a token set for an operation (R180, R182)? One set in a span is visible within the span only, until its closing COMMIT (R254), and one held back by an
excursion to the crofts of its die (R538). -/
def Block.tokenSet (b : Block) (croft : Nat) (op : BitVec 512) (t : Nat) : Bool :=
  if t < 0x1000 then (b.croft croft).tokens.contains t && !(b.spanBars croft op).any (fun e => opSignal e.op == t)
  else b.tokens.shared.contains t || b.tokens.held.any (fun x => x.2 == t && dieOf x.1 == dieOf croft)
    || (b.insideSpan croft op && b.tokens.spanHeld.contains (croft, t))

/-- Are the WAIT tokens of an operation set (R180, R182). -/
def Block.tokensSet (b : Block) (croft : Nat) (op : BitVec 512) : Bool := (opWaits op).all (b.tokenSet croft op)

/-- The croft-store interlock (R180), for an operation outside an open span with the entries of the span too (R254). -/
def Block.interlocked (b : Block) (croft : Nat) (op : BitVec 512) : Bool :=
  let rd := (b.opReads op).filter (·.1)
  let wr := (b.opWrites op).filter (·.1)
  ((b.croft croft).inFlight ++ b.spanBars croft op).any (fun e =>
    (b.opWrites e.op).any (fun x => (rd ++ wr).any (meets x)) || (b.opReads e.op).any (fun x => wr.any (meets x)))

/-- The schedule an operation is excluded from (R176, R180). SCHED 0b11 is reserved: the check at issue rejects it (R179). -/
def Block.skips (b : Block) (op : BitVec 512) : Bool := opSched op != 0 && opSched op != 3 && opSched op != b.tally.live.sched

/-- The croft issues again after an interruption, which ends with it (R476, R498). -/
def Block.resumes (b : Block) (croft : Nat) : Block :=
  match (b.croft croft).interruptedAt with
  | some t => (b.raiseTo .replayNsMax (b.now - t)).onCroft croft (fun c => { c with interruptedAt := none })
  | none => b

/-- The stationary registers are loaded anew after a replay (R181, R188). -/
def Croft.dropStat (c : Croft) : Croft := { c with fa := { c.fa with stat := [] }, ba := { c.ba with stat := [] } }

/-- The writes of operations of a croft that still wait are dropped with their attempts: a replay writes the bytes (R255, R476). -/
def Block.dropHeld (b : Block) (croft : Nat) (p : Nat → Bool) : Block :=
  { b with tiers := { b.tiers with heldWrites := b.tiers.heldWrites.filter (fun w => match w.owner with
    | some (c, i) => !(c == croft && p i)
    | none => true) } }

/-- The operation leaves the croft's queue. -/
def Block.dequeue (b : Block) (croft i : Nat) : Block := (b.resumes croft).onCroft croft (fun c => { c with todo := c.todo.filter (· != i) })

/-- The operations that set a token: of the croft for a local one, of every croft for a shared one. -/
def Block.setters (b : Block) (croft tok : Nat) : List (BitVec 512) := match b.job.almanac with
  | some a => (if tok < 0x1000 then a.streams[croft]?.getD [] else a.streams.flatten).filter (fun o => opSignal o == tok)
  | none => []

/-- Tier of a MOVE as a stall's (R303): 0 larder, 1 cellar, 2 host; that of its source, or of its destination where the source is a croft store. From one croft store
to another the rule names none: it is taken as LARDER (DESIGN CHOICE, log 108). -/
def Block.stallTier (b : Block) (op : BitVec 512) : Nat :=
  if moveKind op == 2 || moveKind op == 3 then 2
  else
    let (ls, a) := moveSide op 4
    let (ld, d) := moveSide op 6
    match b.page (pageOf (if ls then d else a)) with
    | some p => if ls && ld then 0 else p.tier - 1
    | none => 0

/-- The head operation of a unit's queue, where the queue is stalled (R302): the unit has nothing in flight, and each token that holds the head is to be set by a
MOVE or by a transfer of the fabric. What it answers is the tier of the first, 3 being the fabric. -/
def Block.stalledOn (b : Block) (croft : Nat) (u : CroftUnit) : Option Nat :=
  match b.headOf croft u with
  | none => none
  | some i =>
    let op := b.op croft i
    let late := (opWaits op).filter (fun t => !b.tokenSet croft op t)
    if b.skips op || (b.croft croft).inFlight.any (fun e => unitOf (opCode e.op) == some u) || !(b.croft croft).unitFree u
        || !late.all (fun t => (b.setters croft t).all (fun o => opCode o == 0x10)) then none
    else match late with
      | [] => none
      | t :: _ => some (match b.setters croft t with
          | o :: _ => b.stallTier o
          | [] => 3)

/-- A time of a croft is counted into the cost of a snapshot, joined with what it meets of the croft's, so that a croft's ns count once (R506). -/
def Image.addCost (i : Image) (x : CostSpan) : Image :=
  let near (y : CostSpan) : Bool := y.croft == x.croft && y.since ≤ x.till && x.since ≤ y.till
  let hit := i.cost.filter near
  { i with cost := i.cost.filter (fun y => !near y) ++ [{ croft := x.croft, since := (hit.map (·.since)).foldl Nat.min x.since, till := (hit.map (·.till)).foldl Nat.max x.till }] }

/-- The cost of a snapshot: the ns of all crofts over 192, stopping at 2^32 - 1 (R506). -/
def Image.costNs (i : Image) : Nat := Nat.min ((i.cost.foldl (fun n x => n + (x.till - x.since)) 0) / 192) (2 ^ 32 - 1)

/-- The time of a croft from an instant, or from the barrier, to now counts towards the snapshot being taken (R506). -/
def Block.addCost (b : Block) (croft since : Nat) : Block :=
  b.onImage (fun i => i.addCost { croft := croft, since := Nat.max since i.barrier, till := b.now })

/-- A stall of cause QUEUE adds to the cost of the snapshot the ns for which bear traffic stood on its tier, ahead of the late transfer (R506). -/
def Block.stallCost (b : Block) (croft : Nat) (s : Stall) : Block :=
  if s.cause != 0 then b
  else b.onImage (fun i => (i.traffic.filter (·.tier == s.tier)).foldl (fun (i : Image) (x : BearSpan) =>
    let c : CostSpan := { croft := croft, since := Nat.max (Nat.max s.since i.barrier) x.since, till := Nat.min b.now (x.till.getD b.now) }
    if c.since < c.till then i.addCost c else i) i)

/-- The stalls that stand when an image completes have cost it their ns until then (R506). -/
def Block.costStalls (b : Block) : Block :=
  ((List.range b.crofts.length).zip b.crofts).foldl (fun b (n, c) => c.stalls.foldl (fun b s => b.stallCost n s) b) b

/-- Is every write of the image acknowledged by the partner (R517)? -/
def Block.imageAcked (b : Block) : Bool := b.imageWrites.isEmpty

/-- The image is complete on the module once its trailer is acknowledged too (R517): its pages are CLEAR (R514), and the snapshot's cost stands (R506). -/
def Block.completeImage (b : Block) : Block :=
  match b.snap.image with
  | none => b
  | some i =>
    if !i.trailed || !b.imageAcked then b
    else
      let b := b.costStalls
      { b with snap := { b.snap with image := none, done := true, lastSlot := some i.slot, lastCost := ((b.snap.image.map Image.costNs).getD 0) }, cache := { b.cache with before := [] },
               tiers := { b.tiers with pages := b.tiers.pages.map (fun (p : Page) => { p with bear := Bear.clear }) },
               desc := { b.desc with snap := setFld (setFld (setFld b.desc.snap 511 448 i.snapId) 15 8 2) 3 3 0 } }

/-- A stall of the unit queue ends, and counts its ns under its tier and cause (R302 to R304). -/
def Block.endStall (b : Block) (croft : Nat) (u : CroftUnit) : Block :=
  match (b.croft croft).stalls.find? (fun s => s.unit == u) with
  | some s =>
    (((b.stallCost croft s).bump (.stallNs s.tier s.cause) (b.now - s.since)).bump (.stallEvents s.tier s.cause)).onCroft croft
      (fun c => { c with stalls := c.stalls.filter (fun s => s.unit != u) })
  | none => b

/-- Stalls end once the tokens that their operations wait for are set, and begin where a queue has come to stand so (R302). A stall begins with the cause UPSTREAM
on the fabric and QUEUE elsewhere; the transfer that ends it gives the cause (R303). -/
def Block.settleCroft (b : Block) (n : Nat) : Block :=
  [CroftUnit.fa, .ba, .lane].foldl (fun b u =>
    match b.stalledOn n u, (b.croft n).stalls.any (fun s => s.unit == u) with
    | none, true => b.endStall n u
    | some tier, false =>
      b.onCroft n (fun c => { c with stalls := c.stalls ++ [({ unit := u, since := b.now, tier := tier, cause := if tier == 3 then 5 else 0 } : Stall)] })
    | _, _ => b) b

/-- The stalls of every croft (R302). -/
def Block.settleStalls (b : Block) : Block := (List.range b.crofts.length).foldl (fun b n => b.settleCroft n) b

/-- The cause of most delay (R303): a tie goes to the lower value. -/
def worstCause (delays : List (Nat × Nat)) (otherwise : Nat) : Nat :=
  ((List.range 6).foldl (fun (best : Nat × Nat) c => let d := (assocGet c delays).getD 0; if best.2 < d then (c, d) else best) (otherwise, 0)).1

/-- A stall takes the tier and the cause of a transfer that is complete (R303). On the fabric, what the links of this module did not add is the producer's. -/
def Stall.late (x : Stall) (tier cause now : Nat) : Stall :=
  let own := x.delays.foldl (fun n d => n + d.2) 0
  { x with tier := tier, cause := if tier == 3 then worstCause (assocSet 5 (now - x.since - own) x.delays) cause else cause }

/-- A transfer that sets a token is complete: the stalls that wait for the token take its tier and its worst cause (R303). -/
def Block.noteTransfer (b : Block) (croft tok tier cause : Nat) : Block :=
  if tok == 0xFFFF then b
  else
    let waits (n : Nat) (u : CroftUnit) : Bool := match b.headOf n u with
      | some i => (opWaits (b.op n i)).contains tok
      | none => false
    (if tok < 0x1000 then [croft] else List.range b.crofts.length).foldl (fun b n =>
      if (b.croft n).stalls.isEmpty then b
      else b.onCroft n (fun c => { c with stalls := c.stalls.map (fun (x : Stall) => if waits n x.unit then x.late tier cause b.now else x) })) b

/-! Splits (R95, R100, R102) -/

/-- First contraction element of an operand's block. -/
def contractionOf (op : BitVec 512) (isA : Bool) : Nat :=
  let r := if isA then opA op else opB op
  if opFlag op (if isA then 0 else 1) then r.row else r.col
/-- First line of an operand's block across the contraction. -/
def lineOf (op : BitVec 512) (isA : Bool) : Nat :=
  let r := if isA then opA op else opB op
  if opFlag op (if isA then 0 else 1) then r.col else r.row

/-- Are two operations alike but for the part of the contraction they handle: OP_HEAD, ACC_CTRL, DRAIN_CTRL, tile, output block, AUX and LAYER, operand tensors
and lines? -/
def alikeParts (x y : BitVec 512) : Bool :=
  isArray x && opWord x 0 == opWord y 0 && opWord x 1 == opWord y 1 && opWord x 2 == opWord y 2 && bitsOf (opWord x 3) 31 14 == bitsOf (opWord y 3) 31 14
    && opOut x == opOut y && opWord x 10 == opWord y 10 && (opA x).tensor == (opA y).tensor && (opB x).tensor == (opB y).tensor
    && lineOf x true == lineOf y true && lineOf x false == lineOf y false

/-- Does y take up the contraction where x ends? -/
def followsPart (x y : BitVec 512) : Bool :=
  alikeParts x y && contractionOf y true == contractionOf x true + 32 * opBlocks x && contractionOf y false == contractionOf x false + 32 * opBlocks x

/-- How many operations of a croft's stream before place i are its like on the same part. -/
def Block.timesBefore (b : Block) (croft i : Nat) : Nat :=
  let op := b.op croft i
  ((List.range i).filter (fun j => let x := b.op croft j; alikeParts x op && contractionOf x true == contractionOf op true && contractionOf x false == contractionOf op false)).length

/-- The first operation of another croft that stands to operation i of a croft as a test asks, at the same turn. -/
def Block.partWith (b : Block) (croft i : Nat) (p : BitVec 512 → BitVec 512 → Bool) : Option (Nat × Nat) :=
  match b.job.almanac with
  | none => none
  | some al =>
    let turn := b.timesBefore croft i
    (((List.range al.streams.length).filter (· != croft)).map (fun c =>
      ((List.range (al.streams[c]?.getD []).length).filter (fun j => p (b.op croft i) (b.op c j) && b.timesBefore c j == turn)).map (fun j => (c, j)))).flatten.head?

/-- The parts before an operation, in order, and those after it. -/
def Block.partsBefore (b : Block) : Nat → Nat × Nat → List (Nat × Nat)
  | 0, _ => []
  | n + 1, (c, i) => match b.partWith c i (fun x y => followsPart y x) with
    | some q => Block.partsBefore b n q ++ [q]
    | none => []
def Block.partsAfter (b : Block) : Nat → Nat × Nat → List (Nat × Nat)
  | 0, _ => []
  | n + 1, (c, i) => match b.partWith c i followsPart with
    | some q => q :: Block.partsAfter b n q
    | none => []

/-- The parts of the split that an operation belongs to, in contraction order (R100): operations of other crofts alike but for consecutive contraction ranges. The
manual gives an operation no part number (DESIGN CHOICE, log 98). -/
def Block.splitOf (b : Block) (croft i : Nat) : List (Nat × Nat) :=
  if !isArray (b.op croft i) then [(croft, i)] else b.partsBefore 192 (croft, i) ++ [(croft, i)] ++ b.partsAfter 192 (croft, i)

/-! Journal and commits -/

/-- Does an operation of the croft's stream overwrite the barrels that entry e leaves for operation i: one between them on the same array, in ACC_OVERWRITE, whose
tile covers theirs (R246, R473)? -/
def Block.overwritten (b : Block) (croft : Nat) (e : JEntry) (i : Nat) : Bool :=
  (List.range (i - e.index - 1)).any (fun k =>
    let m := b.op croft (e.index + 1 + k)
    isArray m && unitOf (opCode m) == unitOf (opCode e.op) && bitsOf (opAcc m) 5 5 == 0 && !b.skips m && !(b.croft croft).rejected.contains (e.index + 1 + k)
      && Nat.min (opRows e.op) (opRows (b.op croft i)) ≤ opRows m && Nat.min (opCols e.op) (opCols (b.op croft i)) ≤ opCols m)

/-- What a range keeps outside another. -/
def Range.less (r w : Range) : List Range :=
  if !meets r w then [r]
  else [(r.1, r.2.1, w.2.1 - r.2.1), (r.1, w.2.1 + w.2.2, r.2.1 + r.2.2 - (w.2.1 + w.2.2))].filter (fun x => x.2.2 != 0)

/-- What ranges keep outside some writes. -/
def leftOver (rs ws : List Range) : List Range := ws.foldl (fun rs w => (rs.map (fun r => Range.less r w)).flatten) rs

/-- Croft-store ranges that an operation reads, and that it writes. -/
def Block.storeReads (b : Block) (op : BitVec 512) : List Range := (b.opReads op).filter (·.1)
def Block.storeWrites (b : Block) (op : BitVec 512) : List Range := (b.opWrites op).filter (·.1)

/-- What later operations leave of the croft-store ranges that an operation has written. -/
def Block.storeLeft (b : Block) (op : BitVec 512) (later : List (BitVec 512)) : List Range := leftOver (b.storeWrites op) (later.map b.storeWrites).flatten

/-- Does an operation read some croft-store ranges? -/
def Block.readsStore (b : Block) (left : List Range) (op : BitVec 512) : Bool := (b.storeReads op).any (fun x => left.any (meets x))

/-- Is an output of the entry held only inside the compute domain, with a consumer that has not committed (R473): a croft-store range, barrels that an ACC_ADD
continues, the part of a split another part of which is uncommitted, or a slice that has not left or that no module-mill stage holds yet? -/
def Block.retains (b : Block) (croft : Nat) (e : JEntry) : Bool :=
  let c := b.croft croft
  let between (i : Nat) : List (BitVec 512) :=
    (((List.range (i - e.index - 1)).map (e.index + 1 + ·)).filter (fun k => !c.rejected.contains k)).map (b.op croft) |>.filter (fun x => !b.skips x)
  let waits (n : Nat) : List Nat := (b.croft n).todo ++ ((b.croft n).journal.filter (fun x => x.state != .retained)).map (·.index)
  ((waits croft).filter (fun i => e.index < i)).any (fun i =>
    let op := b.op croft i
    (!b.skips op && b.readsStore (b.storeLeft e.op (between i)) op)
      || (isArray op && isArray e.op && unitOf (opCode op) == unitOf (opCode e.op) && bitsOf (opAcc op) 5 5 == 1 && !b.skips op && !b.overwritten croft e i))
  || (b.splitOf croft e.index).any (fun x => x != (croft, e.index) && (waits x.1).contains x.2)
  || (opFlag e.op 7 && isArray e.op && (c.exports.any (fun x => x.index == e.index) || b.mill.inner.any (fun x => x.croft == croft && x.index == e.index)))

/-- RETAINED entries that nothing keeps any more are free (R473). -/
def Block.freeRetained (b : Block) (croft : Nat) : Block :=
  b.onCroft croft (fun c => { c with journal := c.journal.filter (fun e => e.state != .retained || b.retains croft e) })

/-- The parts in the mills that no entry of their split needs any more are gone (R108, R473). -/
def Block.freeParts (b : Block) : Block :=
  let b := (b.mill.parts.map (·.croft)).foldl (fun b n => b.freeRetained n) b
  { b with mill := { b.mill with parts := b.mill.parts.filter (fun p =>
    !p.released || (b.splitOf p.croft p.tile.index).any (fun x => (b.croft x.1).journal.any (fun e => e.index == x.2))) } }

/-- The completed entries of a croft commit (R472): each is freed, or kept RETAINED (R473); RETAINED entries whose consumers have committed are freed. -/
def Block.commitEntries (b : Block) (croft : Nat) : Block :=
  ((b.onCroft croft (fun c =>
    { c with journal := c.journal.map (fun e => if e.state == .done then { e with state := .retained } else e), commitAt := b.now })).freeRetained croft).freeParts

/-- A progress beat of a unit (R465). -/
def Croft.beat (c : Croft) (u : CroftUnit) (now : Nat) : Croft := { c with beats := assocSet u now c.beats }
/-- A progress beat of a unit of a croft (R465). -/
def Block.beat (b : Block) (croft : Nat) (u : CroftUnit) : Block := b.onCroft croft (fun c => c.beat u b.now)

/-- The magpie tensors that an operation writes, whose pools it takes entries of (R143). -/
def Block.poolTensors (b : Block) (op : BitVec 512) : List Nat :=
  let ld := b.layer (opLayer op)
  (if isArray op then (if opFlag op 7 then [] else [(opOut op).tensor])
    else if b.isUpdate op then [fld ld 175 160, fld ld 191 176, fld ld 207 192, fld ld 223 208]
    else if opCode op == 8 then [(opOut op).tensor] else []).filter (fun i => match b.tensor i with
      | some t => t.magpie
      | none => false)

/-- The pools' allocation pointers as the journal records them at issue (R143). -/
def Block.poolsOf (b : Block) (croft : Nat) (op : BitVec 512) : List (Nat × Nat) :=
  (b.poolTensors op).map (fun i => (i, (assocGet i (b.croft croft).pools).getD 0))

/-- The parameters of a span's replay for an operation of its layer (R255): more HEADROOM and OUT_HEADROOM, and THRESH from the max-abs of the discarded
attempt. -/
def Block.replayOf (b : Block) (op : BitVec 512) (seen : List (Nat × F32)) : Attempt :=
  let tag := ((b.tensor (opOut op).tensor).getD {}).tag
  let k := match assocGet tag b.desc.magpie with
    | some d => fld d 7 4
    | none => 3
  let m := (assocGet tag seen).getD noMax
  { extra := fld (b.guard (opLayer op)) 15 12, outExtra := 1, spanReplay := true,
    thresh := if isFin m && !f32Zero m then some (toF32 ((f32 m).scale (-(k : Int)))) else none }

/-- How an operation of a span issues where the span is being replayed (R255, R256): with the replay's parameters. -/
def Block.spanAttempt (b : Block) (croft : Nat) (op : BitVec 512) : Option Attempt :=
  if (b.croft croft).spanTried.isEmpty then none else some (b.replayOf op (b.croft croft).spanSeen)

/-- An operation issues: it leaves the queue and enters the journal (R183, R470). The backward pass of a
micro-batch starts with the first weight-gradient operation that names it (R220; DESIGN CHOICE, log 101). -/
def Block.journalIssue (b : Block) (croft i : Nat) : Block :=
  let op := b.op croft i
  let e : JEntry := { op := op, index := i, tIssue := b.now, pools := b.poolsOf croft op, span := b.inSpan op,
                      attempt := if b.inSpan op then (b.spanAttempt croft op).getD {} else {} }
  let b := if opCode op == 3 && opFlag op 7 && (assocGet (opMb op) b.job.mbStart).isNone then
      { b with job := { b.job with mbStart := assocSet (opMb op) b.now b.job.mbStart } } else b
  (b.dequeue croft i).onCroft croft (fun c =>
    { c.beat ((unitOf (opCode op)).getD .move) b.now with journal := c.journal ++ [e] })

/-- How the head of a queue stands before issue. -/
inductive HeadState where
  /-- nothing can issue now -/
  | wait
  /-- skipped by SCHED (R180) -/
  | skip (i : Nat)
  /-- the operation may issue, once its own checks pass -/
  | ready (i : Nat)
deriving DecidableEq, Repr

/-- The unit that a repeat or replay runs on (R246). -/
def Block.redoUnit (b : Block) (croft : Nat) (x : Nat × Attempt) : CroftUnit :=
  let op := b.op croft x.1
  if isArray op then (unitAt op x.2).getD .ba else (unitOf (opCode op)).getD .move

/-- Are the barrels that operation i finds in the array it was compiled for still to come: an operation before it on that array is in flight and has not left its
tile (R102, R154, R246)? -/
def Block.barrelsDue (b : Block) (croft i : Nat) : Bool :=
  let c := b.croft croft
  c.inFlight.any (fun e => e.index < i && isArray e.op && unitOf (opCode e.op) == unitOf (opCode (b.op croft i)) && !c.exports.any (fun x => x.index == e.index))

/-- Does an operation in ACC_ADD wait for the barrels that it starts from (R102, R246, R263): its own array's where it is whole or part 0 of a split, else those of
part 0? A part that has started before keeps what it started from. Outside an open span it waits for the span's (R254). -/
def Block.awaitsBarrels (b : Block) (croft i : Nat) : Bool :=
  let op := b.op croft i
  let entry (x : Nat × Nat) : Option JEntry := (b.croft x.1).journal.find? (fun e => e.index == x.2)
  let due (x : Nat × Nat) : Bool := ((entry x).bind (·.prior)).isNone && (b.barrelsDue x.1 x.2
    || ((b.croft x.1).todo.any (fun j => j < x.2 && isArray (b.op x.1 j) && unitOf (opCode (b.op x.1 j)) == unitOf (opCode (b.op x.1 x.2)))))
  isArray op && bitsOf (opAcc op) 5 5 == 1
    && ((match b.splitOf croft i with
          | x :: _ => if x == (croft, i) then due x else ((entry (croft, i)).bind (·.start)).isNone && due x
          | [] => false)
      || (b.spanBars croft op).any (fun e => isArray e.op && unitOf (opCode e.op) == unitOf (opCode op)))

/-- Do repeats and replays keep the head of a unit's queue back? Issue resumes after a replay (R476); a repeat, or the replay of a span, goes ahead in the queue of
the unit it runs on (R246, R255). -/
def Block.redoFirst (b : Block) (croft : Nat) (u : CroftUnit) (i : Nat) : Bool :=
  (b.croft croft).redo.any (fun x => x.2.replay || b.redoUnit croft x == u) || b.awaitsBarrels croft i

/-- Does an operation in flight still take entries of a pool that an operation needs (R143)? -/
def Block.poolBusy (b : Block) (croft : Nat) (op : BitVec 512) : Bool :=
  (b.croft croft).inFlight.any (fun e => (b.poolTensors e.op).any (fun i => (b.poolTensors op).contains i))

/-- The head of a unit's queue of a croft, for an operation of one of the opcodes (R143, R180, R290, R471). An operation of a span waits for the COMMIT before it,
which opens the span (R253; log 97). -/
def State.head (s : State) (croft : Nat) (u : CroftUnit) (codes : List Nat) : HeadState :=
  let b := s.m
  if !b.issues croft then .wait
  else match b.headOf croft u with
    | none => .wait
    | some i =>
      let op := b.op croft i
      if !codes.contains (opCode op) then .wait
      else if b.skips op then .skip i
      else if b.inSpan op && ((b.croft croft).todo.takeWhile (· != i)).any (fun j => opCode (b.op croft j) == 0x18) then .wait
      else if !b.tokensSet croft op || b.interlocked croft op || !(b.croft croft).unitFree u || b.redoFirst croft u i || b.poolBusy croft op
          || (opCode op != 0x10 && s.waitsOnTier croft op) then .wait
      else if 256 ≤ (b.croft croft).journal.length then .wait
      else .ready i

/-- A head operation that does not issue: a skip sets its token (R180); a full journal forces a commit, counted (R471); a wait on late transfers
may begin a stall (R302). Within a span the forced commit is deferred, and a skipped operation's token is set at once (R180, R254). -/
def Block.noIssue (b : Block) (croft : Nat) (u : CroftUnit) : HeadState → Block
  | .skip i => ((b.dequeue croft i).setToken croft (opSignal (b.op croft i)) false).settleStalls
  | .ready _ => b
  | .wait =>
    if b.issues croft && (b.headOf croft u).isSome && 256 ≤ (b.croft croft).journal.length && !(b.croft croft).spanOpen then
      (b.bump .fullJournalCommits).onCroft croft (fun c => { c with forcing := true })
    else b.settleCroft croft

/-- An operation that the check at issue rejects (R179): it leaves the queue without issuing, and its token is never set. The manual gives the status no class and no
way to the host (log 36). -/
def Block.rejectOp (b : Block) (croft i : Nat) : Block := (b.dequeue croft i).onCroft croft (fun c => { c with rejected := insertNew i c.rejected })

end Sys2Proof.Machine
end

