-- ==== Sys2Proof/Machine/Mills.lean ====
section
/-! DEFINITION. The mills: group trees (R366, R367), packets and digests (R371, R385, R389), operands at nodes (R365, R386), reduced slices and the
held shard (R195, R196, R370, R376 to R380), the norm and the scalar records (R199, R201, R381, R382), broadcasts (R374) and group fences (R450). -/
namespace Sys2Proof.Machine

/-! Group descriptors and tables (R359 to R361) -/

def gRankTable (d : BitVec 512) : Nat := fld d 511 460
def gExpTable (d : BitVec 512) : Nat := fld d 459 408
def gEdgeTable (d : BitVec 512) : Nat := fld d 407 356
def gSlack (d : BitVec 512) : Nat := fld d 355 324
def gLevelNs (d : BitVec 512) : Nat := fld d 323 308
def gRereduceNs (d : BitVec 512) : Nat := fld d 307 276
def gEdges (d : BitVec 512) : Nat := fld d 229 214

/-- The rank-table entry of a rank: MODULE_ID and TWIN (R360). -/
def State.rankEntry (s : State) (d : BitVec 512) (r : Nat) : Nat × Nat :=
  let e := s.mem.parcel.readNat (gRankTable d + 4 * r) 4
  (bitsOf e 13 0, bitsOf e 29 16)
/-- The modules of a group, by rank (R360). -/
def State.members (s : State) (d : BitVec 512) : List Nat := (List.range (gMembers d)).map (fun r => (s.rankEntry d r).1)
/-- Does this module stand in the group as a twin (R363, R385). -/
def State.amTwin (s : State) (d : BitVec 512) : Bool := (s.rankEntry d (gRank d)).1 != s.m.moduleId
/-- The rank a module stands for in a group, as member or as twin. -/
def State.rankOf (s : State) (d : BitVec 512) (module : Nat) : Option Nat :=
  (List.range (gMembers d)).find? (fun r => (s.rankEntry d r).1 == module || (s.rankEntry d r).2 == module)
/-- The edge-table entry for a peer (R361). -/
def State.edgeOf (s : State) (d : BitVec 512) (peer : Nat) : Option (BitVec 16) :=
  ((List.range (gEdges d)).map (fun i => s.mem.parcel.readNat (gEdgeTable d + 4 * i) 4)).findSome? (fun e =>
    if bitsOf e 31 18 == peer then some (BitVec.ofNat 16 e) else none)

/-! Trees (R366, R367) -/

/-- A link of the tree at this module: absolute level, the rank at its other end, and whether this module is the sender. -/
structure Hop where
  level : Nat
  rank : Nat
  up : Bool
deriving DecidableEq, Repr

/-- The leaders of the indices of a stage, by lowest rank, or the root in its own (R366, R367). -/
def leaders (key : Nat → Nat) (root : Nat) (ranks : List Nat) : List Nat :=
  ranks.foldl (fun l r => if l.any (fun x => key x == key r) then l else l ++ [if key root == key r then root else r]) []

/-- The links of one stage from level λ on, for the index i of c (rotated), with the leaders by rotated index (R367). -/
def stageHops (base : Nat) (lead : Nat → Nat) (c i : Nat) : Nat → Nat → List Hop
  | 0, _ => []
  | n + 1, k =>
    if i % 2 ^ k != 0 then [{ level := base + k, rank := lead (i - 2 ^ (k - 1)), up := true }]
    else (if i + 2 ^ (k - 1) < c then [({ level := base + k, rank := lead (i + 2 ^ (k - 1)), up := false } : Hop)] else []) ++ stageHops base lead c i n (k + 1)

/-- One stage: hamlet (3 levels from 0), village (4 from 3) or hall (7 from 7), with the rotation that puts the root's index at 0. -/
def stage (base levels : Nat) (ls : List Nat) (root me : Nat) : List Hop :=
  let shift := if ls.contains root then ls.idxOf root else 0
  let c := ls.length
  stageHops base (fun i => ls.getD ((i + shift) % c) 0) c ((ls.idxOf me + c - shift) % c) levels 1

/-- The links of rank `me` in the tree of a root over the members' modules (R366, R367), lowest level first. -/
def treeOf (mods : List Nat) (root me : Nat) : List Hop :=
  let md (r : Nat) : Nat := mods.getD r 0
  let all := List.range mods.length
  let h := stage 0 3 (leaders id root (all.filter (fun r => md r / 8 == md me / 8))) root me
  if h.any (·.up) then h
  else
    let v := stage 3 4 (leaders (fun r => md r / 8) root (all.filter (fun r => md r / 128 == md me / 128))) root me
    if v.any (·.up) then h ++ v
    else h ++ v ++ stage 7 7 (leaders (fun r => md r / 128) root all) root me

/-! Owners (R191) -/

/-- Bands of a layer: master rows cut by 128. -/
def Block.bandsOf (b : Block) (layer : Nat) : Nat :=
  match b.tensor (fld (b.layer layer) 159 144) with
  | some t => ceilDiv t.rows 128
  | none => 0
/-- Bands of the layers before a layer. -/
def Block.bandsBefore (b : Block) (layer : Nat) : Nat := (List.range layer).foldl (fun n l => n + b.bandsOf l) 0
/-- The rank of a group that owns a row of a layer's master weights (R191). -/
def Block.ownerOfRow (b : Block) (d : BitVec 512) (layer row : Nat) : Nat :=
  let band := b.bandsBefore layer + row / 128
  let all := b.bandsBefore b.desc.layer.length
  let n := Nat.max (gMembers d) 1
  ((List.range n).find? (fun r => decide (r * all / n ≤ band) && decide (band < (r + 1) * all / n))).getD 0
/-- The rank that owns a slice (R191, R373). -/
def Block.ownerOf (b : Block) (g : Nat) (d : BitVec 512) (slice : Nat) : Nat :=
  match b.sliceOf g slice with
  | some (layer, t, n) => b.ownerOfRow d layer (n / slicesPerRow t)
  | none => 0

/-- SLICE_ID of a fence marker (R450). -/
def fenceSlice : Nat := 0xFFFFFFF
/-- The root of a part's tree: a slice's owner, or rank 0 for records and markers (R366, R450). -/
def Block.rootOf (b : Block) (g : Nat) (d : BitVec 512) (slice part : Nat) : Nat := if part == 7 then 0 else b.ownerOf g d slice
/-- The links of this module in the tree of a part. -/
def State.hops (s : State) (g : Nat) (d : BitVec 512) (slice part : Nat) : List Hop :=
  treeOf (s.members d) (s.m.rootOf g d slice part) (gRank d)

/-! Packets (R371, R372, R385, R389) -/

/-- TYPE_PARAM of a mill packet (R371). -/
def millParam (g mb part : Nat) (twin sub : Bool) : Nat :=
  putBits (putBits (putBits (putBits (putBits 0 31 16 g) 15 8 mb) 7 5 part) 4 4 (b2n twin)) 3 3 (b2n sub)
/-- TYPE_EXT of a mill packet (R371). -/
def millExt (info slice : Nat) : Nat := putBits (putBits 0 47 28 info) 27 0 slice

/-- h(m) of R389: the header without what differs on the way, then the payload. -/
def millHash (typ param job ext : Nat) (payload : List Byte) : BitVec 64 :=
  let q := mkPkt 0 0 0 0 false typ 0 (if typ == 0x0A then param else putBits param 4 3 0) job ext payload
  crc64 (leBytes 32 q.head.toNat ++ payload)

/-- SEND or RECV of a step's digest of a group grows (R389). -/
def Block.digestAt (b : Block) (g step : Nat) (send : Bool) (h : BitVec 64) : Block :=
  let now := (b.mill.digests.find? (fun x => x.group == g && x.step == step)).getD { group := g, step := step }
  let d := if send then { now with send := now.send + h } else { now with recv := now.recv + h }
  { b with mill := { b.mill with digests := b.mill.digests.filter (fun x => !(x.group == g && x.step == step)) ++ [d] } }
/-- SEND or RECV of the running step's digest of a group grows (R389). -/
def Block.digest (b : Block) (g : Nat) (send : Bool) (h : BitVec 64) : Block := b.digestAt g b.job.step send h

/-- A packet of a group to a rank: to the member and to its twin (R385), over the group's edges (R361); digested once, in the step it belongs to (R389); a mill packet is counted
(R391). -/
def State.sendRank (s : State) (g : Nat) (d : BitVec 512) (rank typ param ext die : Nat) (payload : List Byte) (step : Nat) : State :=
  let (m, w) := s.rankEntry d rank
  let tout (s : State) (x : Nat) : State :=
    s.on (fun b => b.send (mkPkt x die b.moduleId die false typ 0 param b.job.id ext payload) (s.edgeOf d x))
  let s := tout s m
  let s := if w == 0x3FFF then s else tout s w
  s.on (fun b => (b.digestAt g step true (millHash typ param b.job.id ext payload)).bump .contribsSent (b2n (typ != 0x0A)))

/-- The packets of a group down the tree, from the highest level to the lowest (R368). -/
def State.sendDown (s : State) (g : Nat) (d : BitVec 512) (hops : List Hop) (typ param ext die : Nat) (payload : List Byte) (step : Nat) : State :=
  ((hops.filter (fun h => !h.up)).reverse).foldl (fun s h => s.sendRank g d h.rank typ param ext die payload step) s

/-- Bytes of an element of a part (R372): KQ24 or KQ32 codes, 64-bit excesses, 32-byte records. -/
def partWidth (d : BitVec 512) (part : Nat) : Nat := if part == 7 then 32 else if 2 ≤ part then 8 else if gKq24 d then 3 else 4
/-- Elements of a part but records (R372). -/
def partCount (part : Nat) : Nat := if 2 ≤ part then 64 else 128

/-- The payload of a part (R372): a quarter of zeros has none. -/
def partBytes (d : BitVec 512) (part : Nat) (elems : List Int) : List Byte :=
  if 2 ≤ part && part < 6 && elems.all (· == 0) then []
  else (elems.map (fun e => leBytes (partWidth d part) (unsigned (8 * partWidth d part) e))).flatten
/-- The elements of a payload (R372); the KQ code never produced is the smallest value (R60). -/
def partElems (d : BitVec 512) (part : Nat) (payload : List Byte) : List Int :=
  let w := partWidth d part
  if part == 7 then (List.range (payload.length / 32)).map (fun i => (leAt payload (32 * i) 32 : Int))
  else if 2 ≤ part then (List.range (partCount part)).map (fun i => signed (8 * w) (leAt payload (w * i) w))
  else (List.range (partCount part)).map (fun i => max (-(2 ^ (8 * w - 1) - 1)) (signed (8 * w) (leAt payload (w * i) w)))
/-- Elements of a part of KQ codes that hold the code never produced (R60). -/
def partSats (d : BitVec 512) (part : Nat) (payload : List Byte) : Nat :=
  let w := partWidth d part
  if 2 ≤ part then 0 else ((List.range (partCount part)).filter (fun i => leAt payload (w * i) w == 2 ^ (8 * w - 1))).length

/-- The I/O die of a slice's module-mill stage (R356, R357). -/
def millDie (slice part : Nat) : Nat := if part == 7 then 16 else 16 + slice % 2

/-! Combination (R365, R382) -/

/-- MAXLOG of two partials, 0x200 where every contribution was zero (R365, R372). -/
def maxlogUp (i j : Nat) : Nat := if i == 0x200 then j else if j == 0x200 then i else if signed 10 i < signed 10 j then j else i

/-- One scalar record combined with another, by its index (R382, R507). -/
def addRecord (layers idx : Nat) (x y : Int) : Int :=
  let f (v : Int) (hi lo : Nat) : Nat := bitsOf v.toNat hi lo
  let up (hi lo : Nat) : Nat := addSat (f x hi lo) (f y hi lo)
  let most (hi lo : Nat) : Nat := Nat.max (f x hi lo) (f y hi lo)
  if idx == 0 then
    putBits (putBits (putBits 0 255 128 (Nat.min (f x 255 128 + f y 255 128) (2 ^ 128 - 1))) 127 64 (up 127 64)) 63 0 (up 63 0)
  else if idx ≤ layers then putBits (putBits (putBits (putBits 0 255 192 (up 255 192)) 191 128 (up 191 128)) 127 64 (up 127 64)) 31 0 (most 31 0)
  else putBits (putBits (putBits (putBits 0 255 192 (most 255 192)) 191 128 (up 191 128)) 127 64 (up 127 64)) 31 0 (most 31 0)

/-- LAYERS of the loaded almanac (R444). -/
def Block.layers (b : Block) : Nat := match b.job.almanac with
  | some a => a.layers
  | none => 0

/-- Two operands of one part combined (R365, R382); none when their EXP differ. -/
def Block.combineOps (b : Block) (x y : Operand) : Option Operand :=
  let elems :=
    if x.part == 7 then (List.range (Nat.max x.elems.length y.elems.length)).map (fun i => addRecord b.layers (x.slice + i) (x.elems.getD i 0) (y.elems.getD i 0))
    else (x.elems.zip y.elems).map (fun (p, q) => p + q)
  let sub := x.sub || y.sub
  if x.part == 0 then
    if bitsOf x.info 19 10 == bitsOf y.info 19 10 then
      some { x with elems := elems, sub := sub, info := putBits x.info 9 0 (maxlogUp (bitsOf x.info 9 0) (bitsOf y.info 9 0)) }
    else none
  else if x.part == 1 then
    some { x with elems := elems, sub := sub,
                  info := putBits (putBits 0 19 1 (addSatW 19 (bitsOf x.info 19 1) (bitsOf y.info 19 1))) 0 0 (Nat.max (bitsOf x.info 0 0) (bitsOf y.info 0 0)) }
  else some { x with elems := elems, sub := sub }

/-- Operands combined in the order of their levels. -/
def Block.combineAll (b : Block) : Operand → List Operand → Option Operand
  | x, [] => some x
  | x, y :: ys => match b.combineOps x y with
    | some z => Block.combineAll b z ys
    | none => none

/-! Deadlines (R383) -/

/-- The deadline of an operand of a part at a level; none while it is undefined, and for broadcasts and markers. -/
def Block.millDeadline (b : Block) (d : BitVec 512) (g slice mb part level : Nat) : Option Nat :=
  if part == 7 then
    if slice == fenceSlice then none else b.mill.scalarIssued.map (fun t => t + gSlack d + gLevelNs d * level)
  else if 2 ≤ part then
    (b.mill.requests.find? (fun (g', s', m', _) => g' == g && s' == slice && m' == mb)).map (fun (_, _, _, t) => t + gRereduceNs d + gLevelNs d * level)
  else
    match assocGet mb b.job.mbStart, b.job.almanac with
    | some t, some a =>
      let (narrow, wide) := a.mbPred.getD mb (0, 0)
      some (t + (if b.tally.live.sched == 1 then narrow else wide) + gSlack d + gLevelNs d * level)
    | _, _ => none

/-! The held shard (R195, R196) -/

/-- A class J error of the mills. -/
def State.millErr (s : State) (code cause : Nat) : State := s.raiseErr { cls := .j, code := code, at_ := 0, cause := cause }

/-- Counts of the mill in the gradient tensor's KQ slot (R196, R379). -/
def Block.countGrad (b : Block) (g slice : Nat) (c : TallyCtr) (k : Nat) : Block :=
  match b.sliceOf g slice with
  | some (_, t, _) =>
    if k = 0 then b else { b with tally := { b.tally with live := b.tally.live.release [((t.tag, t.format, c), k)] } }
  | none => b

/-- The norm term of a COMPLETE held slice (R199). -/
def normTerm (elems : List Int) (e anchor : Int) : Nat := scaleTrunc (elems.foldl (fun n q => n + q.natAbs * q.natAbs) 0) (2 * e - anchor)
/-- NORM_ANCHOR (R200). -/
def Block.normAnchor (b : Block) : Int := signed 12 (fld b.desc.norm 111 100)
/-- NORM_SAT is set, in the descriptor and for the step (R201). -/
def Block.setNormSat (b : Block) : Block := { b with desc := { b.desc with norm := setFld b.desc.norm 64 64 1 }, tally := { b.tally with normSat := true } }

/-- A norm term enters the module's partial (R199, R201). -/
def Block.addNorm (b : Block) (term : Nat) : Block :=
  let n := b.mill.partial_ + term
  let b := if 2 ^ 128 ≤ n then b.setNormSat else b
  { b with mill := { b.mill with partial_ := Nat.min n (2 ^ 128 - 1) } }

/-- Exponent of the next step (R376). -/
def nextExp (d : BitVec 512) (e : Int) (maxlog : Option Int) : Int :=
  match maxlog with
  | none => e
  | some m => max (-512) (min 511 (m - (Nat.log2 (gLimit d) : Int) + 2))

/-- The exponent-table entry of a slice (R376): STEP_TAG and EXP. -/
def State.expEntry (s : State) (d : BitVec 512) (slice : Nat) : Nat × Int :=
  let e := s.mem.parcel.readNat (gExpTable d + 2 * slice) 2
  (bitsOf e 15 10, signed 10 (bitsOf e 9 0))
/-- The owner writes an exponent-table entry (R376). -/
def State.writeExp (s : State) (d : BitVec 512) (slice step : Nat) (e : Int) : State :=
  s.devWrite (gExpTable d + 2 * slice) (leBytes 2 (putBits (putBits 0 15 10 (step % 64)) 9 0 (unsigned 10 e)))

/-- The held slice of a group and slice number. -/
def Block.heldSlice (b : Block) (g slice : Nat) : Option Held := b.mill.held.find? (fun h => h.group == g && h.slice == slice)
/-- A held slice put in its place. -/
def Block.setHeld (b : Block) (h : Held) : Block :=
  { b with mill := { b.mill with held := b.mill.held.filter (fun x => !(x.group == h.group && x.slice == h.slice)) ++ [h] } }

/-- Where a held slice lies in the held-shard parcel (R195, R197): row and column block of the KQ32 tensor that the update run over its row and columns names as
OPERAND_A (R206). -/
def Block.heldPlace (b : Block) (h : Held) : Option (Tensor × Nat × Nat) :=
  match b.sliceOf h.group h.slice, b.job.almanac with
  | some (layer, g, n), some a =>
    let row := n / slicesPerRow g
    let cb := n % slicesPerRow g
    a.streams.flatten.findSome? (fun op =>
      let o := opOut op
      if opCode op == 8 && opLayer op == layer && b.isUpdate op && o.row ≤ row && row < o.row + opRows op && o.col / 256 ≤ cb && 256 * cb < o.col + 32 * opBlocks op then
        (b.tensor (opA op).tensor).map (fun t => (t, (opA op).row + (row - o.row), ((opA op).col + 256 * cb - o.col) / 256))
      else none)
  | _, _ => none

/-- The bytes of a held slice: KQ32 elements and the trailer (R57, R195). -/
def Held.bytes (h : Held) : List Byte := (h.elems.map (fun q => leBytes 4 (unsigned 32 q))).flatten ++ leBytes 4 (unsigned 10 h.exp)

/-- A held slice is written to the held-shard parcel (R195), with the bytes that its tile leaves over (R280). -/
def State.writeHeld (s : State) (h : Held) : State :=
  match s.m.heldPlace h with
  | some (t, row, cb) =>
    (t.sliceTail row cb).foldl (fun s r => if s.mem.parcel.clear r.1 r.2 == s.mem.parcel then s else s.devWrite r.1 (List.replicate r.2 0))
      (s.devWrite (t.sliceAddr row cb) h.bytes)
  | none => s

/-- What a COMPLETE held slice gives: its norm term (R199, R203) and the next exponent entry (R376). `e` is the exponent of the step before any raise. -/
def State.completeHeld (s : State) (d : BitVec 512) (h : Held) (e : Int) : State :=
  let s := s.on (fun b => if flag (b.layer h.layer) 54 then b.addNorm (normTerm h.elems h.exp b.normAnchor) else b)
  s.writeExp d h.slice (s.m.job.step + 1) (nextExp d e h.maxlog)

/-- A reduced result enters its held slice (R195, R196, R380): `elems` under the step's exponent, or under E + 2 when it was re-reduced. -/
def State.deliver (s : State) (d : BitVec 512) (r : Ready) (elems : List Int) (raised : Bool) : State :=
  let h := (s.m.heldSlice r.group r.slice).getD
    { group := r.group, layer := (match s.m.sliceOf r.group r.slice with | some (l, _, _) => l | none => 0xFFFF), slice := r.slice, exp := r.exp }
  let later := h.raised && !raised
  let new := if later then elems.map (fun q => rneDiv q 4) else elems
  let s := s.on (fun b => b.countGrad r.group r.slice .vanish (if later then ((elems.zip new).filter (fun (q, n) => 4 * n != q)).length else 0))
  match assocGet r.mb h.got with
  | some first => if first == new then s.on (·.bump .exportDups) else s.millErr 0x27 8
  | none =>
    let first := raised && !h.raised
    let old := if first then h.elems.map (fun q => rneDiv q 4) else h.elems
    let s := s.on (fun b => b.countGrad r.group r.slice .vanish (if first then ((h.elems.zip old).filter (fun (q, n) => 4 * n != q)).length else 0))
    let got := h.got ++ [(r.mb, new)]
    let h := { h with elems := if h.got.isEmpty then new else (old.zip new).map (fun (p, q) => p + q), got := got,
                      exp := if first then h.exp + 2 else h.exp, raised := h.raised || raised,
                      maxlog := (match h.maxlog, r.maxlog with | some x, some y => some (max x y) | some x, none => some x | none, y => y),
                      state := if gMicro d ≤ got.length then .complete else .partial_ }
    let s := (s.on (·.setHeld h)).writeHeld h
    if h.state == .complete then s.completeHeld d h r.exp else s

/-- The re-reduced result (R379): elements, and how many were limited and how many changed. -/
def rereduced (d : BitVec 512) (r : Ready) : List Int × Nat × Nat :=
  let s := (r.lo.getD []) ++ (r.hi.getD [])
  let o := ((List.range 4).map (fun q => (assocGet (q + 2) r.quarters).getD (List.replicate 64 0))).flatten
  let cap : Int := (gMembers d * gLimit d : Nat)
  let rs := (s.zip o).map (fun (p, q) =>
    let n := rneDiv (p + q) 4
    let l := max (-cap) (min cap n)
    (l, l != n, 4 * l != p + q))
  (rs.map (·.1), (rs.filter (·.2.1)).length, (rs.filter (·.2.2)).length)

/-- Is a result complete: both halves, and the quarters where it is re-reduced (R378). -/
def Ready.whole (r : Ready) : Bool := r.lo.isSome && r.hi.isSome && (!r.rereduce || 4 ≤ r.quarters.length)

/-- Results are delivered in increasing micro-batch order (R370); a partial that a twin mismatch bars is not released (R392). -/
def State.deliverReady (s : State) (g : Nat) (d : BitVec 512) (slice : Nat) : Nat → State
  | 0 => s
  | n + 1 =>
    let next := match s.m.heldSlice g slice with
      | some h => h.got.length
      | none => 0
    match s.m.mill.ready.find? (fun r => r.group == g && r.slice == slice && r.mb == next && r.whole && !s.m.mill.barred.contains (g, slice, next, false)) with
    | none => s
    | some r =>
      let s := s.on (fun b => { b with mill := { b.mill with ready := b.mill.ready.erase r } })
      let s :=
        if r.rereduce then
          let (es, sat, van) := rereduced d r
          let s := s.on (fun b => (b.countGrad g slice .sat sat).countGrad g slice .vanish van)
          s.deliver d r es true
        else s.deliver d r ((r.lo.getD []) ++ (r.hi.getD [])) false
      State.deliverReady s g d slice n

/-- A waiting result changed, or begun. -/
def Block.onReady (b : Block) (g slice mb : Nat) (f : Ready → Ready) : Block :=
  let r := (b.mill.ready.find? (fun r => r.group == g && r.slice == slice && r.mb == mb)).getD { group := g, slice := slice, mb := mb }
  { b with mill := { b.mill with ready := b.mill.ready.filter (fun r => !(r.group == g && r.slice == slice && r.mb == mb)) ++ [f r] } }

/-! Scalar records (R381, R382, R201) -/

/-- The norm group's descriptor. -/
def Block.normGroup (b : Block) : Option (Nat × BitVec 512) := (b.group (fld b.desc.norm 127 112)).map (fun d => (fld b.desc.norm 127 112, d))

/-- Every record of the module's own partial (R214, R258, R382, R394, R507). -/
def Block.ownRecords (b : Block) : List Int :=
  let rollout := flag b.desc.cache 200
  let r0 : Nat := putBits (putBits (putBits 0 255 128 (if rollout then 0 else b.mill.partial_)) 127 64 b.tally.lastTiles) 63 0 b.tally.lastFallbacks
  let layer (l : Nat) : Int :=
    let c := if rollout then ({} : LayerCounts) else (assocGet l b.tally.layerLast).getD {}
    (putBits (putBits (putBits (putBits 0 255 192 c.nz) 191 128 c.van) 127 64 c.sat) 31 0 c.wmax : Nat)
  (r0 : Int) :: (List.range b.layers).map layer ++ [(b.snap.atBoundary : Int)]

/-- g and the clip factor of a delivered NORM_SUM (R201): g, clip, and whether g exceeded the KF32 range. -/
def clipFactor (sum : Nat) (anchor : Int) (maxNorm : F32) : F32 × F32 × Bool :=
  let e := encodeFloat kf32 .rne (sqrtExt (.fin false sum anchor))
  let past := e.sat || e.code == 0x7F800000
  let g : F32 := if past then 0x7F7FFFFF#32 else BitVec.ofNat 32 e.code
  (g, if isNan maxNorm || ltExt (f32 maxNorm) (f32 g) then f32Div maxNorm g else f32One, past)

/-- Every member computes the clip factor and takes the totals once every record is present (R201, R214, R258). A sum delivered at its limit has saturated somewhere in
the tree (DEDUCED, log 101). -/
def Block.takeScalar (b : Block) : Block :=
  if b.mill.scalarDone || b.mill.scalar.length < b.layers + 2 then b
  else
    let rec0 := (assocGet 0 b.mill.scalar).getD 0
    let (g, clip, past) := clipFactor (fld rec0 255 128) b.normAnchor (BitVec.ofNat 32 (fld b.desc.norm 63 32))
    let b := if past || fld rec0 255 128 == 2 ^ 128 - 1 then b.setNormSat else b
    let layerOf (l : Nat) : Nat × LayerCounts :=
      let r := (assocGet (l + 1) b.mill.scalar).getD 0
      (l, { nz := fld r 255 192, van := fld r 191 128, sat := fld r 127 64, wmax := fld r 31 0 })
    { b with mill := { b.mill with scalarDone := true },
             job := { b.job with clip := if flag b.desc.cache 200 then none else some clip, norm := g },
             tally := { b.tally with jobTiles := fld rec0 127 64, jobFallbacks := fld rec0 63 0, jobNarrow := b.tally.lastNarrow, jobTotals := true,
                                     layerReduced := (List.range b.layers).map layerOf } }

/-- Records delivered to this module (R381). -/
def Block.addScalar (b : Block) (first : Nat) (elems : List Int) : Block :=
  let recs : List (Nat × Record) := ((List.range elems.length).zip elems).map (fun (i, e) => (first + i, BitVec.ofNat 256 e.toNat))
  ({ b with mill := { b.mill with scalar := recs.foldl (fun l (k, v) => assocSet k v l) b.mill.scalar } } : Block).takeScalar

/-! Waiting commands -/

/-- A command that waited completes (R427). -/
def State.endWait (s : State) (w : Wait) (status : Nat) (result : BitVec 128 := 0) (detail : Nat := 0) (superseded : Bool := false) : State :=
  (s.on (fun b => { b with path := { b.path with waits := b.path.waits.filter (fun x => !(x.ring == w.ring && x.tag == w.tag)) } })).complete w.ring
    { tag := w.tag, opcode := w.opcode, status := status, detail := detail, superseded := superseded, noIrq := w.noIrq, result := result }

/-- A FENCE_GROUP completes on the arrival of its result (R450). -/
def State.endFence (s : State) (g id : Nat) : State :=
  let s := s.on (fun b => { b with mill := { b.mill with nodes := b.mill.nodes.filter (fun o => !(o.group == g && o.slice == fenceSlice && o.mb == id)),
                                                         sent := b.mill.sent.filter (· != (g, fenceSlice, id, 7)) } })
  match s.m.path.waits.find? (fun w => match w.wait with
    | .fenceGroup g' id' _ _ _ => g' == g && id' == id
    | _ => false) with
  | some w => s.endWait w 0
  | none => s

/-! Nodes (R367 to R370, R386) -/

/-- The operands of a part taken at this module in the step. -/
def Block.takenOps (b : Block) (g slice mb part : Nat) : List Operand :=
  b.mill.nodes.filter (fun o => o.group == g && o.slice == slice && o.mb == mb && o.part == part && o.taken
    && (o.step == b.job.step || slice == fenceSlice))

/-- The root starts a re-reduction (R378) of a result whose halves are both in: the request goes down the tree. -/
def State.requestRaise (s : State) (g : Nat) (d : BitVec 512) (hops : List Hop) (slice mb : Nat) (e : Int) : State :=
  let s := s.on (fun b =>
    let b := b.bump .rereductions
    { b with mill := { b.mill with requests := b.mill.requests ++ [(g, slice, mb, b.now)] } })
  s.sendDown g d hops 9 (millParam g mb 6 (s.amTwin d) false) (millExt (unsigned 10 (e + 2)) slice) (millDie slice 6) [] s.m.job.step

/-- Excess quarters of a slice and micro-batch from the clip store (R378). -/
def Block.ownQuarter (b : Block) (g slice mb part : Nat) : List Int :=
  (List.range 64).map (fun i => (b.mill.clips.filter (fun c => c.group == g && c.slice == slice && c.mb == mb && c.pos == 64 * (part - 2) + i)).foldl
    (fun n c => n + c.excess) 0)

/-- The leaf of this module in a part's tree. -/
def Block.addLeaf (b : Block) (d : BitVec 512) (g slice mb part : Nat) (elems : List Int) (info : Nat) : Block :=
  let o : Operand := { group := g, slice := slice, mb := mb, part := part, from_ := gRank d, step := b.job.step, elems := elems, info := info,
                       gotPartner := true, gotTwin := true, taken := true, arrivedAt := b.now }
  { b with mill := { b.mill with nodes := b.mill.nodes ++ [o] } }

/-- A node passes a part on once its own leaf and every operand from below are taken (R367, R369); at the root, `root` has it. -/
def State.passOn (s : State) (g slice mb part : Nat) (root : State → BitVec 512 → List Hop → Operand → State) : State :=
  match s.m.group g with
  | none => s
  | some d =>
    let hops := s.hops g d slice part
    let ops := s.m.takenOps g slice mb part
    match ops.find? (fun o => o.from_ == gRank d) with
    | none => s
    | some own =>
      let kids := (hops.filter (fun h => !h.up)).map (fun h => ops.find? (fun o => o.from_ == h.rank))
      if s.m.mill.sent.contains (g, slice, mb, part) || kids.any (·.isNone) then s
      else
        match s.m.combineAll own (kids.filterMap id) with
        | none => s.millErr 0x2C 0
        | some o =>
          let s := s.on (fun b => { b with mill := { b.mill with sent := b.mill.sent ++ [(g, slice, mb, part)] } })
          match hops.find? (·.up) with
          | some h => s.sendRank g d h.rank 8 (millParam g mb part (s.amTwin d) o.sub) (millExt o.info slice) (millDie slice part) (partBytes d part o.elems) s.m.job.step
          | none => root s d hops o

/-- The root has an excess quarter; with the last the re-reduced result is ready (R378, R379). -/
def State.rootQuarter (s : State) (d : BitVec 512) (_ : List Hop) (o : Operand) : State :=
  (s.on (fun b => b.onReady o.group o.slice o.mb (fun r => { r with quarters := assocSet o.part o.elems r.quarters }))).deliverReady o.group d o.slice 256

/-- This module answers a re-reduction with its four quarters (R378). -/
def State.answerRaise (s : State) (g : Nat) (d : BitVec 512) (slice mb : Nat) : State :=
  [2, 3, 4, 5].foldl (fun s q => (s.on (fun b => b.addLeaf d g slice mb q (b.ownQuarter g slice mb q) 0)).passOn g slice mb q State.rootQuarter) s

/-- The root has records or a marker, which go down again (R368, R450); or a half of a result: with both in, too many clips start a re-reduction under E + 2
(R378), and otherwise the result is delivered in its turn (R370). -/
def State.rootPart (s : State) (d : BitVec 512) (hops : List Hop) (o : Operand) : State :=
  let g := o.group
  if o.part == 7 then
    if s.m.mill.barred.contains (g, o.slice, o.mb, true) then s
    else if o.slice == fenceSlice then (s.sendDown g d hops 9 (millParam g o.mb 7 (s.amTwin d) false) (millExt 0 fenceSlice) 16 [] s.m.job.step).endFence g o.mb
    else
      (s.sendDown g d hops 9 (millParam g 0 7 (s.amTwin d) false) (millExt 0 o.slice) 16 (partBytes d 7 o.elems) s.m.job.step).on (·.addScalar o.slice o.elems)
  else if 2 ≤ o.part then s.rootQuarter d hops o
  else
    let s := s.on (fun b => b.onReady g o.slice o.mb (fun r =>
      if o.part == 0 then { r with lo := some o.elems, exp := signed 10 (bitsOf o.info 19 10),
                                   maxlog := if bitsOf o.info 9 0 == 0x200 then none else some (signed 10 (bitsOf o.info 9 0)) }
      else { r with hi := some o.elems, clips := bitsOf o.info 19 1 }))
    match s.m.mill.ready.find? (fun r => r.group == g && r.slice == o.slice && r.mb == o.mb) with
    | some r =>
      if r.lo.isSome && r.hi.isSome && gMembers d < 256 * r.clips && r.exp < 510 then
        let s := s.on (fun b => b.onReady g o.slice o.mb (fun r => { r with rereduce := true }))
        (s.requestRaise g d hops o.slice o.mb r.exp).answerRaise g d o.slice o.mb
      else s.deliverReady g d o.slice 256
    | none => s

/-- A part is looked at again, after an operand of it came or its own leaf. -/
def State.progress (s : State) (g slice mb part : Nat) : State := s.passOn g slice mb part State.rootPart

/-- The module issues its own scalar partial (R381, R394), records 16 to a packet (R372): T_own starts (R383). Without a norm group the module's own
partial is the sum (log 23). To the record of R507 a twin contributes nothing. -/
def State.issueScalars (s : State) : State :=
  let recs := s.m.ownRecords
  let recs := if s.m.normGroup.any (fun x => s.amTwin x.2) then recs.dropLast ++ [0] else recs
  let s := s.on (fun b => { b with mill := { b.mill with scalarIssued := some b.now } })
  match s.m.normGroup with
  | none => s.on (·.addScalar 0 recs)
  | some (g, d) =>
    (List.range (ceilDiv recs.length 16)).foldl (fun s i =>
      (s.on (fun b => b.addLeaf d g (16 * i) 0 7 ((recs.drop (16 * i)).take 16) 0)).progress g (16 * i) 0 7) s

/-- Slices this module owns in a group (R191, R373), as member or twin. -/
def Block.ownedSlices (b : Block) (g : Nat) (d : BitVec 512) : Nat :=
  (b.gradTensors g).foldl (fun n (l, t) => n + slicesPerRow t * ((List.range t.rows).filter (fun r => b.ownerOfRow d l r == gRank d)).length) 0

/-- The groups that the loaded almanac's gradients name. -/
def Block.gradGroups (b : Block) : List Nat :=
  match b.job.almanac with
  | none => []
  | some a => (a.streams.flatten.filter (fun op => opCode op == 3 && opFlag op 7)).foldl (fun l op => insertNew (opAux op) l) []

/-- Is every owned slice of the step COMPLETE, with at least one owned. -/
def Block.shardComplete (b : Block) : Bool :=
  let owned := b.gradGroups.foldl (fun n g => match b.group g with
    | some d => n + b.ownedSlices g d
    | none => n) 0
  0 < owned && (b.mill.held.filter (fun h => h.state == .complete || h.state == .released)).length == owned

/-- The scalar partial follows the last COMPLETE slice (R199, R381), once every die's part of it, its norm terms among it, has reached stage 0 (R357, R343): a die in an
excursion passes none (R538). -/
def State.maybeScalars (s : State) : State :=
  if s.m.mill.scalarIssued.isNone && s.m.shardComplete && (List.range 16).all (fun k => s.m.reaches k 16 && (s.m.die k).hold.isNone) then s.issueScalars else s

/-- One exported slice of a die enters the mill as this module's contribution (R356, R369): its two halves cross the package to the slice's module-mill stage (R24, R343), and wait
at the die while a link on the way is not in service, and while an excursion holds it (R538). -/
def State.contribute (s : State) (x : Inner) : State :=
  match s.m.group x.group with
  | none => s
  | some d =>
    if x.wiped || (s.m.die x.die).hold.isSome || !s.m.reaches x.die (millDie x.slice 0) then s.on (fun b => { b with mill := { b.mill with inner := b.mill.inner ++ [x] } })
    else
      let lo := putBits (putBits 0 19 10 (unsigned 10 x.exp)) 9 0 (match x.maxlog with | some m => unsigned 10 m | none => 0x200)
      let hi := putBits (putBits 0 19 1 (Nat.min x.clips (2 ^ 19 - 1))) 0 0 (b2n x.lost)
      let half (s : State) (part : Nat) (elems : List Int) (info : Nat) : State :=
        (s.on (fun b =>
          let p := mkPkt b.moduleId (millDie x.slice 0) b.moduleId x.die false 8 0 (millParam x.group x.mb part (s.amTwin d) false) b.job.id (millExt info x.slice) (partBytes d part elems)
          (b.within p).addLeaf d x.group x.slice x.mb part elems info)).progress x.group x.slice x.mb part
      (half (half s 0 (x.elems.take 128) lo) 1 (x.elems.drop 128) hi).maybeScalars

/-- The contributions that waited within the package go on where they may (R343); operations kept for them are free (R473). -/
def State.contributeAll (s : State) : State :=
  let xs := s.m.mill.inner
  if xs.isEmpty then s
  else (xs.foldl State.contribute (s.on (fun b => { b with mill := { b.mill with inner := [] } }))).on (fun b => xs.foldl (fun b x => b.freeRetained x.croft) b)

/-! Broadcasts (R374) -/

/-- A broadcast-table entry (R444): base, bytes, group, token, owner's rank. -/
structure Bcast where
  base : Nat
  bytes : Nat
  group : Nat
  token : Nat
  owner : Nat
deriving DecidableEq, Repr
def bcastOf (v : BitVec 128) : Bcast :=
  { base := fld v 127 76, bytes := 32768 * fld v 75 48, group := fld v 47 32, token := fld v 31 16, owner := fld v 15 0 }
/-- The broadcast table. -/
def Block.bcasts (b : Block) : List Bcast := match b.job.almanac with
  | some a => a.bcast.map bcastOf
  | none => []

/-- The packets of a range go down the tree, 512 bytes each, for one chunk of it (R368, R374). -/
def State.sendChunk (s : State) (e : Bcast) (idx : Nat) (d : BitVec 512) (hops : List Hop) (a : Nat) (bytes : List Byte) : State :=
  s.sendDown e.group d hops 0x0A (putBits (putBits 0 31 16 e.group) 15 0 idx) (a / 16) 16 bytes s.m.job.step

/-- The token of a broadcast range is set (R374): no croft sets it, so no excursion of a die holds it back (R538). The stalls that it ends were on the fabric (R303). -/
def Block.bandToken (b : Block) (tok : Nat) : Block :=
  if tok < 0x1000 || tok == 0xFFFF then b
  else (({ b.noteTransfer 0 tok 3 5 with tokens := { b.tokens with shared := insertNew tok b.tokens.shared } } : Block)).settleStalls

/-- The owner starts a broadcast (R374); its own token is set, since it holds the range (log 24). -/
def State.startBcast (s : State) (idx : Nat) (e : Bcast) : State :=
  match s.m.group e.group with
  | none => s
  | some d =>
    let hops := treeOf (s.members d) e.owner (gRank d)
    let s := s.on (fun b => ({ b with mill := { b.mill with started := b.mill.started ++ [idx] } } : Block).bandToken e.token)
    (List.range (ceilDiv e.bytes 512)).foldl (fun s k =>
      s.sendChunk e idx d hops (e.base + 512 * k) (s.mem.parcel.readBytes (e.base + 512 * k) 512)) s

/-- Chunks of 512 bytes of a broadcast range (R374). -/
def Bcast.chunks (e : Bcast) : Nat := ceilDiv e.bytes 512

/-- Is every byte of a range delivered: each chunk came, and no write to the range waits (R331, R374). -/
def Block.bcastWhole (b : Block) (e : Bcast) (r : BcastRx) : Bool :=
  (List.range e.chunks).all (fun k => r.chunks.any (fun c => c.2 == k))
    && !b.tiers.heldWrites.any (fun w => w.owner.isNone && w.address < e.base + e.bytes && e.base < w.address + w.bytes.length)

/-- The tokens of the ranges now delivered are set (R374). -/
def Block.settleBcasts (b : Block) : Block :=
  b.mill.broadcasts.foldl (fun b r =>
    match b.bcasts[r.entry]? with
    | some e =>
      if r.told || !b.bcastWhole e r then b
      else ({ b with mill := { b.mill with broadcasts := b.mill.broadcasts.map (fun (x : BcastRx) => if x == r then { x with told := true } else x) } } : Block).bandToken e.token
    | none => b) b

/-- The update runs of the module's croft streams, by croft and index. -/
def Block.updateRuns (b : Block) : List (Nat × Nat) :=
  match b.job.almanac with
  | none => []
  | some a => ((List.range a.streams.length).map (fun c =>
      ((List.range (a.streams.getD c []).length).filter (fun i => b.isUpdate (b.op c i))).map (fun i => (c, i)))).flatten

/-- What an update run writes of its layer's copies (R208, R211). -/
def Block.copyRanges (b : Block) (op : BitVec 512) : List Range :=
  let ld := b.layer (opLayer op)
  [fld ld 207 192, fld ld 223 208].map (fun i => b.refRanges { tensor := i, row := (opOut op).row, col := (opOut op).col } (opRows op) (32 * opBlocks op)) |>.flatten

/-- Has an operation of the step committed (R472). -/
def Block.committed (b : Block) (c i : Nat) : Bool :=
  !(b.croft c).todo.contains i && !(b.croft c).journal.any (fun e => e.index == i && e.state != .retained)

/-- A broadcast of this module starts when the update runs that write its range have committed; a range none of them writes (exponent entries, R376) goes
with the last of them (R374; log 24). -/
def State.startBcasts (s : State) : State :=
  let runs := s.m.updateRuns
  ((List.range s.m.bcasts.length).zip s.m.bcasts).foldl (fun s (idx, e) =>
    match s.m.group e.group with
    | none => s
    | some d =>
      let mine := runs.filter (fun (c, i) => (s.m.copyRanges (s.m.op c i)).any (meets (false, e.base, e.bytes)))
      let ws := if mine.isEmpty then runs else mine
      if e.owner == gRank d && !s.m.mill.started.contains idx && !ws.isEmpty && ws.all (fun (c, i) => s.m.committed c i) then s.startBcast idx e
      else s) s

/-- Did the mill's adders work between two states (R100, R365, R537)? -/
def State.added (s t : State) : Bool :=
  s.m.mill.nodes != t.m.mill.nodes || s.m.mill.parts != t.m.mill.parts || s.m.mill.sent != t.m.mill.sent || s.m.mill.held != t.m.mill.held || s.m.mill.partial_ != t.m.mill.partial_ || s.m.mill.scalar != t.m.mill.scalar

/-- What a command came to whose combinations the duplicated adders have judged (R537): where they disagree on one, MILL_MISMATCH. -/
def State.judged (s : State) (adderOk : Bool) (t : State) : State :=
  if adderOk || !s.added t then t else (t.on (·.bump .millDupMismatches)).millErr 0x2C 7

/-! What a step boundary leaves (R195, R377, R386, R390) -/

/-- After the clear of a boundary the tokens of the bands that the ended step has brought are set for the step that begins, whose products wait on them (R182, R211;
DEDUCED, log 28): those delivered, and those this module owns. -/
def Block.bandTokens (b : Block) : Block :=
  ((List.range b.bcasts.length).zip b.bcasts).foldl (fun b (i, e) =>
    if b.mill.started.contains i || b.mill.broadcasts.any (fun r => r.entry == i && !r.old && r.told) then b.bandToken e.token else b) b

/-- At the first boundary of a job the bands are those that lie in the copies, and every token of a range is set (R182, R211; DEDUCED, log 28). -/
def Block.firstTokens (b : Block) : Block := b.bcasts.foldl (fun b e => b.bandToken e.token) b

/-- Held slices, the clip store and the step's sums are empty again; operands of the ended step go, but those whose second copy is still to come. A
range not yet delivered belongs to the ended step (R511; log 29). -/
def Block.millBoundary (b : Block) : Block :=
  let step := b.job.step
  { b with mill := { b.mill with nodes := b.mill.nodes.filter (fun o => step < o.step || o.slice == fenceSlice || o.gotPartner != o.gotTwin),
                                 sent := b.mill.sent.filter (fun k => k.2.1 == fenceSlice), held := [], ready := [], clips := [], requests := [], barred := [], inner := [], lastStep := some step,
                                 partial_ := 0, scalarIssued := none, scalar := [], scalarDone := false, started := [], waits := [],
                                 digests := b.mill.digests.filter (fun x => step < x.step + 4),
                                 broadcasts := (List.range b.bcasts.length).map (fun i =>
                                   match b.mill.broadcasts.find? (fun r => r.entry == i && !r.old) with
                                   | some r => { r with old := true }
                                   | none => { entry := i, old := true }) },
           job := { b.job with clip := none },
           dies := b.dies.map (fun (d : Die) => { d with exports := [] }),
           crofts := b.crofts.map (fun (c : Croft) => { c with exports := [] }) }

end Sys2Proof.Machine
end

