-- ==== Sys2Proof/Machine/Commit.lean ====
section
/-! DEFINITION. Completion of operations and commits (R182, R183, R472), and what a commit sets off: tokens and counts of a span (R254), held slices
(R195), broadcasts (R374) and the scalar partial (R394). -/
namespace Sys2Proof.Machine

/-- One bank's counts added to another (R224, R255). -/
def TallyBank.merge (t u : TallyBank) : TallyBank :=
  let t := t.release u.counts
  let t := u.maxAbs.foldl (fun t (tag, v) => t.foldMax tag v) t
  let t := u.layers.foldl (fun t ((l, c), k) => t.layerUp l c k) t
  { t with owlJumps := u.owlJumps.foldl (fun l (tag, k) => assocSet tag (addSatW 16 ((assocGet tag l).getD 0) k) l) t.owlJumps,
           modTiles := addSat t.modTiles u.modTiles, modFallbacks := addSat t.modFallbacks u.modFallbacks,
           owlAcc := u.owlAcc.foldl (fun l (tag, a, n) => assocSet tag (((assocGet tag l).getD (0, 0)).1 + a, ((assocGet tag l).getD (0, 0)).2 + n) l) t.owlAcc }

/-- The shared tokens that a span held back are set (R254). -/
def Block.releaseTokens (b : Block) (croft : Nat) : Block :=
  let ts := (b.tokens.spanHeld.filter (fun x => x.1 == croft)).map (·.2)
  { b with tokens := { b.tokens with spanHeld := b.tokens.spanHeld.filter (fun x => x.1 != croft), shared := ts.foldl (fun l t => insertNew t l) b.tokens.shared } }

/-- The layer counts of two parts together (R213). -/
def LayerCounts.add (a b : LayerCounts) : LayerCounts := { nz := a.nz + b.nz, van := a.van + b.van, sat := a.sat + b.sat, wmax := Nat.max a.wmax b.wmax }

/-- Layer counts grow by those of an update run (R213). -/
def addLayer (l : List (Nat × LayerCounts)) (layer : Nat) (c : LayerCounts) : List (Nat × LayerCounts) :=
  assocSet layer (((assocGet layer l).getD {}).add c) l

/-- The closing COMMIT of a span: its counts enter the live tally and the layer counts, and its tokens are set (R213, R254); a span past 250 us counts in
SPAN_OVERRUN. -/
def Block.closeSpan (b : Block) (croft : Nat) : Block :=
  let c := b.croft croft
  match c.journal.find? (fun e => e.span && e.state != .retained) with
  | none => b.releaseTokens croft
  | some e =>
    let live := b.tally.live.merge c.spanBank
    let live := if 250000 < b.now - c.commitAt then live.layerUp (opLayer e.op) .spanOverrun 1 else live
    let layers := c.spanLayers.foldl (fun l x => addLayer l x.1 x.2) b.tally.layerNow
    (({ b with tally := { b.tally with live := live, layerNow := layers } } : Block).onCroft croft (fun c =>
      { c with spanBank := {}, spanLayers := [], spanTried := [], spanSeen := [] })).releaseTokens croft

/-- The held slices that a committing update run read are RELEASED (R195). -/
def Block.releaseHeld (b : Block) (op : BitVec 512) : Block :=
  match b.gradGroup (opLayer op) with
  | none => b
  | some g =>
    let ids := ((List.range (opRows op)).map (fun j => (List.range (ceilDiv ((opOut op).col % 256 + 32 * opBlocks op) 256)).map (fun k =>
      b.sliceId g (opLayer op) ((opOut op).row + j) ((opOut op).col / 256 + k)))).flatten
    { b with mill := { b.mill with held := b.mill.held.map (fun (h : Held) => if h.group == g && ids.contains h.slice then { h with state := HeldState.released } else h) } }

/-- Has every croft committed every operation of the step and exported its slices, and every flush completed (R35, R377, R408)? A WAIT_TIME at the end of a stream does not hold the boundary
(R188). -/
def Block.stepDone (b : Block) : Bool :=
  b.cache.flushes.isEmpty && (List.range b.crofts.length).all (fun n =>
    let c := b.croft n
    c.todo.all (fun i => opCode (b.op n i) == 0x1A) && c.redo.isEmpty && c.exports.isEmpty && c.journal.all (fun e => e.state == .retained))

/-- Is each of some operations of a croft one that commits nothing: a FENCE_CROFT, a WAIT_TIME, a NOP, or one that the schedule excludes (R178, R180)? -/
def Block.commitsNothing (b : Block) (croft : Nat) (todo : List Nat) : Bool :=
  todo.all (fun i => [0x19, 0x1A, 0x1F].contains (opCode (b.op croft i)) || b.skips (b.op croft i))

/-- Has the last commit of the step been made: nothing that issued or may issue is left to commit (R394)? -/
def Block.lastCommitted (b : Block) : Bool :=
  (List.range b.crofts.length).all (fun n =>
    let c := b.croft n
    b.commitsNothing n c.todo && c.redo.isEmpty && c.journal.all (fun e => e.state == .retained))

/-- The slices that the module owns in the step (R191). -/
def Block.ownsSlices (b : Block) : Bool := b.gradGroups.any (fun g => match b.group g with
  | some d => 0 < b.ownedSlices g d
  | none => false)

/-- What a commit sets off: broadcasts (R374), and with the step's last commit the scalar partial of a module without owned slices (R394). -/
def State.afterCommit (s : State) (updates : Bool) : State :=
  let s := if updates then s.startBcasts else s
  if s.m.jobRuns && s.m.job.begun && s.m.lastCommitted && s.m.mill.scalarIssued.isNone && !s.m.ownsSlices then s.issueScalars else s

/-- Does the commit of a croft wait for a flush of the cache (R408): the step's last, with only some operations after it that commit nothing? -/
def Block.flushFirst (b : Block) (croft : Nat) (after : List Nat) : Bool := b.commitsNothing croft after && !b.cache.flushes.isEmpty

/-- Has every operation in flight of the croft completed, but those whose writes wait for uncommitted readers or for a page (R475)? -/
def Block.drained (b : Block) (croft : Nat) : Bool :=
  (b.croft croft).inFlight.all (fun e => b.tiers.heldWrites.any (fun w => w.owner == some (croft, e.index)))

/-- The completed entries of a croft commit; writes that waited for them take effect (R472, R475). An excursion of the die holds every commit (R538), a flush
the last of the step (R408). -/
def State.commitCroft (s : State) (croft : Nat) : State :=
  if (s.m.die (dieOf croft)).hold.isSome || s.m.flushFirst croft (s.m.croft croft).todo then s
  else
    let ups := ((s.m.croft croft).journal.filter (fun e => e.state == .done && s.m.isUpdate e.op)).map (·.op)
    let s := (s.on (fun b => ((ups.foldl (fun b op => b.releaseHeld op) b).commitEntries croft).onCroft croft (fun c => { c with forcing := false }))).releaseWrites.on (·.settleBcasts)
    s.afterCommit (!ups.isEmpty)

/-- An operation is complete (R182); a croft that drains for a forced commit commits once nothing else is in flight (R183, R475). -/
def State.opDone (s : State) (croft i : Nat) : State :=
  let s := s.on (fun b => (b.completeOp croft i).settleStalls)
  if (s.m.croft croft).forcing && s.m.drained croft then s.commitCroft croft else s

/-- The check at issue rejects an operation (R179), which may leave nothing of the step to commit (R394). -/
def State.reject (s : State) (croft i : Nat) : State := (s.on (fun b => b.rejectOp croft i)).afterCommit false

end Sys2Proof.Machine
end

