-- ==== Sys2Proof/Machine/Operands.lean ====
section
/-! DEFINITION. Operands of the arrays: direct and transposed reads, tags and squares (R148, R158 to R161), companions and patched squares (R246, R251),
scales and anchors (R65, R67, R96), and products, groups, runs and promotion (R83 to R94, R145). -/
namespace Sys2Proof.Machine

/-- An element as an array reads it: its code value, and its side value where it is escaped (R83, R145). -/
structure El where
  v : Ext := .fin false 0 0
  code : Nat := 0
  esc : Option Ext := none
  pad : Bool := false
deriving DecidableEq, Repr

/-- A contraction block of 32 elements of one line of an operand: row scale (none: unscaled), shift, elements; the tally tag of the tensor whose streams
disagree, or whose scales differ down the block (R148, R161); whether it lies under an invalid row scale, and what its reads count (R52, R67). -/
structure Blk where
  scale : Option Nat := none
  shift : Nat := 0
  els : List El := []
  tagBad : Option Nat := none
  squareBad : Option Nat := none
  invalid : Bool := false
  reads : Counts := []
deriving DecidableEq, Repr

/-- Where an operand is read: its tensor, and the PATCH companion with its presence map for a cascade (R250, R251). -/
structure Src where
  t : Tensor
  patch : Option (Tensor × Nat) := none
deriving DecidableEq, Repr

/-- The presence bit of a square (R250). -/
def presence (m : Memory) (base : Nat) (t : Tensor) (row col : Nat) : Bool :=
  let i := row / 128 * t.spr + col / 128
  (m.parcel.read (base + i / 8)).getLsbD (i % 8)

/-- The tensor a segment is read from (R251). -/
def Src.at_ (m : Memory) (s : Src) (row col : Nat) : Tensor :=
  match s.patch with
  | some (c, base) => if presence m base s.t row col then c else s.t
  | none => s.t

/-- An element of a segment: an escape reads as 0 with its side value, or as 0 counted as zero where the tensor has no magpie (R52, R83, R145); under an
invalid row scale every element reads as 0 (R67). -/
def elemOf (m : Memory) (t : Tensor) (g : Seg) (pos : Nat) : El :=
  let code := g.codes.getD pos 0
  if t.scaled && !scaleOk (recScale g.scale) then {}
  else
    let side := if t.magpie then sideValue m t g pos else none
    match side with
    | some v => if escapeCode t.format == some code || 4 ≤ t.format then { v := .fin false 0 0, code := code, esc := some (decodeFloat kf16 v) }
                else { v := codeValue t.format code, code := code }
    | none => { v := codeValue t.format code, code := code }

/-- Is the element an escape code that reads as zero (R52). -/
def zeroEscape (t : Tensor) (code : Nat) : Bool := !t.magpie && escapeCode t.format == some code

/-- Is the row scale of a segment invalid (R67). -/
def scaleBad (t : Tensor) (g : Seg) : Bool := t.scaled && !scaleOk (recScale g.scale)

/-- What reading positions of a segment counts: escapes read as zero (R52); under an invalid row scale all its elements, where it is first met (R67). -/
def segReads (t : Tensor) (g : Seg) (first : Bool) (ps : List Nat) : Counts :=
  if scaleBad t g then (if first then [((t.tag, t.format, TallyCtr.nonfin), g.valid)] else [])
  else
    let z := (ps.filter (fun p => zeroEscape t (g.codes.getD p 0))).length
    if z = 0 then [] else [((t.tag, t.format, TallyCtr.zeros), z)]

/-- One contraction block of a direct read: 32 elements of a stored row from a column (R158). `first` says whether the line meets the segment here first. -/
def directBlk (m : Memory) (croft : Nat) (src : Src) (row col : Nat) (first : Bool) : Blk :=
  let t := src.at_ m row col
  let g := readSeg m croft t row (col / 128)
  let p := col % 128
  let n := Nat.min 32 (t.cols - col)
  { scale := if t.scaled then some (recScale g.scale) else none,
    shift := if t.scaled then recShift g.scale (p / 32) else 0,
    els := (List.range 32).map (fun i => if i < n then elemOf m t g (p + i) else { pad := true }),
    tagBad := if col < 128 * t.spr && tagBad m t (t.seg row (col / 128)) g then some t.tag else none,
    invalid := n != 0 && scaleBad t g,
    reads := if n = 0 then [] else segReads t g first ((List.range n).map (p + ·)) }

/-- One contraction block of a transposed read: 32 stored rows of one column (R158, R161). Rows past ROWS are padding and unchecked (R179). -/
def transBlk (m : Memory) (croft : Nat) (src : Src) (row col : Nat) (firstCol : Bool) : Blk :=
  let rows := (List.range 32).filter (fun i => row + i < src.t.rows)
  let segs := rows.map (fun i => let t := src.at_ m (row + i) col; (t, readSeg m croft t (row + i) (col / 128), row + i))
  let p := col % 128
  let first := segs.head?
  let scales := segs.map (fun (t, g, _) => (t.tag, if t.scaled then some (recScale g.scale, recShift g.scale (p / 32)) else none))
  { scale := match first with
      | some (t, g, _) => if t.scaled then some (recScale g.scale) else none
      | none => none,
    shift := match first with
      | some (t, g, _) => if t.scaled then recShift g.scale (p / 32) else 0
      | none => 0,
    els := segs.map (fun (t, g, _) => elemOf m t g p) ++ List.replicate (32 - segs.length) { pad := true },
    tagBad := (segs.find? (fun (t, g, r) => tagBad m t (t.seg r (col / 128)) g)).map (fun (t, _, _) => t.tag),
    squareBad := (scales.find? (fun x => some x.2 != scales.head?.map (·.2))).map (·.1),
    invalid := segs.any (fun (t, g, _) => scaleBad t g),
    reads := segs.foldl (fun c (t, g, _) => mergeCounts c (segReads t g firstCol [p])) [] }

/-- The blocks of one line of an operand: a streamed row or an output column (R153, R158). -/
def lineBlks (m : Memory) (croft : Nat) (src : Src) (r : BlockRef) (transp : Bool) (line blocks : Nat) : List Blk :=
  (List.range blocks).map (fun i =>
    if transp then transBlk m croft src (r.row + 32 * i) (r.col + line) (line == 0 || (r.col + line) % 128 == 0)
    else directBlk m croft src (r.row + line) (r.col + 32 * i) (i == 0 || (r.col + 32 * i) % 128 == 0))

/-- An operand: its lines. -/
def operandLines (m : Memory) (croft : Nat) (src : Src) (r : BlockRef) (transp : Bool) (lines blocks : Nat) : List (List Blk) :=
  (List.range lines).map (fun i => lineBlks m croft src r transp i blocks)

/-! Products -/

/-- Exact multiples of one half as twice their value: the FA's code values (R83). -/
def twice : Ext → Int
  | .fin neg n e => signInt neg (scaleTrunc n (e + 1))
  | _ => 0

/-- Is a code value finite. -/
def Ext.isFin : Ext → Bool
  | .fin _ _ _ => true
  | _ => false

/-- A BA product: sign and exact magnitude; none where it is zero or not finite (R84, R85). -/
def baProduct (a b : Ext) : Option (Bool × Nat × Int) :=
  match a, b with
  | .fin sa m e, .fin sb n f => if m * n = 0 then none else some (sa != sb, m * n, e + f)
  | _, _ => none

/-- The group sum on the BA and its E_g (R88). -/
def baGroup (ps : List (Option (Bool × Nat × Int))) : Option (Int × Int) :=
  let l := ps.filterMap id
  match l.map (fun (_, m, e) => floorLog2 m e) with
  | [] => none
  | x :: xs =>
    let eg := xs.foldl max x
    some (l.foldl (fun s (neg, m, e) => s + signInt neg (scaleTrunc m (e - (eg - 39)))) 0, eg)

/-- Groups of g consecutive elements. -/
def chunks {α : Type} (g : Nat) : Nat → List α → List (List α)
  | 0, _ => []
  | k + 1, l => if l.isEmpty then [] else l.take g :: chunks g k (l.drop g)

/-- What the groups of a run add to its pail, and the pail's grid exponent; none where the run promotes nothing (R88, R90, R91). -/
def runTerms (fa : Bool) (groups : List (List (El × El))) : Option (List Int × Int) :=
  if fa then some (groups.map (fun g => g.foldl (fun s (a, b) => s + twice a.v * twice b.v) 0), -2)
  else
    let gs := groups.map (fun g => baGroup (g.map (fun (a, b) => baProduct a.v b.v)))
    match (gs.filterMap id).map (·.2) with
    | [] => none
    | x :: xs =>
      let er := xs.foldl max x
      some (gs.map (fun g => match g with
        | some (v, eg) => (shiftTrunc v (eg - er)).1
        | none => 0), er - 39)

/-- A run's pail and its grid exponent; none where the run promotes nothing (R90, R91). -/
def runPail (fa : Bool) (groups : List (List (El × El))) : Option (Int × Int) :=
  (runTerms fa groups).map (fun (l, e) => (l.foldl (· + ·) 0, e))

/-- The integer added without bound and limited (R94). SAT freezes the integer. -/
def Barrel.add (b : Barrel) (inc : Int) : Barrel :=
  if b.sat then b
  else
    let s := b.int + inc
    if (2 : Int) ^ 63 - 1 < s then { b with int := 2 ^ 63 - 1, sat := true }
    else if s < -((2 : Int) ^ 63 - 1) then { b with int := -(2 ^ 63 - 1), sat := true }
    else { b with int := s }

/-- Significand and exponent of a block's row scale (R92): unscaled is 1.0. -/
def Blk.parts (b : Blk) : Nat × Int := match b.scale with
  | some s => scaleParts s
  | none => (128, -7)

/-- Promotion of a run (R92, R93): the barrel, 1 where bits were dropped, and the increment. -/
def promote (br : Barrel) (pail : Option (Int × Int)) (a b : Blk) : Barrel × Nat × Int :=
  match pail with
  | none => (br, 0, 0)
  | some (p, c) =>
    let (ma, qa) := a.parts
    let (mb, qb) := b.parts
    let (inc, lost) := shiftTrunc (p * ma * mb) (c + qa + qb - a.shift - b.shift - br.anchor)
    if br.sat then (br, 0, 0) else (br.add inc, b2n lost, inc)

/-- The value of an element for the escape adder: its side value, or its value by R65 (R145). -/
def Blk.valueOf (b : Blk) (e : El) : Ext :=
  match e.esc with
  | some v => v
  | none =>
    let (ms, qs) := b.parts
    (mulExt e.v (.fin false ms qs)).scale (-(b.shift : Int))

/-- The escape increments of a run, in increasing contraction index (R145). A barrel with SAT set ignores an increment and counts no vanish for it (DESIGN
CHOICE, log 53). -/
def escapes (br : Barrel) (a b : Blk) : List (El × El) → Barrel × Nat × Int
  | [] => (br, 0, 0)
  | (x, y) :: rest =>
    if x.esc.isNone && y.esc.isNone || x.pad || y.pad then escapes br a b rest
    else
      let (br', v, d) : Barrel × Nat × Int := match mulExt (a.valueOf x) (b.valueOf y) with
        | .fin neg m e =>
          let (inc, lost) := shiftTrunc (signInt neg m) (e - br.anchor)
          if br.sat then (br, 0, 0) else (br.add inc, b2n lost, inc)
        | _ => ({ br with nonfin := true }, 0, 0)
      let (out, w, f) := escapes br' a b rest
      (out, v + w, d + f)

/-- The runs of a block, from its groups (R86, R89). -/
def runsOf (group promoteN : Nat) (pairs : List (El × El)) : List (List (List (El × El))) :=
  chunks promoteN 32 (chunks group 32 pairs)

/-- One block of the contraction added to a barrel: each run promoted, then its escapes (R89 to R94, R145). A product that is not finite sets NONFIN (R85). -/
def addBlock (fa : Bool) (group promoteN : Nat) (br : Barrel) (a b : Blk) : Barrel × Nat × Int :=
  let pairs := (a.els.zip b.els).map (fun (x, y) => if x.pad || y.pad then (({ pad := true } : El), ({ pad := true } : El)) else (x, y))
  (runsOf group promoteN pairs).foldl (fun (br, v, d) run =>
    let flat := run.flatten
    let br := if !fa && flat.any (fun (x, y) => !x.pad && (!x.v.isFin || !y.v.isFin)) then { br with nonfin := true } else br
    let (br, v1, d1) := promote br (runPail fa run) a b
    let (br, v2, d2) := escapes br a b flat
    (br, v + v1 + v2, d + d1 + d2)) (br, 0, 0)

/-- The anchor of R96 from the fl of both lines' segments, the contraction length without padding, and HEADROOM; and whether it was clamped. -/
def anchorOf (fa fb : Int) (n : Nat) (headroom : Int) : Int × Bool :=
  let a := fa + fb + 2 + ceilLog2 (Nat.max n 1) + headroom - 63
  let c := max (-512) (min 511 a)
  (c, c != a)

/-- The largest fl of a line's blocks; that of an unscaled one is 0 (R96). Blocks of padding beyond the stored segments have no scale. -/
def maxFl (line : List Blk) : Int :=
  match line.filterMap (fun b => match b.scale with
    | some s => some (scaleFl s)
    | none => if b.els.all (·.pad) then none else some 0) with
  | [] => 0
  | x :: xs => xs.foldl max x

/-- What an accumulation gives: barrels, the anchors it started on and whether they were clamped, VANISH_COUNT, CLAMP, which bits this operation set (R98, R99, R234), the checksum barrels of its rows or columns, and its
product and run comparisons (R105). -/
structure AccOut where
  barrels : List (List Barrel)
  anchors : List (List (Int × Bool))
  vanish : Nat
  clamp : Bool
  setSat : Bool
  setNonfin : Bool
  sums : List Int
  products : Bool
  runs : Bool
deriving DecidableEq, Repr

/-- One output element of an accumulation: its barrel, its vanishes, whether its anchor was clamped, what it started from, and the sum of its increments. -/
structure Cell where
  br : Barrel
  vanish : Nat
  clamp : Bool
  start : Barrel
  sum : Int
deriving DecidableEq, Repr

/-- Contraction elements of a line without padding. -/
def lineLength (line : List Blk) : Nat := line.foldl (fun n b => n + (b.els.filter (fun e => !e.pad)).length) 0

/-- The anchor an accumulation computes for an output element, and whether it was clamped (R95, R96): from the lines of the whole contraction (WHOLE) or of the
part (AUTO), or as given. -/
def startAnchor (acc extra : Nat) (la lb wa wb : List Blk) : Int × Bool :=
  match bitsOf acc 7 6 with
  | 2 => (min 511 (signed 10 (bitsOf acc 17 8) + extra), false)
  | mode =>
    let (xa, xb) := if mode = 0 then (wa, wb) else (la, lb)
    anchorOf (maxFl xa) (maxFl xb) (Nat.min (lineLength xa) (lineLength xb)) (min 255 (signed 9 (bitsOf acc 26 18) + extra))

/-- The barrel of one output element (R86 to R98, R145). `la` and `lb` are the lines that the operation handles, `wa` and `wb` those of the whole contraction; `fixed` is the
anchor that an earlier attempt of the entry computed (R108). -/
def accumulate (fa : Bool) (acc : Nat) (extra : Nat) (prior : Barrel) (fixed : Option (Int × Bool)) (la lb wa wb : List Blk) : Cell :=
  let group := 4 * 2 ^ bitsOf acc 1 0
  let prom := 2 ^ bitsOf acc 4 2
  let (start, clamp) : Barrel × Bool :=
    if bitsOf acc 5 5 == 1 then (prior, false) else let (a, c) := fixed.getD (startAnchor acc extra la lb wa wb); ({ anchor := a }, c)
  let (br, v, d) := (la.zip lb).foldl (fun (br, v, d) (a, b) => let (br', w, f) := addBlock fa group prom br a b; (br', v + w, d + f)) (start, 0, (0 : Int))
  { br := br, vanish := v, clamp := clamp, start := start, sum := d }

/-- An entry of a barrel file (R154). An entry that no tile has written since a reset holds the integer 0 on anchor 0, SAT and NONFIN clear (DESIGN CHOICE,
log 95). -/
def barrelAt (file : List (List Barrel)) (i j : Nat) : Barrel := ((file[i]?.getD [])[j]?).getD {}

/-- Barrels written into a barrel file: the other entries stay (R154). -/
def mergeBarrels : List (List Barrel) → List (List Barrel) → List (List Barrel)
  | old, [] => old
  | [], new => new
  | o :: os, n :: ns => (n ++ o.drop n.length) :: mergeBarrels os ns

/-- A code value on the grid 2^-150, of which every finite code is a multiple; 0 where it is not finite (R85). -/
def onGrid : Ext → Int
  | .fin neg m e => signInt neg (scaleTrunc m (e + 150))
  | _ => 0

/-- The pairs of elements of two lines, padding left out (R62). -/
def linePairs (la lb : List Blk) : List (El × El) :=
  ((la.map (·.els)).flatten.zip (lb.map (·.els)).flatten).map (fun (x, y) => if x.pad || y.pad then (({ pad := true } : El), ({ pad := true } : El)) else (x, y))

/-- The product comparison of R105: for each element of a streamed line, the sum of its products over the stationary lines against its product with their sum. -/
def productCheck (streamed stationary : List (List Blk)) : Bool :=
  let b := stationary.map (fun l => (l.map (·.els)).flatten.map (fun e => onGrid e.v))
  streamed.all (fun line => ((List.range (32 * line.length)).zip (line.map (·.els)).flatten).all (fun (k, e) =>
    let col := b.map (fun l => (l[k]?).getD 0)
    col.foldl (fun n y => n + onGrid e.v * y) 0 == onGrid e.v * col.foldl (· + ·) 0))

/-- The run comparison of R105: in each streamed line, the sum of each run's pails over the stationary lines against the sums of the same windowed groups taken
line by line. -/
def runCheck (fa : Bool) (acc : Nat) (streamed stationary : List (List Blk)) : Bool :=
  let runs (la lb : List Blk) : List (Option (List Int × Int)) := ((la.zip lb).map (fun (a, b) =>
    (runsOf (4 * 2 ^ bitsOf acc 1 0) (2 ^ bitsOf acc 4 2) (linePairs [a] [b])).map (runTerms fa))).flatten
  streamed.all (fun la =>
    let t := stationary.map (fun lb => runs la lb)
    (List.range ((t.head?.map (·.length)).getD 0)).all (fun r =>
      let terms := t.map (fun l => (((l[r]?).getD none).map (·.1)).getD [])
      let width := terms.foldl (fun n l => Nat.max n l.length) 0
      (terms.map (fun l => l.foldl (· + ·) 0)).foldl (· + ·) (0 : Int)
        == ((List.range width).map (fun g => (terms.map (fun l => (l[g]?).getD 0)).foldl (· + ·) 0)).foldl (· + ·) (0 : Int)))

/-- Rows as columns. -/
def turned {α : Type} (rows : List (List α)) : List (List α) :=
  (List.range ((rows.head?.map (·.length)).getD 0)).map (fun j => rows.filterMap (fun r => r[j]?))

/-- A whole tile (R153, R154): every row of A against every column of B. Operand B is stationary but in an output-stationary product (R153). -/
def accumulateTile (fa byCols : Bool) (acc : Nat) (extra : Nat) (prior : List (List Barrel)) (fixed : List (List (Int × Bool))) (as_ bs was wbs : List (List Blk)) : AccOut :=
  let cells := ((List.range as_.length).zip (as_.zip was)).map (fun (i, la, wa) =>
    ((List.range bs.length).zip (bs.zip wbs)).map (fun (j, lb, wb) => accumulate fa acc extra (barrelAt prior i j) ((fixed[i]?.getD [])[j]?) la lb wa wb))
  let flat := cells.flatten
  { barrels := cells.map (fun r => r.map (·.br)),
    anchors := cells.map (fun r => r.map (fun c => (c.start.anchor, c.clamp))),
    vanish := flat.foldl (fun n c => n + c.vanish) 0,
    clamp := flat.any (·.clamp),
    setSat := flat.any (fun c => c.br.sat && !c.start.sat),
    setNonfin := flat.any (fun c => c.br.nonfin && !c.start.nonfin) || (as_ ++ bs).any (·.any (·.invalid)),
    sums := (if byCols then turned cells else cells).map (fun r => r.foldl (fun n c => n + c.sum) 0),
    products := if byCols then productCheck bs as_ else productCheck as_ bs,
    runs := if byCols then runCheck fa acc bs as_ else runCheck fa acc as_ bs }

/-- The barrel check of R105: in each row, or in each column of an output-stationary product, the sum of the barrel integers against the 72-bit checksum barrel,
over what the barrels started from. -/
def barrelCheck (acc : Nat) (byCols : Bool) (t : Tile) : Bool :=
  let moved := ((List.range t.cells.length).zip t.cells).map (fun (i, r) => ((List.range r.length).zip r).map (fun (j, b) =>
    b.int - (if bitsOf acc 5 5 == 1 then (barrelAt t.prior i j).int else 0)))
  ((if byCols then turned moved else moved).zip t.sums).all (fun (r, n) => r.foldl (· + ·) (0 : Int) % 2 ^ 72 == n % 2 ^ 72)

/-- Two part barrels combined (R101): the barrel and 1 where the alignment dropped bits. The integer of a part with SAT set is aligned and added like any other
(DESIGN CHOICE, log 53). -/
def Barrel.combine (x y : Barrel) : Barrel × Nat :=
  let a := max x.anchor y.anchor
  let (ix, lx) := shiftTrunc x.int (x.anchor - a)
  let (iy, ly) := shiftTrunc y.int (y.anchor - a)
  let b := ({ int := ix, anchor := a } : Barrel).add iy
  ({ b with sat := b.sat || x.sat || y.sat, nonfin := x.nonfin || y.nonfin }, b2n (lx || ly))

/-- The tree of R100 over part barrels, in the order of their part numbers: an empty operand passes its partner up unchanged. -/
def combineParts (parts : List Barrel) : Option (Barrel × Nat) :=
  pairwise (fun (x y : Option (Barrel × Nat)) => match x, y with
    | some (a, v), some (b, w) => let (c, d) := a.combine b; some (c, v + w + d)
    | some z, none => some z
    | none, z => z) none (parts.map (fun b => some (b, 0)))

/-- The tiles of the parts of a split combined into one (R100, R101): barrels by the tree, VANISH_COUNTs and the combinations' own vanishes added, stopping at
0xFFFF, flags by OR. The first is part 0's. -/
def combineTiles (p0 : Tile) (rest : List Tile) : Tile :=
  let all := p0 :: rest
  let outs := ((List.range p0.cells.length).zip p0.cells).map (fun (i, r) => (List.range r.length).map (fun j =>
    (combineParts (all.map (fun t => barrelAt t.cells i j))).getD ({}, 0)))
  let parts := all.map (fun t => t.cells.flatten)
  { p0 with cells := outs.map (fun r => r.map (·.1)),
            vanish := Nat.min 0xFFFF (all.foldl (fun n t => n + t.vanish) 0 + outs.flatten.foldl (fun n x => n + x.2) 0),
            clamp := all.any (·.clamp), setNonfin := all.any (·.setNonfin),
            setSat := all.any (·.setSat)
              || ((List.range outs.flatten.length).zip outs.flatten).any (fun (k, x) => x.1.sat && !parts.any (fun p => (p.getD k {}).sat)),
            counts := all.foldl (fun c t => mergeCounts c t.counts) [] }

end Sys2Proof.Machine
end

