-- ==== Sys2Proof/Machine/Flags.lean ====
section
/-! DEFINITION. The status words of a tile (R99, R125) and the triggers of the layer's policy (R234). -/
namespace Sys2Proof.Machine

/-- ACC_STATUS of a tile (R99). -/
def accStatus (barrels : List (List Barrel)) (nonfinScale : Bool) (vanish : Nat) (clamp : Bool) : Nat :=
  let bs := barrels.flatten
  putBits (putBits (putBits (putBits 0 18 18 (b2n clamp)) 17 17 (b2n (nonfinScale || bs.any (·.nonfin)))) 16 16 (b2n (bs.any (·.sat))))
    15 0 (Nat.min vanish 0xFFFF)

/-- What the drain found in a tile (R125). -/
structure DrainFlags where
  nonfinOut : Bool := false
  satOut : Bool := false
  drop : Bool := false
  limit : Bool := false
  escaped : Bool := false
  pool : Nat := 0
deriving DecidableEq, Repr

/-- The flags of two parts together. -/
def DrainFlags.or (a b : DrainFlags) : DrainFlags :=
  { nonfinOut := a.nonfinOut || b.nonfinOut, satOut := a.satOut || b.satOut, drop := a.drop || b.drop, limit := a.limit || b.limit,
    escaped := a.escaped || b.escaped, pool := a.pool + b.pool }

/-- DRAIN_STATUS (R125). -/
def drainStatus (f : DrainFlags) : Nat :=
  putBits (putBits (putBits (putBits (putBits (putBits 0 28 16 (Nat.min f.pool 4096)) 4 4 (b2n f.escaped)) 3 3 (b2n f.limit)) 2 2 (b2n f.drop))
    1 1 (b2n f.satOut)) 0 0 (b2n f.nonfinOut)

/-- The owl's judgement of a tile (R238). -/
inductive OwlSays where
  | noMeasure | steady | high | low
deriving DecidableEq, Repr

/-- The judgement of R238: s the sum of squares, n the finite count, m the tag's mean, h and l the ratios. -/
def owlJudge (s : F32) (n : Nat) (m h l : F32) : OwlSays :=
  if n = 0 then .noMeasure
  else if !isFin s && !isNan s then .high
  else
    let mu := f32Div s (toF32 (.ofInt n))
    if ltExt (f32 (f32Mul (f32Mul h h) m)) (f32 mu) then .high
    else if ltExt (f32 mu) (f32 (f32Mul (f32Mul l l) m)) then .low
    else .steady

/-- May the owl judge (R239): enabled, step 200 or later, narrow schedule, a valid positive finite mean, no repeat. -/
def owlMay (en : Bool) (step : Nat) (narrow valid repeated : Bool) (m : F32) : Bool :=
  en && 200 ≤ step && narrow && valid && isFin m && ltExt (.fin false 0 0) (f32 m) && !repeated

/-- An accumulator trigger of an attempt (R234). -/
def accTrigger (setSat setNonfin : Bool) (f : DrainFlags) (owl : OwlSays) : Bool := setSat || setNonfin || f.nonfinOut || owl == .high || owl == .low

/-- An output trigger (R234). -/
def outTrigger (f : DrainFlags) : Bool := f.satOut || f.drop

end Sys2Proof.Machine
end

