-- ==== Sys2Proof/Machine/Quant.lean ====
section
/-! DEFINITION. Quantisation of KF32 values into an output tensor, by the drain and by lane programs alike (R118 to R124, R136 to R144, R160). -/
namespace Sys2Proof.Machine

/-- What a conversion site knows besides its DRAIN_CTRL: tensor, tag of the counts, draw inputs (R77), the magpie threshold, the croft and its pool pointer. -/
structure Site where
  t : Tensor
  d : DrainCtrl
  square : Bool := false
  jobKey : W64 := 0
  stream : Nat := 0
  step : Nat := 0
  thresh : F32 := 0x7F800000#32
  croft : Nat := 0
  pool : Nat := 0
deriving DecidableEq, Repr

/-- The values of one output row segment, absent positions none. -/
structure SegIn where
  row : Nat
  sg : Nat
  vals : List (Option F32)
deriving DecidableEq, Repr

/-- A segment as it is to be written. `upto` elements are real. -/
structure SegOut where
  row : Nat
  sg : Nat
  codes : List (Option Nat)
  record : Nat := 0
  side : Nat := 0
  pool : List (Nat × Nat) := []
deriving DecidableEq, Repr

/-- What a quantisation gives. -/
structure QuantOut where
  segs : List SegOut := []
  counts : Counts := []
  flags : DrainFlags := {}
  rowFlags : List (Nat × DrainFlags) := []
  pool : Nat := 0
deriving DecidableEq, Repr

/-- Magnitude of a finite KF32 value, exactly. -/
def finMag (v : F32) : Option (Nat × Int) := match f32 v with
  | .fin _ m e => some (m, e)
  | _ => none

/-- Rounding of the element at a row and column of the whole logical tensor (R74, R76 to R78). The tensor-table entry is taken as the whole logical tensor: nothing
in it places a shard (DESIGN CHOICE, log 93). -/
def Site.rnd (s : Site) (row col : Nat) : Rnd := if s.d.sr then .sr (draw s.jobKey s.stream s.step (row * s.t.cols + col)) else .rne

/-- Insert a candidate by decreasing magnitude, earlier position first (R139). -/
def insertRank (x : Nat × F32) : List (Nat × F32) → List (Nat × F32)
  | [] => [x]
  | y :: ys => if ltExt (f32 (f32Abs y.2)) (f32 (f32Abs x.2)) then x :: y :: ys else y :: insertRank x ys

/-- The candidates of a segment in rank order (R139). -/
def candidates (s : Site) (g : SegIn) : List (Nat × F32) :=
  if !s.d.magpie then []
  else ((List.range g.vals.length).zip g.vals).foldl (fun l (i, v) => match v with
    | some x => if isFin x && ltExt (f32 s.thresh) (f32 (f32Abs x)) then insertRank (i, x) l else l
    | none => l) []

/-- The largest magnitude of the finite values at the positions kept. -/
def maxOver (vals : List (Option F32)) (keep : Nat → Bool) : Nat × Int :=
  ((List.range vals.length).zip vals).foldl (fun a (i, v) => match v with
    | some x => (match finMag x with
        | some y => if keep i then maxMag a y else a
        | none => a)
    | none => a) (0, 0)

/-- m and bm of a segment: of itself, or of its square (R120, R121, R160). -/
structure Scales where
  m : Nat × Int
  bm : List (Nat × Int)
deriving DecidableEq, Repr

/-- m and bm of one segment without its candidates (R120, R121, R140). -/
def segScales (g : SegIn) (out : List Nat) : Scales :=
  { m := maxOver g.vals (fun i => !out.contains i),
    bm := (List.range 4).map (fun j => maxOver g.vals (fun i => i / 32 == j && !out.contains i)) }

/-- m over a square of 128 rows, bm over the 32 rows of the row's sub-band (R160). -/
def squareScales (all : List SegIn) (g : SegIn) : Scales :=
  let sq := all.filter (fun x => x.sg == g.sg && x.row / 128 == g.row / 128)
  let sub := sq.filter (fun x => x.row % 128 / 32 == g.row % 128 / 32)
  { m := sq.foldl (fun a x => maxMag a (maxOver x.vals (fun _ => true))) (0, 0),
    bm := (List.range 4).map (fun j => sub.foldl (fun a x => maxMag a (maxOver x.vals (fun i => i / 32 == j))) (0, 0)) }

/-- One element encoded (R66, R70, R122): in a scaled segment an infinity gives the format maximum, every element of an all-NaN segment gives 0, and under a
limited row scale of 0x7F7F an element above Qc times the scale saturates. -/
def encodeScaled (s : Site) (row col scale shift : Nat) (allNan limited : Bool) (v : F32) : Enc :=
  match f32 v with
  | .nan => if allNan then { code := 0, nonfin := true, zero := true } else encodeElem s.d.fmt .rne .nan
  | .inf neg => { code := fmaxCode s.d.fmt neg, nonfin := true, sat := true }
  | .fin neg m e =>
    let x := encodeElem s.d.fmt (s.rnd row col) (scaleDown (.fin neg m e) scale shift)
    if limited && !x.sat && aboveQc s.d.fmt scale m e then { code := fmaxCode s.d.fmt neg, sat := true } else x

/-- A pool entry (R142). -/
def mkPoolEntry (tag seg pos value : Nat) : Nat := putBits (putBits (putBits (putBits 0 61 56 tag) 55 24 seg) 22 16 pos) 15 0 value

/-- A side record (R141). -/
def mkSide (croft start count tag : Nat) (side : List (Nat × Nat)) : Nat :=
  let base := putBits (putBits (putBits (putBits (putBits 0 127 120 (if count = 0 then 0 else croft)) 119 108 (if count = 0 then 0 else start))
    107 101 count) 100 95 tag) 94 92 side.length
  ((List.range side.length).zip side).foldl (fun r (n, (pos, v)) => putBits (putBits r (23 * n + 15) (23 * n) v) (23 * n + 22) (23 * n + 16) pos) base

/-- One scaled segment quantised (R120 to R123, R139 to R144) from pool pointer p. A side or pool value that saturates in KF16 counts there and leaves SAT_OUT
clear (DESIGN CHOICE, log 94). -/
def quantSeg (s : Site) (g : SegIn) (sc : Scales) (p : Nat) : SegOut × Counts × DrainFlags × Nat :=
  let cands := candidates s g
  let seg := s.t.seg g.row g.sg
  let tag := (s.d.tagBase + seg) % 64
  let side := cands.take 4
  let pooled := (cands.drop 4).take (4096 - p)
  let dropped := ((cands.drop 4).drop (4096 - p)).map (·.1)
  let kept := (side ++ pooled).map (·.1)
  let (scale, limit) := rowScale s.d.fmt s.d.headroom sc.m.1 sc.m.2
  let shifts := sc.bm.map (fun b => blockShift sc.m.1 sc.m.2 b.1 b.2)
  let real := g.vals.filterMap id
  let allNan := !real.isEmpty && real.all isNan
  let kf16Of (v : F32) : Enc := encodeFloat kf16 .rne (f32 v)
  let results := ((List.range g.vals.length).zip g.vals).map (fun (i, v) => match v with
    | none => (none, ([] : Counts), false)
    | some x =>
      if kept.contains i then
        (escapeCode s.d.fmt, countEnc s.t.tag 7 (kf16Of x) ++ [((s.t.tag, s.d.fmt, TallyCtr.elements), 1)], false)
      else if dropped.contains i then
        let c := match floatOf s.d.fmt with
          | some ff => signCode ff (x.getLsbD 31) ff.maxCode
          | none => 0
        (some c, [((s.t.tag, s.d.fmt, TallyCtr.elements), 1), ((s.t.tag, s.d.fmt, TallyCtr.drop), 1)], false)
      else
        let e := encodeScaled s g.row (128 * g.sg + i) scale (shifts.getD (i / 32) 0) allNan (limit && scale == 0x7F7F) x
        (some e.code, countEnc s.t.tag s.d.fmt e ++ countDraw s.d.sr s.stream (isFin x), e.sat))
  let sideVals := side.map (fun (i, v) => (i, (kf16Of v).code))
  let poolVals := ((List.range pooled.length).zip pooled).map (fun (n, (i, v)) => (p + n, mkPoolEntry tag seg i (kf16Of v).code))
  ({ row := g.row, sg := g.sg, codes := results.map (·.1), record := mkRecord scale shifts tag (!kept.isEmpty),
     side := mkSide s.croft p pooled.length tag sideVals, pool := poolVals },
   results.foldl (fun c r => mergeCounts c r.2.1) [],
   { satOut := results.any (·.2.2), drop := !dropped.isEmpty, limit := limit, escaped := !kept.isEmpty, pool := pooled.length },
   p + pooled.length)

/-- One unscaled segment encoded (R66 with y = x, R113). -/
def plainSeg (s : Site) (g : SegIn) : SegOut × Counts × DrainFlags × Nat :=
  let results := ((List.range g.vals.length).zip g.vals).map (fun (i, v) => match v with
    | none => (none, ([] : Counts), false)
    | some x =>
      let e := encodeElem s.d.fmt (s.rnd g.row (128 * g.sg + i)) (f32 x)
      let e := if s.d.fmt == 8 then { e with code := (if isNan x then 0x7FC00000 else x.toNat), sat := false } else e
      (some e.code, countEnc s.t.tag s.d.fmt e ++ countDraw (s.d.sr && s.d.fmt != 8) s.stream (isFin x), e.sat))
  ({ row := g.row, sg := g.sg, codes := results.map (·.1) }, results.foldl (fun c r => mergeCounts c r.2.1) [], { satOut := results.any (·.2.2) }, s.pool)

/-- Values quantised, segment by segment in row-major order (R113 steps 7 to 9, R124, R143). -/
def quantise (s : Site) (segs : List SegIn) : QuantOut :=
  segs.foldl (fun q g =>
    let (o, c, f, p) :=
      if s.d.scaled then
        let sc := if s.square then squareScales segs g else segScales g ((candidates s g).map (·.1))
        quantSeg s g sc q.pool
      else plainSeg s g
    { segs := q.segs ++ [o], counts := mergeCounts q.counts c, flags := q.flags.or f,
      rowFlags := assocSet g.row (((assocGet g.row q.rowFlags).getD {}).or f) q.rowFlags, pool := if s.d.scaled then p else q.pool })
    { pool := s.pool }

/-- Cut the columns of a row from a first column into segments. -/
def toSegs (row col : Nat) (vals : List (Option F32)) : List SegIn :=
  let lead := col % 128
  let all := List.replicate lead none ++ vals
  (chunks 128 (all.length / 128 + 1) all).zip (List.range (all.length / 128 + 1)) |>.map (fun (v, i) =>
    { row := row, sg := col / 128 + i, vals := v ++ List.replicate (128 - v.length) none })

/-- A segment written to its tensor by operation i of croft c (R64, R123, R141 to R143, R279 to R281): elements without a value keep their stored code in an
unscaled tensor, and are 0 in a scaled one (R62); padding is 0 (R47). With the last segment of a tile go the bytes that no segment uses. -/
def State.writeSeg (s : State) (c i : Nat) (t : Tensor) (g : SegOut) : State :=
  let k := t.seg g.row g.sg
  let old := if t.scaled then [] else (readSeg s.mem c t g.row g.sg).codes
  let codes := ((List.range 128).zip g.codes).map (fun (n, x) => match x with
    | some v => v
    | none => if 128 * g.sg + n < t.cols then old.getD n 0 else 0)
  let s := s.locWrite c i t.inStore (t.segAddr k) (leBytes (segBytes t.format) (packCodes (containerBits t.format) codes)) (elemsOf t)
  let s := (t.dataTail k).foldl (fun s r => s.locZero c i t.inStore (elemsOf t) r) s
  let s := (t.recordTail k).foldl (fun s r => s.locZero c i t.inStore none r) s
  if !t.scaled then s
  else
    let s := s.locWrite c i t.inStore (t.tagAddr k) [BitVec.ofNat 8 (recTag g.record)] (elemsOf t)
    let s := s.locWrite c i t.inStore (t.scaleAddr k) (leBytes 5 g.record)
    if !t.magpie then s
    else
      let s := s.locWrite c i t.inStore (t.sideAddr k) (leBytes 16 g.side)
      g.pool.foldl (fun s (n, e) => s.devWrite (t.ovfBase + 32768 * c + 8 * n) (leBytes 8 e) (some (c, i))) s

/-- Every segment written. -/
def State.writeSegs (s : State) (c i : Nat) (t : Tensor) (gs : List SegOut) : State := gs.foldl (fun s g => s.writeSeg c i t g) s

/-- A byte of parcel space as it stands once the writes that wait have taken effect (R277, R281). -/
def State.byteAfter (s : State) (a : Nat) : Byte :=
  match (s.m.tiers.heldWrites.filter (fun w => decide (w.address ≤ a) && decide (a < w.address + w.bytes.length))).getLast? with
  | some w => w.bytes.getD (a - w.address) 0
  | none => s.mem.parcel.read a

/-- The presence bits of the squares a block covers are set, or cleared (R250); the operation is complete once they stand in the map (R182, R251). -/
def State.markSquares (s : State) (owner : Nat × Nat) (base : Nat) (t : Tensor) (row rows col cols : Nat) (set : Bool) : State :=
  let rs := (List.range (ceilDiv (row % 128 + rows) 128)).map (· + row / 128)
  let cs := (List.range (ceilDiv (col % 128 + cols) 128)).map (· + col / 128)
  rs.foldl (fun s r => cs.foldl (fun s c =>
    let i := r * t.spr + c
    let old := (s.byteAfter (base + i / 8)).toNat
    s.devWrite (base + i / 8) [BitVec.ofNat 8 (putBits old (i % 8) (i % 8) (b2n set))] (some owner)) s) s

/-- A release of a block into a tensor clears the presence bits of its PATCH companion (R250). -/
def State.clearSquares (s : State) (owner : Nat × Nat) (tensor : Nat) (t : Tensor) (row rows col cols : Nat) : State :=
  match s.m.companion tensor 2 with
  | some c => s.markSquares owner (fld c 127 76) t row rows col cols false
  | none => s

/-- What SCALE_LIMIT and ESCAPED of a release count (R126); no record of the manual reads it (log 94). -/
def flagCounts (t : Tensor) (f : DrainFlags) : Counts :=
  (if f.limit then [((t.tag, t.format, TallyCtr.limit), 1)] else []) ++ (if f.escaped then [((t.tag, t.format, TallyCtr.escaped), 1)] else [])

end Sys2Proof.Machine
end

