-- ==== Sys2Proof/Machine/Arrays.lean ====
section
/-! DEFINITION. The arrays: issue, passes and the checks of an attempt (R148 to R161, R173, R179 to R181, R251), repeats (R246, R247) and span replays (R255). -/
namespace Sys2Proof.Machine

/-- An array of a croft. -/
def Croft.unit (c : Croft) : Arr → ArrayUnit
  | .fa => c.fa
  | .ba => c.ba
/-- An array of a croft changed. -/
def Croft.onUnit (c : Croft) (a : Arr) (f : ArrayUnit → ArrayUnit) : Croft :=
  match a with
  | .fa => { c with fa := f c.fa }
  | .ba => { c with ba := f c.ba }
/-- The array of a unit. -/
def arrOf : CroftUnit → Arr
  | .fa => .fa
  | _ => .ba

/-- What counts of an operation's tiles enter: the live tally, or the open span's bank (R224, R255). -/
def Block.onLayerBank (b : Block) (croft layer : Nat) (f : TallyBank → TallyBank) : Block :=
  if b.spans layer && (b.croft croft).spanOpen then b.onCroft croft (fun c => { c with spanBank := f c.spanBank })
  else { b with tally := { b.tally with live := f b.tally.live } }

/-- The counts of operation i; none where the counts of an earlier released attempt of its entry stand already (R224). -/
def Block.onBank (b : Block) (croft i : Nat) (f : TallyBank → TallyBank) : Block :=
  if (b.croft croft).journal.any (fun e => e.index == i && e.counted) then b else b.onLayerBank croft (opLayer (b.op croft i)) f

/-- The source of an operand in an attempt: its COPY companion in a repeat; its own blocks and those of its PATCH companion in a cascade, and in the climbs of
one (R246, R247, R251). -/
def Block.source (b : Block) (ref : BlockRef) (a : Attempt) : Src :=
  let t := (b.tensor ref.tensor).getD {}
  if a.cascade then
    match b.companion ref.tensor 2 with
    | some c => { t := t, patch := (b.tensor (fld c 31 16)).map (fun p => (p, fld c 127 76)) }
    | none => { t := t }
  else if a.rung.isNone then { t := t }
  else match b.companion ref.tensor 1 with
    | some c => { t := (b.tensor (fld c 31 16)).getD t }
    | none => { t := t }

/-- Rows and columns of an operand's block. -/
def operandSpan (op : BitVec 512) (isA : Bool) : BlockRef × Bool × Nat :=
  if isA then (opA op, opFlag op 0, opRows op) else (opB op, opFlag op 1, opCols op)

/-- Does an operand block touch a patched square (R250, R251)? The companion's format then. -/
def State.patched (s : State) (op : BitVec 512) (isA : Bool) : Option Nat :=
  let (r, transp, lines) := operandSpan op isA
  match s.m.companion r.tensor 2, s.m.tensor r.tensor with
  | some c, some t =>
    let k := 32 * opBlocks op
    let rows := if transp then k else lines
    let cols := if transp then lines else k
    let rs := (List.range (ceilDiv (r.row % 128 + rows) 128)).map (fun i => 128 * (i + r.row / 128))
    let cs := (List.range (ceilDiv (r.col % 128 + cols) 128)).map (fun i => 128 * (i + r.col / 128))
    if rs.any (fun x => x < t.rows && cs.any (fun y => y < t.cols && presence s.mem (fld c 127 76) t x y)) then (s.m.tensor (fld c 31 16)).map (·.format)
    else none
  | _, _ => none

/-- The rung of the formats an attempt reads (R242, R246). -/
def Block.rungAfter (b : Block) (op : BitVec 512) (target : Nat) : Nat :=
  let fmt (r : BlockRef) : Nat := match b.companion r.tensor 1 with
    | some c => ((b.tensor (fld c 31 16)).map (·.format)).getD target
    | none => target
  Nat.max (Nat.max (rungOf (fmt (opA op))) (rungOf (fmt (opB op)))) (rungOf target)

/-- Rung of the formats an attempt runs on, as compiled or repeated (R242). -/
def Block.rungNow (b : Block) (op : BitVec 512) (a : Attempt) : Nat :=
  match a.rung with
  | some r => r
  | none => Nat.max (rungOf ((b.tensor (opA op).tensor).getD {}).format) (rungOf ((b.tensor (opB op).tensor).getD {}).format)

/-- EXTRA_HEADROOM of the layer (R230). -/
def Block.extra (b : Block) (layer : Nat) : Nat := fld (b.guard layer) 15 12

/-- The next attempt up the ladder (R246, R247). -/
def Block.climb (b : Block) (op : BitVec 512) (a : Attempt) : Attempt :=
  let target := (targetOf (b.rungNow op a)).getD 7
  { a with climbs := a.climbs + 1, rung := some (if a.rung.isNone then b.rungAfter op target else rungOf target), repeated := true,
           extra := a.extra + b.extra (opLayer op) }

/-- Has an operation of the journal made its writes: it is complete, an earlier attempt was, or it is a move that has started (R298, R300)? -/
def Block.hasWritten (b : Block) (c : Nat) (e : JEntry) : Bool :=
  e.state == .done || e.wrote || (b.croft c).moves.any (fun m => m.index == e.index && !(b.tiers.offload ++ b.tiers.prefetch).contains m)

/-- The uncommitted operation of the module that wrote into some ranges (R151, R173, R306): croft and operation. It is one whose write has been made: not one that is still to write,
nor one whose write there is held (R475). Where several wrote, the rules speak of one: the model takes the one that issued last (DESIGN CHOICE, log 54). -/
def State.writerOf (s : State) (croft : Nat) (rs : List Range) : Option (Nat × Nat) :=
  let b := s.m
  let held (c i : Nat) : Bool := b.tiers.heldWrites.any (fun w => w.owner == some (c, i) && rs.any (meets (false, w.address, w.bytes.length)))
  let hits (c : Nat) : List (Nat × Nat × Nat) :=
    ((b.croft c).journal.filter (fun e => e.state != .retained && b.hasWritten c e && !held c e.index && (s.writesOf e.op).any (fun w => rs.any (fun r =>
      meets w r && (!r.1 || c == croft))))).map (fun e => (e.tIssue, c, e.index))
  (((List.range b.crofts.length).map hits).flatten.foldl (fun (best : Option (Nat × Nat × Nat)) x => match best with
    | some y => if y.1 ≤ x.1 then some x else some y
    | none => some x) none).map (·.2)

/-- What an attempt reads of an operand: its own blocks and those of its PATCH companion in a cascade, its COPY companion in a repeat, else its own
(R246, R251). -/
def Block.sourceReads (b : Block) (op : BitVec 512) (isA : Bool) (a : Attempt) : List Range :=
  let (rows, cols) := operandSize op isA
  let r := if isA then opA op else opB op
  if a.cascade then b.withCompanion r 2 rows cols
  else match (if a.rung.isSome then b.companion r.tensor 1 else none) with
    | some c => b.refRanges { r with tensor := fld c 31 16 } rows cols
    | none => b.refRanges r rows cols

/-- The journal entry of an operation. -/
def Croft.entry (c : Croft) (i : Nat) : Option JEntry := c.journal.find? (fun e => e.index == i)

/-- A croft stops for an error on an operation (R106, R150, R161, R173). -/
def State.stopCroft (s : State) (croft i : Nat) (e : ErrorRec) : State :=
  (s.on (fun b => b.onCroft croft (fun c => { c with stopped := true }))).raiseErr
    { e with croft := some croft, entry := some i }

/-- A tag or square mismatch of an operand (R150, R151, R161), counted for the croft and under the operand's tally tag: class T the first time, TAG_PERSIST on a
replay of the entry. `reads` are the operand's own ranges. -/
def State.mismatch (s : State) (croft i tag : Nat) (square : Bool) (reads : List Range) : State :=
  let s := s.on (fun b =>
    let b := b.bump (.croftTagMismatches croft)
    { b with tally := { b.tally with live := { b.tally.live with
      tagMismatches := assocSet tag (addSatW 16 ((assocGet tag b.tally.live.tagMismatches).getD 0) 1) b.tally.live.tagMismatches } } })
  let again := match (s.m.croft croft).entry i with
    | some e => e.mismatched
    | none => false
  let s := s.on (fun b => b.onCroft croft (fun c => { c with journal := c.journal.map (fun e => if e.index == i then { e with mismatched := true } else e) }))
  if !again then s.stopCroft croft i { cls := .t, code := if square then 0x24 else 0x22, at_ := 0 }
  else match s.writerOf croft reads with
    | some w => if w == (croft, i) then s.stopCroft croft i { cls := .j, code := 0x23, at_ := 0 }
        else s.stopCroft croft i { cls := .d, code := 0x23, at_ := 0, writer := some w }
    | none => s.stopCroft croft i { cls := .j, code := 0x23, at_ := 0 }

/-! Accesses that fail or are corrected (R173, R289, R306) -/

/-- An uncorrectable error of a croft-store word stops the reading operation (R173): class T, class D where the word's writer is committed. -/
def State.storeEcc (s : State) (croft i a : Nat) : State :=
  match s.writerOf croft [(true, a, 8)] with
  | some w => s.stopCroft croft i { cls := .t, code := 0x25, at_ := 0, writer := some w, croftSide := true, cause := 4 }
  | none => s.stopCroft croft i { cls := .d, code := 0x25, at_ := 0, croftSide := true, cause := 4 }

/-- A tier access of an operation has failed (R306): the croft stops: class T where an uncommitted operation wrote the data, which is replayed first; else class J. -/
def State.tierStop (s : State) (croft i : Nat) (rs : List Range) : State :=
  match s.writerOf croft rs with
  | some w => s.stopCroft croft i { cls := .t, code := 0x28, at_ := 0, writer := some w, cause := s.m.tierRow rs, package := s.m.packageOf rs }
  | none => s.stopCroft croft i { cls := .j, code := 0x28, at_ := 0, cause := s.m.tierRow rs, package := s.m.packageOf rs }

/-- A tier access that fails outside an almanac operation (R306): class T where an uncommitted operation wrote the range, which is replayed; else class J. -/
def State.tierErr (s : State) (rs : List Range) : State :=
  let row := s.m.tierRow rs
  match s.writerOf 0 rs with
  | some w => s.raiseErr { cls := .t, code := 0x28, at_ := 0, croft := some w.1, entry := some w.2, writer := some w, cause := row, package := s.m.packageOf rs }
  | none => s.raiseErr { cls := .j, code := 0x28, at_ := 0, cause := row, package := s.m.packageOf rs }

/-- A tier access of an operation failed its three attempts (R306): counted, its cellar frame retired, and the operation stops. A write that fails leaves data of the operation itself,
which is uncommitted. -/
def State.ioFailed (s : State) (croft i a : Nat) : State :=
  let op := s.m.op croft i
  let s := s.on (fun b => ((b.bump .retries 2).bump .ioFailed).failedAt a)
  if !(s.readsOf op).any (meets (false, a, 1)) && (s.writesOf op).any (meets (false, a, 1)) then
    s.stopCroft croft i { cls := .t, code := 0x28, at_ := 0, writer := some (croft, i), cause := s.m.tierRow [(false, a, 1)], package := s.m.packageOf [(false, a, 1)] }
  else s.tierStop croft i [(false, a, 1)]

/-- The first of some ranges that is read from, or written to, host memory while the link's IDE stream is insecure, where every host access fails (R453). -/
def Block.insecureAccess (b : Block) (reads writes : List Range) : Option Nat :=
  if b.dev.ideState == 2 then ((reads.find? (fun r => b.readsHost [r])).orElse (fun _ => writes.find? (fun r => b.meetsPage [r] (·.tier == 3)))).map (·.2.1) else none

/-- What the accesses of an operation come to: corrected errors are logged, and retries counted (R173, R289, R306). The second part is false where one fails and
the operation has stopped. An access that the operation does not make comes to nothing. -/
def State.accessed (s : State) (croft i : Nat) (acc : Access) : State × Bool :=
  let op := s.m.op croft i
  let reads := s.readsOf op
  let touches (a : Nat) : Bool := (reads ++ s.writesOf op).any (meets (false, a, 1))
  let s := s.on (fun b => b.correctedAt (acc.corrected.filter (fun x => touches x.1)))
  let word := match acc.store with
    | some (a, ok) => if reads.any (meets (true, a / 8 * 8, 8)) then some (a / 8 * 8, ok) else none
    | none => none
  match word with
  | some (a, false) => (s.storeEcc croft i a, false)
  | w =>
    let s := if w.isSome then s.on (·.raiseC 0x35 none 4) else s
    match s.m.insecureAccess reads (s.writesOf op), acc.failed with
    | some a, _ => (s.ioFailed croft i a, false)
    | none, failed => match failed with
    | some (a, n) => if !touches a then (s, true) else if n < 3 then (s.on (·.bump .retries n), true) else (s.ioFailed croft i a, false)
    | none => (s, true)

/-! What an attempt starts from (R102, R246) -/

/-- The barrels a repeat or a first attempt starts from (R246): the ones that the entry's first attempt found in the array of its operation. -/
def Block.priorOf (b : Block) (croft i : Nat) : List (List Barrel) :=
  match ((b.croft croft).entry i).bind (·.prior) with
  | some p => p
  | none => ((b.croft croft).unit (arrOf ((unitOf (opCode (b.op croft i))).getD .ba))).barrels

/-- What operation i of a croft starts from in ACC_ADD (R102): part 0 from the barrels present; every other part from 0 on the anchors of part 0's, in each of its
attempts and replays (R108). -/
def Block.startOf (b : Block) (croft i : Nat) : List (List Barrel) :=
  match b.splitOf croft i, ((b.croft croft).entry i).bind (·.start) with
  | (c0, i0) :: _, start => if (c0, i0) == (croft, i) then b.priorOf croft i else start.getD ((b.priorOf c0 i0).map (fun r => r.map (fun x => { anchor := x.anchor })))
  | [], _ => b.priorOf croft i

/-- The entry keeps what its first attempt starts from (R246): for the array that it was compiled for the barrels there, and for a part of a split its start. -/
def Block.notePrior (b : Block) (croft i : Nat) : Block :=
  let parts := b.splitOf croft i
  let prior := b.priorOf croft i
  let start := if parts.length == 1 || parts.head? == some (croft, i) then none else some (b.startOf croft i)
  b.onCroft croft (fun c => { c with journal := c.journal.map (fun e =>
    if e.index == i then { e with prior := some (e.prior.getD prior), start := if e.start.isSome then e.start else start } else e) })

/-! Passes -/

/-- Contraction blocks of a pass (R153): Kp is 256 in FA 2-bit mode, else 128. An attempt that reads wider streams than KT2 does not run in it (R157, R246). -/
def passBlocks (op : BitVec 512) (u : Arr) (a : Attempt) : Nat := if u == .fa && opFlag op 4 && a.rung.isNone then 8 else 4

/-- The blocks in the order in which the array takes them (R153): for each pass operand B's, then operand A's; true for A. -/
def issueOrder (la lb : List (List Blk)) (blocks per : Nat) : List (Bool × Blk) :=
  ((List.range (ceilDiv blocks per)).map (fun p =>
    let part (l : List Blk) : List Blk := (l.drop (per * p)).take per
    (lb.map part).flatten.map (fun x => (false, x)) ++ (la.map part).flatten.map (fun x => (true, x)))).flatten

/-- May the stationary tile in the array be used again (R181): KEEP_STAT, a single pass now and before, and the same block of operand B? A repeat or a cascade loads its own streams,
and what it has loaded is no such block (R246, R251). -/
def Block.keepsStat (b : Block) (croft i : Nat) (u : Arr) (per : Nat) (a : Attempt) : Bool :=
  let op := b.op croft i
  opFlag op 5 && a.rung.isNone && opBlocks op ≤ per && (match ((b.croft croft).unit u).stat.getLast? with
    | some x =>
      let o := b.op croft x.index
      x.rung.isNone && opBlocks o ≤ per && opB o == opB op && opBlocks o == opBlocks op && opCols o == opCols op && opFlag o 1 == opFlag op 1
    | none => false)

/-- What the stationary registers hold after an operation: the tiles of the last two loads (R155). -/
def statAfter (old : List StatTile) (tensor i per blocks : Nat) (rung : Option Nat) (lb : List (List Blk)) (keep : Bool) : List StatTile :=
  if keep then old
  else
    let loads : List StatTile := (List.range (ceilDiv blocks per)).map (fun p =>
      { tensor := tensor, index := i, pass := p, rung := rung, codes := lb.map (fun l => (((l.drop (per * p)).take per).map (fun x => x.els.map (·.code))).flatten) })
    let all := old ++ loads
    all.drop (all.length - 2)

/-- The lines of an operand over the whole contraction (R95): those of every part, end to end, each read on its own croft. -/
def State.wholeLines (s : State) (parts : List (Nat × Nat)) (a : Attempt) (isA : Bool) : List (List Blk) :=
  parts.foldl (fun lines (c, j) =>
    let op := s.m.op c j
    let r := if isA then opA op else opB op
    let ls := operandLines s.mem c (s.m.source r a) r (opFlag op (if isA then 0 else 1)) (if isA then opRows op else opCols op) (opBlocks op)
    if lines.isEmpty then ls else (lines.zip ls).map (fun (x, y) => x ++ y)) []

/-- How long the passes of an attempt take, in ns (R155): at 3.0 GHz, with the load of the first stationary tile. A repeat at rung 4 reads KF16 (R242). -/
def Block.passesNs (b : Block) (croft i : Nat) (u : Arr) (per : Nat) (a : Attempt) : Nat :=
  let op := b.op croft i
  let wide := u == .ba && (a.rung == some 4 || [opA op, opB op].any (fun r => ((b.tensor r.tensor).getD {}).format == 7))
  let k := if wide then 4 else 1
  ceilDiv (if b.keepsStat croft i u per a then k * opRows op else k * Nat.max (opRows op) 128 * ceilDiv (opBlocks op) per + (if wide then 256 else 128)) 3

/-- An attempt of an array operation runs on its array (R153, R154): its operands are read and checked as the array takes them (R150, R161), and its barrels
formed; the tile waits for the drain. The passes of an array that runs make their progress beats, the last at their end (R155, R465; log 104). -/
def State.runArray (s : State) (croft i : Nat) (a : Attempt) : State :=
  let b := s.m
  let op := b.op croft i
  let u := arrOf ((unitAt op a).getD .ba)
  let per := passBlocks op u a
  let la := operandLines s.mem croft (b.source (opA op) a) (opA op) (opFlag op 0) (opRows op) (opBlocks op)
  let lb := operandLines s.mem croft (b.source (opB op) a) (opB op) (opFlag op 1) (opCols op) (opBlocks op)
  match (issueOrder la lb (opBlocks op) per).find? (fun (_, x) => x.tagBad.isSome || x.squareBad.isSome) with
  | some (isA, x) =>
    match x.tagBad with
    | some tag => s.mismatch croft i tag false (b.sourceReads op isA a)
    | none => s.mismatch croft i (x.squareBad.getD 0) true (b.sourceReads op isA a)
  | none =>
    let parts := b.splitOf croft i
    let whole := parts.length != 1 && bitsOf (opAcc op) 7 6 == 0
    let start := b.startOf croft i
    let key := (a.rung, a.extra)
    let fixed := (((b.croft croft).entry i).bind (fun e => assocGet key e.anchors)).getD []
    let acc := accumulateTile (u == .fa) (opCode op == 3) (opAcc op) a.extra start fixed la lb (if whole then s.wholeLines parts a true else la) (if whole then s.wholeLines parts a false else lb)
    let counts := (la ++ lb).foldl (fun c l => l.foldl (fun c x => mergeCounts c x.reads) c) []
    s.on (fun b => b.onCroft croft (fun c =>
      ({ c.beat (if u == .fa then .fa else .ba) (b.now + b.passesNs croft i u per a) with journal := if whole then c.journal.map (fun e => if e.index == i then { e with anchors := assocSet key acc.anchors e.anchors } else e) else c.journal } : Croft).onUnit u (fun x =>
          { x with tile := some { index := i, attempt := a, vanish := acc.vanish, clamp := acc.clamp, setSat := acc.setSat, setNonfin := acc.setNonfin,
                                  prior := start, cells := acc.barrels, counts := counts, sums := acc.sums,
                                  products := acc.products, runs := acc.runs },
                   stat := statAfter x.stat (opB op).tensor i per (opBlocks op) a.rung lb (b.keepsStat croft i u per a) })))

/-- A repeat or cascade that waits on the croft; its entry keeps the attempt, which a replay of the entry begins with (R246, R264). -/
def Block.repeatAs (b : Block) (croft i : Nat) (a : Attempt) : Block :=
  b.onCroft croft (fun c => { c.beat (b.redoUnit croft (i, a)) b.now with redo := c.redo ++ [(i, a)], journal := c.journal.map (fun e => if e.index == i then { e with attempt := a } else e) })

/-- An operation whose operands touch a patched square issues as a repeat at the companion's rung, counted in FB_CASCADE (R251). That rung is the format's
the patched squares hold, the larger one's where both operands are patched, whatever rung an unpatched operand stands on: no rule speaks of two that differ (DESIGN CHOICE,
log 110). -/
def Block.cascadeAs (b : Block) (croft i : Nat) (a : Attempt) (fmt : Nat) : Block :=
  let l := opLayer (b.op croft i)
  (b.onBank croft i (fun t => t.layerUp l .fbCascade 1)).repeatAs croft i { a with cascade := true, rung := some (rungOf fmt), extra := a.extra + b.extra l }

/-! Spans (R253 to R256) -/

/-- The operations of the span that an operation belongs to: the issued ones of its layer since the last commit (R253). -/
def Block.spanEntries (b : Block) (croft i : Nat) : List JEntry :=
  (b.croft croft).journal.filter (fun e => e.span && e.state != .retained && opLayer e.op == opLayer (b.op croft i))

/-- The array as it was before the first of some entries that ran on it (R246): their tile is gone, and their barrels, but where an operation past them has put
its own. -/
def barrelsBefore (es : List JEntry) (u : CroftUnit) (x : ArrayUnit) : ArrayUnit :=
  let mine := es.filter (fun e => unitOf (opCode e.op) == some u)
  let later := x.later.filter (fun y => !mine.any (fun e => e.index == y.1))
  let keep (file : List (List Barrel)) : List (List Barrel) := ((List.range x.barrels.length).zip x.barrels).map (fun (r, row) => ((List.range row.length).zip row).map (fun (k, v) =>
    if later.any (fun y => mine.all (fun e => e.index < y.1) && r < y.2.1 && k < y.2.2) then v else barrelAt file r k))
  { x with tile := x.tile.filter (fun t => !es.any (fun e => e.index == t.index)), later := later,
           barrels := match (mine.filterMap (·.prior)).head? with
             | some file => keep file
             | none => x.barrels }

/-- A triggered span is discarded with its counts, its tokens, its barrels, its pool entries and its writes that still wait, and waits to be replayed (R143, R255). `seen` is the max-abs of the
tile that triggered. What has issued past its closing COMMIT goes on (log 67). -/
def State.discardSpan (s : State) (croft i : Nat) (seen : List (Nat × F32)) : State :=
  let layer := opLayer (s.m.op croft i)
  s.on (fun b =>
    let es := b.spanEntries croft i
    let mine (j : Nat) : Bool := es.any (fun e => e.index == j)
    let seen := seen.foldl (fun l (tag, m) => assocSet tag (f32Max ((assocGet tag l).getD noMax) m) l) (b.croft croft).spanBank.maxAbs
    let b := { b with tokens := { b.tokens with spanHeld := b.tokens.spanHeld.filter (fun x => !(x.1 == croft && es.any (fun e => opSignal e.op == x.2))) },
                      mill := { b.mill with parts := b.mill.parts.filter (fun p => !(p.croft == croft && mine p.tile.index)) },
                      tiers := (b.dropHeld croft mine).tiers,
                      tally := { b.tally with live := b.tally.live.layerUp layer .rrSpans 1 } }
    b.onCroft croft (fun c =>
      let c := c.dropStat
      { c with fa := barrelsBefore es .fa c.fa, ba := barrelsBefore es .ba c.ba, lane := c.lane.filter (fun l => !mine l.index), spanBank := {}, spanLayers := [], spanSeen := seen,
               spanTried := insertNew ((es.head?.map (·.index)).getD i) c.spanTried,
               tokens := c.tokens.filter (fun x => !es.any (fun e => opSignal e.op == x)),
               pools := es.reverse.foldl (fun l e => e.pools.foldl (fun l x => assocSet x.1 x.2 l) l) c.pools,
               exports := c.exports.filter (fun x => !mine x.index),
               redo := c.redo.filter (fun x => !mine x.1) ++ es.map (fun e => (e.index, b.replayOf e.op seen)),
               journal := c.journal.map (fun e => if mine e.index then
                 { e with wrote := e.wrote || e.state != .issued, state := .issued, counted := false, prior := none, start := none, anchors := [], attempt := b.replayOf e.op seen } else e) }))

/-- Has the span of an operation been replayed in the step (R256). -/
def Block.spanSpent (b : Block) (croft i : Nat) : Bool :=
  (b.spanEntries croft i).any (fun e => (b.croft croft).spanTried.contains e.index)

/-- A trigger in a replayed span counts in RR_FAILED (R256), once for a tile. -/
def Block.countFailed (b : Block) (croft i : Nat) (a : Attempt) : Block :=
  let layer := opLayer (b.op croft i)
  if b.spans layer && !a.repeated && !a.cascade then b.onBank croft i (fun k => k.layerUp layer .rrFailed 1) else b

/-- An array operation begins an attempt: its entry notes what it starts from; where its blocks touch a patched square, a cascade comes first (R251), which in a span not replayed yet
discards the span like any other trigger (R234, R255, R256). On a pinned layer it invokes nothing (R232). -/
def State.beginArray (s : State) (croft i : Nat) (a : Attempt) : State :=
  let op := s.m.op croft i
  let s := s.on (fun b => b.notePrior croft i)
  match s.patched op true, s.patched op false with
  | none, none => (s.on (fun b => b.hostRead croft i (b.opReads op))).runArray croft i a
  | pa, pb =>
    if s.m.pinned (opLayer op) then (s.on (fun b => b.hostRead croft i (b.opReads op))).runArray croft i a
    else if s.m.inSpan op && !s.m.spanSpent croft i then s.discardSpan croft i []
    else s.on (fun b => (b.countFailed croft i a).cascadeAs croft i a (Nat.max (pa.getD 0) (pb.getD 0)))

/-- How an entry's first attempt runs: as compiled, or with the parameters of its span's replay (R255, R256). -/
def Block.firstAttempt (b : Block) (croft i : Nat) : Attempt := (((b.croft croft).entry i).map (·.attempt)).getD {}

/-- Issue of an array operation (R156, R179, R180, R251): the check at issue; the journal; its accesses; then its attempt. -/
def State.issueArray (s : State) (croft : Nat) (u : CroftUnit) (code : Nat) (acc : Access) : State :=
  match s.head croft u [code] with
  | .ready i =>
    if badArray s.m s.mem croft (s.m.op croft i) then s.reject croft i
    else
      let (s, ok) := (s.on (fun b => (b.endStall croft u).journalIssue croft i)).accessed croft i acc
      if ok then s.beginArray croft i (s.m.firstAttempt croft i) else s
  | h => s.on (fun b => b.noIssue croft u h)

/-- FA_MATMUL (R156). -/
def execFaMatmul (croft : Nat) (acc : Access) (s : State) : Host.Outcome State Fault Refusal := .next (s.issueArray croft .fa 1 acc)
/-- BA_MATMUL_WS (R156). -/
def execBaMatmulWs (croft : Nat) (acc : Access) (s : State) : Host.Outcome State Fault Refusal := .next (s.issueArray croft .ba 2 acc)
/-- BA_MATMUL_OS (R156). -/
def execBaMatmulOs (croft : Nat) (acc : Access) (s : State) : Host.Outcome State Fault Refusal := .next (s.issueArray croft .ba 3 acc)

/-- Does an operation of a replay still wait for an earlier one that is in flight and whose ranges or pools it shares (R143, R180, R476)? -/
def Block.behind (b : Block) (croft i : Nat) : Bool :=
  let op := b.op croft i
  let rd := b.opReads op
  let wr := b.opWrites op
  (b.croft croft).inFlight.any (fun e => e.index < i
    && ((b.opWrites e.op).any (fun x => (rd ++ wr).any (meets x)) || (b.opReads e.op).any (fun x => wr.any (meets x))
      || (b.poolTensors e.op).any (fun t => (b.poolTensors op).contains t)))

/-- Does a repeat or replay wait behind the operation that wrote its operand (R151, R306)? -/
def Block.heldBack (b : Block) (croft i : Nat) : Bool :=
  match (b.croft croft).replayAfter with
  | some (j, wc, wi) => j == i && ((b.croft wc).redo.any (·.1 == wi) || (b.croft wc).inFlight.any (·.index == wi))
  | none => false

/-- The repeat or replay that issues next of those that answer a test (R246, R255, R476): the first of its unit in almanac order, once its unit is free, no earlier
operation stands before it, and the barrels it starts from are there. A forced commit and a WAIT_TIME hold none back (log 103). -/
def Block.nextRedo (b : Block) (croft : Nat) (p : Attempt → Bool) : Option (Nat × Attempt) :=
  let c := b.croft croft
  if !b.runs croft then none
  else c.redo.find? (fun x =>
    p x.2 && c.redo.all (fun y => x.1 ≤ y.1 || b.redoUnit croft y != b.redoUnit croft x) && c.unitFree (b.redoUnit croft x)
      && !b.behind croft x.1 && !b.heldBack croft x.1 && !b.awaitsBarrels croft x.1)

/-- One waiting repeat or replay is taken. With the last of a replay the interruption ends where nothing else of the step waits to issue (R498). -/
def Block.takeRedo (b : Block) (croft : Nat) (x : Nat × Attempt) : Block :=
  let b := b.onCroft croft (fun c => { c.beat (b.redoUnit croft x) b.now with redo := c.redo.erase x, replayAfter := c.replayAfter.filter (fun y => y.1 != x.1) })
  if (b.croft croft).todo.isEmpty && !(b.croft croft).redo.any (·.2.replay) then b.resumes croft else b

/-- REPEAT_WIDER (R246, R247, R251): a triggered or cascaded operation issues again on the array its rung names. -/
def execRepeatWider (on_ : OnCroft) (s : State) : Host.Outcome State Fault Refusal :=
  let croft := on_.croft
  match s.m.nextRedo croft (fun a => a.repeated || a.cascade) with
  | some (i, a) =>
    let (s, ok) := (s.on (fun b => (b.takeRedo croft (i, a)).notePrior croft i)).accessed croft i on_.acc
    .next (if ok then s.runArray croft i a else s)
  | none => .next s

end Sys2Proof.Machine
end

