-- ==== Sys2Proof/Machine/Bells.lean ====
section
/-! DEFINITION. What a module does at the abort time of a bell (R36, R37, R309, R392, R419, R457, R497, R505, R552), and what ends with a job's run. -/
namespace Sys2Proof.Machine

/-- A croft with nothing of a job's run left in it (R497, R443): its tables, its remap history and what the badger keeps stay. -/
def Croft.idle (c : Croft) : Croft :=
  { c with todo := [], redo := [], stopped := false, tokens := [], waitUntil := none, journal := [], forcing := false, fa := {}, ba := {}, lane := none,
           exports := [], moves := [], moveHeld := none, pools := [], spanBank := {}, spanLayers := [], spanTried := [], spanSeen := [], rejected := [],
           replayAfter := none, interruptedAt := none, faultEntry := none, stalls := [], beats := [] }

/-- The mills with nothing of a step left in them; the digests of completed steps stay (R390, R392). -/
def Mill.idle (m : Mill) : Mill :=
  { m with nodes := [], parts := [], sent := [], held := [], ready := [], clips := [], requests := [], partial_ := 0, scalarIssued := none, scalar := [], scalarDone := false,
           broadcasts := [], started := [], waits := [], barred := [], inner := [] }

/-- No unit works for the job any more. -/
def Block.idle (b : Block) : Block :=
  { b with crofts := b.crofts.map Croft.idle, dies := b.dies.map (fun (d : Die) => { d with exports := [] }),
           tokens := {}, mill := b.mill.idle,
           tiers := { b.tiers with offload := [], prefetch := [], reads := [], heldWrites := b.tiers.heldWrites.filter (fun w => w.owner.isNone) },
           cache := { b.cache with flushes := [], before := [] }, job := { b.job with begun := false, clip := none } }

/-- The destination tiles of an abandoned move are undefined until rewritten (R309). A move that has not started has written nothing. -/
def State.abandonMove (s : State) (m : Move) : State :=
  if moveKind m.op == 1 || (s.m.tiers.offload ++ s.m.tiers.prefetch).contains m then s
  else
    let (l, a) := moveSide m.op 6
    let bytes := freeBytes s.m.tiers.openCtr a (32768 * moveTiles m.op)
    let s := s.on (fun b => { b with tiers := { b.tiers with openCtr := b.tiers.openCtr + 1 } })
    if l then s.writeStore m.croft a bytes else s.devWrite a bytes

/-- The writes of flushes under way that are held are abandoned with them (R419). -/
def State.dropFlushes (s : State) : State :=
  let rs := s.m.cache.flushes.map (fun (slot, pg) => (s.flushRanges slot pg).2)
  s.on (fun b => { b with tiers := { b.tiers with heldWrites := b.tiers.heldWrites.filter (fun w => w.owner.isSome || !rs.any (meets (false, w.address, w.bytes.length))) } })

/-- The failure history (R505): Ta into an empty entry, or over the oldest. -/
def historyAdd (h : List Nat) (ta : Nat) : List Nat :=
  match h.idxOf? 0 with
  | some i => h.set i ta
  | none => match h.idxOf? (h.foldl Nat.min (h.headD 0)) with
    | some i => h.set i ta
    | none => h

/-- What a bell leaves in the lifetime log, a ring of 1,024 entries (R552). -/
def Block.logBell (b : Block) (r : BellRec) : Block :=
  let e : LifeBell := { ta := r.ta, origin := r.origin, epoch := r.epoch, error := r.error, jobId := b.job.id,
                        suspectAt := if r.origin == b.moduleId then r.suspectAt else 0 }
  { b with life := { b.life with bells := (b.life.bells ++ [e]).drop (b.life.bells.length + 1 - 1024) } }

/-- The waiting commands that a bell ends with ABORTED: STEP writes, fences, JOB_STOP and JOB_START; JOB_ABORT completes (R36, R438, R443, R457). -/
def State.abortWaits (s : State) (ta : Nat) : State :=
  s.m.path.waits.foldl (fun s w =>
    match w.wait with
    | .stepWrite _ part => s.endWait w 6 (setFld (0 : BitVec 128) 64 64 (b2n part))
    | .jobStart _ | .jobStop | .fenceModule _ | .fenceGroup .. | .fenceHost => s.endWait w 6
    | .jobAbort => s.endWait w 0 (setFld (0 : BitVec 128) 63 0 ta)
    | _ => s) s

/-- The mailbox entries not applied before Ta are completed and not applied (R36). -/
def State.abortMailbox (s : State) : State :=
  let cs := s.m.path.mailbox
  let s := s.on (fun b => { b with path := { b.path with mailbox := [], shadows := [] } })
  cs.foldl (fun s c => match Packet.ofCommand c with
    | some (op, h, _, _) => s.finish h op 6
    | none => s) s

/-- Entry into OUT_OF_SERVICE with a reason (R446, R484), counted in the lifetime log. -/
def State.enterOos (s : State) (reason : Nat) : State :=
  (s.on (fun b => ({ b with dev := { b.dev with state := 6, oosReason := reason }, faults := { b.faults with oosPending := 0 } } : Block).bump (.life 7 (9 + reason)))).event
    0x07 7 (s.m.job.step % 2 ^ 32)

/-- The device state once every unit has stopped (R497): LOADED, or OUT_OF_SERVICE where that waited for Ta (R482, R484); not while a reset holds a unit. -/
def State.abortSettle (s : State) : State :=
  if s.m.dev.state == 5 && s.m.dev.bellDone && s.m.faults.reset.isNone then
    let s := s.on (fun b => { b with dev := { b.dev with state := 3 } })
    if s.m.faults.oosPending != 0 then s.enterOos s.m.faults.oosPending else s
  else s

/-- The abort at the earliest Ta (R497): the module is past its Ta, and asserts the fault line (R541). What the step has counted for the next reductions ends with it
(R202, R214; log 110). -/
def State.abortNow (s : State) : State :=
  match s.m.faults.bells.find? (fun r => some r.ta == s.m.earliestTa) with
  | none => s
  | some r =>
    let ms := (s.m.crofts.map (·.moves)).flatten
    let s := ms.foldl (fun s m => s.abandonMove m) s
    let s := (s.dropFlushes.on (fun b => b.idle)).releaseWrites
    let s := (s.abortWaits r.ta).abortMailbox
    (s.on (fun b =>
      let b := { b with safety := { b.safety with faultLine := true }, dev := { b.dev with bellDone := true, bellPassed := true, bellPending := false }, job := { b.job with postAbort := true, stops := [], restored := .none },
                        desc := { b.desc with history := historyAdd b.desc.history r.ta },
                        tally := { b.tally with normSat := false, layerNow := [], layerLast := [], layerReduced := [] } }
      b.logBell r)).abortSettle

/-- BELL_TA (R497): the earliest Ta has come. -/
def execBellTa (t : Nat) (s : State) : Host.Outcome State Fault Refusal :=
  let s := s.on (·.advanceTo t)
  if s.m.jobRuns && s.m.dev.bellPending && s.m.dev.bellTa ≤ s.m.now then .next s.abortNow else .next s

/-- ABORT_STOP_LIMIT (R497): 100 us after Ta the state is LOADED; a croft of which a unit has not stopped is reset, from the first step of the ladder (R468), and a reset that still
holds one goes on. -/
def execAbortStopLimit (t : Nat) (unstopped : List Nat) (s : State) : Host.Outcome State Fault Refusal :=
  let s := s.on (·.advanceTo t)
  if s.m.dev.state == 5 && s.m.dev.bellDone && s.m.dev.bellTa + 100000 ≤ s.m.now then
    let s := s.on (fun b => { b with dev := { b.dev with state := 3 } })
    let s := unstopped.foldl (fun s n => s.raiseErr { cls := .t, code := 0x0A, at_ := 0, croft := some n, croftSide := true, cause := 12 }) s
    .next (if s.m.faults.oosPending != 0 then s.enterOos s.m.faults.oosPending else s)
  else .next s

end Sys2Proof.Machine
end

