-- ==== Sys2Proof/Machine/Restores.lean ====
section
/-! DEFINITION. The end of a RESTORE: the stream check (R526, R527), its result (R524), and the twin's digest (R523). -/
namespace Sys2Proof.Machine

/-- Fields of a stream-table entry (R526). -/
structure StreamEntry where
  draws : Nat
  pos : Nat
  perStep : Nat
  perPos : Nat
  stream : Nat
deriving DecidableEq, Repr

/-- Base and entries of the stream table (R503). -/
def Block.streamTable (b : Block) : Nat × Nat := (fld b.desc.snap 227 176, fld b.desc.snap 97 90)

/-- Entry i of the stream table. -/
def State.streamEntry (s : State) (i : Nat) : StreamEntry :=
  let v := s.ownNat (s.m.streamTable.1 + 32 * i) 32
  { draws := bitsOf v 255 192, pos := bitsOf v 191 128, perStep := bitsOf v 127 96, perPos := bitsOf v 95 64, stream := bitsOf v 31 0 }

/-- DRAW_COUNT and DATA_POS of an entry written (R526). -/
def State.writeStream (s : State) (i draws pos : Nat) : State :=
  s.devWrite (s.m.streamTable.1 + 32 * i + 16) (leBytes 8 pos ++ leBytes 8 draws)

/-- The stream check (R527): the streams resynchronised, or none at the first that is too far apart. -/
def State.checkStreams (s : State) : List Nat → Nat → State × Option Nat
  | [], n => (s, some n)
  | i :: rest, n =>
    let e := s.streamEntry i
    let derived := e.pos * e.perPos
    let d := (derived - e.draws) + (e.draws - derived)
    if d = 0 then State.checkStreams s rest n
    else if e.perStep * e.perPos < d then (s, none)
    else State.checkStreams ((s.writeStream i derived e.pos).event 0x11 7 e.stream) rest (n + 1)

/-- A verified restore ends (R522 step 9, R524): STATE_DIVERGED, or SUCCESS with its RESULT. -/
def State.acceptRestore (s : State) (w : Wait) (snapId : Nat) (digest keyCheck : BitVec 64) (barrier shift : Nat) (verified absent : Bool) : State :=
  match s.checkStreams (List.range s.m.streamTable.2) 0 with
  | (s, none) => (s.on (fun b => { b with job := { b.job with restored := .failed } })).endWait w 0x12
  | (s, some n) =>
    let r := setFld (setFld (setFld (setFld (setFld (0 : BitVec 128) 63 0 digest.toNat) 95 64 (snapId % 2 ^ 32)) 111 96 n) 112 112 (b2n verified)) 113 113 (b2n absent)
    (s.on (fun b => { b with job := { b.job with restored := .done snapId keyCheck barrier shift, postAbort := false } })).endWait w 0 r

/-- A restore that fails after step 4 of R522 leaves the module unrestored (R524). -/
def State.failRestore (s : State) (w : Wait) (status : Nat) : State :=
  (s.on (fun b => { b with job := { b.job with restored := .failed } })).endWait w status

/-- The waiting restores of a SNAP_ID whose twin is a module are verified by the digest that it sent (R523), unless it came more than 100 ms before or after. -/
def State.twinSays (s : State) (source snapId : Nat) (digest : BitVec 64) (came : Nat) : State :=
  s.m.path.waits.foldl (fun s w => match w.wait with
    | .restore id own _ key barrier shift twin since =>
      if id != snapId || twin != source || since + 100000000 < came || came + 100000000 < since then s
      else
        let s := s.on (fun b => { b with snap := { b.snap with twinDigest := none } })
        if own == digest then s.acceptRestore w id own key barrier shift true false else s.failRestore w 0x2B
    | _ => s) s

/-- A restore digest has come from a module (R523): a waiting restore is verified by it; without one it is kept for one that may follow. -/
def State.twinDigest (s : State) (source snapId : Nat) (digest : BitVec 64) : State :=
  (s.on (fun b => { b with snap := { b.snap with twinDigest := some (source, snapId, digest, b.span) } })).twinSays source snapId digest s.m.span

/-- No twin, or no twin digest in time: the recorded DIGEST decides (R523). -/
def State.recordedDigest (s : State) (w : Wait) : State :=
  match w.wait with
  | .restore id own recorded key barrier shift _ _ =>
    if own == recorded then s.acceptRestore w id own key barrier shift false true else s.failRestore w 0x2B
  | _ => s

end Sys2Proof.Machine
end

