-- ==== Sys2Proof/Machine/Export.lean ====
section
/-! DEFINITION. Gradient export by the stile (R164, R193, R194, R377). -/
namespace Sys2Proof.Machine

/-- One barrel entry exported (R164): q, the excess over the limit where it clips, what it counts, and its real magnitude. -/
structure Conv where
  q : Int
  excess : Option Int
  enc : Enc
  mag : Nat × Int
deriving DecidableEq, Repr

/-- The conversion of a barrel entry under exponent e (R164): encoded by R70 into KQ32 or KQ24 of largest value `top`, then clipped to `lim`. The excess is taken
from the integer that neither limits (DEDUCED from 'the unlimited integer' of R377; log 99). -/
def convEntry (rnd : Rnd) (top lim : Nat) (e : Int) (b : Barrel) : Conv :=
  if b.nonfin then { q := 0, excess := none, enc := { code := 0, nonfin := true, zero := true }, mag := (0, 0) }
  else
    let n := roundWhole rnd b.int.natAbs (b.anchor - e)
    let u := signInt (decide (b.int < 0)) n
    let q := signInt (decide (b.int < 0)) (Nat.min n (Nat.min top lim))
    { q := q, excess := if lim < Nat.min n top then some (u - q) else none,
      enc := { code := 0, sat := ltMag top 0 b.int.natAbs (b.anchor - e), zero := n == 0, vanish := n == 0 && b.int != 0 },
      mag := (b.int.natAbs, b.anchor) }

/-- ceil(log2) of the largest real magnitude; none where every entry is zero (R372). -/
def maxlogOf (cs : List Conv) : Option Int :=
  let m := cs.foldl (fun a c => maxMag a c.mag) (0, 0)
  if m.1 = 0 then none else some ((ceilLog2 m.1 : Int) + m.2)

/-- MAXLOG in its 10 bits; beyond them the manual states no value (log 8). -/
def Block.maxlogField (b : Block) (m : Option Int) : Option Int × Block :=
  match m with
  | none => (none, b)
  | some x =>
    if -512 < x && x ≤ 511 then (some x, b)
    else (some (signed 10 ((Config.freeWord b.tiers.openCtr).toNat % 1024)), { b with tiers := { b.tiers with openCtr := b.tiers.openCtr + 1 } })

/-- Excesses of a slice enter the clip store of 65,536 entries, limited; the rest are lost and counted (R377). -/
def Block.storeClips (b : Block) (d : BitVec 512) (x : Export) (es : List (Nat × Int)) : Block × Bool :=
  let room := 65536 - b.mill.clips.length
  let cap : Int := ((2 ^ 63 - 1) / Nat.max (gMembers d) 1 : Nat)
  let kept := (es.take room).map (fun (p, v) => ({ group := x.group, slice := x.slice, mb := x.mb, pos := p, excess := max (-cap) (min cap v) } : Clip))
  let lost := es.length - room
  (({ b with mill := { b.mill with clips := b.mill.clips ++ kept } } : Block).bump .clipLost lost, lost != 0)

/-- The export that the die mill already holds under a held slice's identity: a replay exports it again (R193). -/
def Block.firstExport (b : Block) (croft : Nat) (x : Export) : Option ExportId :=
  (b.die (dieOf croft)).exports.find? (fun y => y.group == x.group && y.layer == x.layer && y.slice == x.slice && y.mb == x.mb)

/-- One held slice is exported to the die mill (R164, R193): converted, its identity checked, its excesses kept, its counts made, and contributed. One that a reset took
from the die mill before its module-mill stage held it is contributed again, with the counts that stand (R224, R476). -/
def State.exportSlice (s : State) (croft : Nat) (x : Export) (d : BitVec 512) (e : Int) : State :=
  let op := s.m.op croft x.index
  let t := (s.m.tensor (opOut op).tensor).getD {}
  let lim := gLimit d
  let rnd (j : Nat) : Rnd := if (drainCtrl (opDrain op)).sr then .sr (draw s.m.job.key (opStream op) s.m.job.step (x.row * t.cols + x.col + j)) else .rne
  let cs := ((List.range x.barrels.length).zip x.barrels).map (fun (j, b) => convEntry (rnd j) (if gKq24 d then 2 ^ 23 - 1 else 2 ^ 31 - 1) lim e b)
  let elems := cs.map (·.q) ++ List.replicate (256 - cs.length) 0
  let clips := (cs.filter (fun c => c.excess.isSome)).length
  let id : ExportId := { group := x.group, layer := x.layer, slice := x.slice, mb := x.mb, exp := e, elems := elems, clips := clips }
  let die := dieOf croft
  let s := s.on (fun b => b.onCroft croft (fun c => { c.beat .stile b.now with journal := c.journal.map (fun j => if j.index == x.index then { j with exported := true } else j) }))
  match s.m.firstExport croft x with
  | some y =>
    if y != id then s.millErr 0x27 8
    else match s.m.mill.inner.find? (fun z => z.wiped && z.die == die && z.group == x.group && z.slice == x.slice && z.mb == x.mb) with
      | some z => (s.on (fun b => { b with mill := { b.mill with inner := b.mill.inner.erase z } })).contribute { z with wiped := false }
      | none => s.on (·.bump .exportDups)
  | none =>
    let (b, lost) := s.m.storeClips d x (((List.range cs.length).zip cs).filterMap (fun (j, c) => c.excess.map (fun v => (j, v))))
    let (ml, b) := b.maxlogField (maxlogOf cs)
    let b := (b.onDie die (fun y => { y with exports := y.exports ++ [id] })).onLayerBank croft x.layer (fun k =>
      k.release (cs.foldl (fun a c => mergeCounts a (countEnc t.tag t.format c.enc ++ countDraw (drainCtrl (opDrain op)).sr (opStream op) (!c.enc.nonfin))) []))
    let b := (b.bump .clips clips).bump (.sliceClips x.layer x.slice) clips
    (s.on (fun _ => b)).contribute { croft := croft, index := x.index, die := die, group := x.group, slice := x.slice, mb := x.mb, exp := e, maxlog := ml, elems := elems, clips := clips, lost := lost }

/-- The exponent under which a held slice may leave: that of its first export, which a replay's is compared with (R193, R392), else its entry's, once that serves the
step (R377). -/
def State.exportExp (s : State) (croft : Nat) (x : Export) (d : BitVec 512) : Option Int :=
  match s.m.firstExport croft x with
  | some y => some y.exp
  | none => if (s.expEntry d x.slice).1 == s.m.job.step % 64 then some (s.expEntry d x.slice).2 else none

/-- May a held slice leave: it has its exponent (R377), no excursion holds the die (R538), and its span is closed (R254; log 25). -/
def State.mayExport (s : State) (croft : Nat) (x : Export) (d : BitVec 512) (closing : Bool) : Bool :=
  (s.exportExp croft x d).isSome && (s.m.die (dieOf croft)).hold.isNone
    && (closing || !(s.m.croft croft).journal.any (fun e => e.index == x.index && e.span && e.state != .retained))

/-- The stile looks at its held slices: those that may leave are exported, the others are held, counted once in EXP_HOLDS where the entry is late (R377); an
operation whose last slice has left is complete, and one that was kept for its slices is free (R473). -/
def State.runExports (s : State) (croft : Nat) (closing : Bool := false) : State :=
  let xs := (s.m.croft croft).exports
  let s := s.on (fun b => b.onCroft croft (fun c => { c with exports := [] }))
  let s := xs.foldl (fun s x =>
    match s.m.group x.group with
    | none => s
    | some d =>
      if s.mayExport croft x d closing then s.exportSlice croft x d ((s.exportExp croft x d).getD 0)
      else
        let late := !x.counted && (s.exportExp croft x d).isNone
        s.on (fun b => (b.bump .expHolds (b2n late)).onCroft croft (fun c =>
          { c with exports := c.exports ++ [if late then { x with counted := true, heldAt := b.now } else x] }))) s
  let s := s.on (fun b => b.freeRetained croft)
  xs.foldl (fun s x =>
    if (s.m.croft croft).exports.any (fun y => y.index == x.index) then s
    else if (s.m.croft croft).inFlight.any (fun e => e.index == x.index) then s.opDone croft x.index else s) s

/-- The released tile of a KQ_OUT operation goes to the stile, one slice a row (R164, R190, R373); a tile of an open span waits there and is complete
(R254; log 25). -/
def State.handSlices (s : State) (croft i : Nat) (cells : List (List Barrel)) : State :=
  let op := s.m.op croft i
  let out := opOut op
  let g := opAux op
  let s := s.on (fun b => b.onCroft croft (fun c => { c with exports := c.exports.filter (fun x => x.index != i) ++ ((List.range cells.length).zip cells).map (fun (r, bs) =>
    ({ index := i, mb := opMb op, group := g, layer := opLayer op, slice := b.sliceId g (opLayer op) (out.row + r) (out.col / 256), row := out.row + r,
       col := out.col, barrels := bs } : Export)) }))
  let s := s.runExports croft
  if s.m.spans (opLayer op) then s.opDone croft i else s

end Sys2Proof.Machine
end

