-- ==== Sys2Proof/Machine/Drain.lean ====
section
/-! DEFINITION. The drain (R113 to R129, R160), the owl (R237 to R240), and the policy's decision on a tile (R232 to R236, R247 to R250, R253 to R257). -/
namespace Sys2Proof.Machine

/-- Drain parameters of one output column (R614): bias and multiplier; the clip bounds. -/
structure Params where
  bias : List F32 := []
  mul : List F32 := []
  lo : F32 := 0
  hi : F32 := 0
deriving DecidableEq, Repr

/-- The KF32 element of an unscaled tensor. -/
def f32At (m : Memory) (croft : Nat) (t : Tensor) (row col : Nat) : F32 :=
  BitVec.ofNat 32 ((readSeg m croft t row (col / 128)).codes.getD (col % 128) 0)

/-- The drain-parameter values of the columns of a tile (R614). -/
def paramsOf (m : Memory) (croft : Nat) (t : Tensor) (d : DrainCtrl) (col cols : Nat) : Params :=
  { bias := if d.bias then (List.range cols).map (fun j => f32At m croft t 0 (col + j)) else [],
    mul := if d.mulMode == 1 then List.replicate cols (f32At m croft t 1 col)
           else if d.mulMode == 2 then (List.range cols).map (fun j => f32At m croft t 1 (col + j)) else [],
    lo := if d.clip then f32At m croft t 2 0 else 0, hi := if d.clip then f32At m croft t 2 1 else 0 }

/-- Step 2 of R113: a barrel as KF32 (R114). -/
def barrelEnc (b : Barrel) : Enc := if b.nonfin then convF32 .nan else convF32 ((Ext.ofInt b.int).scale b.anchor)

/-- Step 3 (R115). -/
def mulBias (d : DrainCtrl) (p : Params) (j : Nat) (v : F32) : F32 :=
  let m := p.mul.getD j 0
  let b := p.bias.getD j 0
  if d.mulMode != 0 && d.bias then f32Fma v m b else if d.mulMode != 0 then f32Mul v m else if d.bias then f32Add v b else v

/-- Step 4 (R116). -/
def clipTo (d : DrainCtrl) (p : Params) (v : F32) : F32 :=
  if !d.clip || isNan v then v else if ltExt (f32 v) (f32 p.lo) then p.lo else if ltExt (f32 p.hi) (f32 v) then p.hi else v

/-- The square of a value, +0 where it is not finite (R117). -/
def sqOf (v : F32) : F32 := if isFin v then f32Mul v v else 0

/-- The tile's sum of squares (R117): segments by pairwise trees, then the segments in row-major order. -/
def sumSquares (segs : List SegIn) : F32 :=
  pairwise f32Add 0 (segs.map (fun g => pairwise f32Add 0 (g.vals.map (fun v => match v with
    | some x => sqOf x
    | none => 0))))

/-- Finite values of a tile (R237). -/
def finiteCount (segs : List SegIn) : Nat := segs.foldl (fun n g => n + (g.vals.filterMap id |>.filter isFin).length) 0

/-- The values of a tile after step 4, with what step 2 counted. -/
structure DrainVals where
  segs : List SegIn
  encs : List Enc
deriving DecidableEq, Repr

/-- Steps 2 to 4 of R113. -/
def drainVals (d : DrainCtrl) (p : Params) (row col : Nat) (cells : List (List Barrel)) : DrainVals :=
  let es := cells.map (fun r => r.map barrelEnc)
  { segs := ((List.range es.length).zip es).map (fun (i, r) => toSegs (row + i) col (((List.range r.length).zip r).map (fun (j, e) =>
      some (clipTo d p (mulBias d p j (BitVec.ofNat 32 e.code)))))) |>.flatten,
    encs := es.flatten }

/-- The counts of the barrels of a tile (R93, R94, R107, R223): SAT those that this operation saturated and no NONFIN; the vanishes as ACC_STATUS shows them, and a
clamped anchor (R99), which no record of the manual reads (log 94). -/
def barrelCounts (tag acc : Nat) (t : Tile) : Counts :=
  let bs := ((List.range t.cells.length).zip t.cells).map (fun (i, r) => ((List.range r.length).zip r).map (fun (j, b) =>
    (b, bitsOf acc 5 5 == 1 && (barrelAt t.prior i j).sat))) |>.flatten
  [((tag, 12, TallyCtr.elements), bs.length), ((tag, 12, TallyCtr.zeros), (bs.filter (fun b => b.1.int == 0 && !b.1.nonfin)).length),
   ((tag, 12, TallyCtr.sat), (bs.filter (fun b => b.1.sat && !b.1.nonfin && !b.2)).length), ((tag, 12, TallyCtr.vanish), Nat.min 0xFFFF t.vanish),
   ((tag, 12, TallyCtr.clamp), b2n t.clamp)].filter (fun x => x.2 != 0)

/-- The counts of step 2 in the KF32 slot; for a KF32 output steps 2 and 9 count as one conversion (R114). -/
def step2Counts (tag fmt : Nat) (v : DrainVals) : Counts :=
  if fmt != 8 then v.encs.foldl (fun c e => mergeCounts c (countEnc tag 8 e)) []
  else
    let finals := (v.segs.map (fun g => g.vals.filterMap id)).flatten
    (v.encs.zip finals).foldl (fun c (e, x) =>
      mergeCounts c (countEnc tag 8 { code := 0, sat := e.sat, nonfin := e.nonfin || !isFin x, vanish := e.vanish, zero := f32Zero x })) []

/-- The integer of the table path (R129): the value, whether it was clamped. -/
def tableValue (fmt : Nat) (entry : BitVec 128) (b : Int) : Int × Bool :=
  let u := rneDiv (b * signed 32 (fld entry 31 0)) (2 ^ fld entry 101 96) + signed 32 (fld entry 63 32)
  let (lo, hi) : Int × Int := match fmt with
    | 0 => (-1, 1)
    | 2 => (-8, 7)
    | _ => (-(2 ^ 24), 2 ^ 24)
  let y := max lo (min hi u)
  (y, y != u)

/-- The table path of a tile (R129): codes, counts, flags, max-abs values. -/
def tablePath (c : Croft) (t : Tensor) (fmt row col : Nat) (cells : List (List Barrel)) : QuantOut × List F32 :=
  let rows : List (Nat × List (Int × Bool × Bool)) := ((List.range cells.length).zip cells).map (fun (i, r) =>
    let ys := ((List.range r.length).zip r).map (fun ((j, b) : Nat × Barrel) =>
      if b.nonfin then ((0 : Int), false, true) else let (y, s) := tableValue fmt ((c.drainTable[j]?).getD 0) b.int; (y, s, false))
    (row + i, ys))
  let codeOf (y : Int) : Nat := match fmt with
    | 0 => if y < 0 then 3 else y.toNat
    | 2 => unsigned 4 y
    | _ => (toF32 (.ofInt y)).toNat
  let all := (rows.map (·.2)).flatten
  ({ segs := (rows.map (fun (r, ys) =>
        let codes : List (Option Nat) := List.replicate (col % 128) none ++ ys.map (fun (y, _, _) => some (codeOf y))
        (chunks 128 3 codes).zip (List.range 3) |>.map (fun ((cs, i) : List (Option Nat) × Nat) =>
          ({ row := r, sg := col / 128 + i, codes := cs ++ List.replicate (128 - cs.length) none } : SegOut)))).flatten,
     counts := all.foldl (fun cts (y, s, n) => mergeCounts cts (countEnc t.tag fmt { code := 0, sat := s, nonfin := n, zero := y == 0 })) [],
     flags := { satOut := all.any (fun (_, s, _) => s), nonfinOut := all.any (fun (_, _, n) => n) } },
   all.map (fun (y, _, _) => toF32 (.ofInt y)))

/-- The conversion site of an operation's output (R110, R137, R78). -/
def Block.site (b : Block) (croft : Nat) (op : BitVec 512) (t : Tensor) (d : DrainCtrl) (square : Bool) (a : Attempt) (pool : Nat) : Site :=
  let desc := (assocGet t.tag b.desc.magpie).getD (setFld (setFld (0 : BitVec 64) 63 32 0x7F800000) 7 4 3)
  { t := t, d := d, square := square, jobKey := b.job.key, stream := opStream op, step := b.job.step,
    thresh := a.thresh.getD (BitVec.ofNat 32 (fld desc 63 32)), croft := croft, pool := pool }

/-- What the drain formed for a tile, before a decision is taken. -/
structure Drained where
  q : QuantOut
  counts : Counts
  flags : DrainFlags
  values : List F32
  sum : F32
  finite : Nat
deriving DecidableEq, Repr

/-- Steps 2 to 4 of R113 on a tile. -/
def State.floatVals (s : State) (croft : Nat) (t : Tile) : DrainVals :=
  let op := s.m.op croft t.index
  let d := drainCtrl (opDrain op)
  let out := opOut op
  let p := match s.m.tensor (opAux op) with
    | some pt => if d.bias || d.clip || d.mulMode != 0 then paramsOf s.mem croft pt d out.col (opCols op) else {}
    | none => {}
  drainVals d p out.row out.col t.cells

/-- The pool pointer that an operation's entry recorded for a tensor (R143). -/
def Block.poolPtr (b : Block) (croft i tensor : Nat) : Nat := (((b.croft croft).entry i).bind (fun e => assocGet tensor e.pools)).getD 0

/-- The drain of a tile (R113, R129); it does not run for a KQ_OUT operation (R164). -/
def State.drain (s : State) (croft : Nat) (t : Tile) : Drained :=
  let b := s.m
  let op := b.op croft t.index
  let d0 := drainCtrl (opDrain op)
  let d := { d0 with headroom := Nat.min 7 (d0.headroom + t.attempt.outExtra) }
  let out := opOut op
  let tout := (b.tensor out.tensor).getD {}
  let held := barrelCounts tout.tag (opAcc op) t
  if opFlag op 7 then
    { q := {}, counts := held, flags := {}, values := [], sum := 0, finite := 0 }
  else if d.table then
    let (q, vs) := tablePath (b.croft croft) tout d.fmt out.row out.col t.cells
    { q := q, counts := mergeCounts q.counts held, flags := q.flags, values := vs, sum := 0, finite := 0 }
  else
    let v := s.floatVals croft t
    let q := quantise (b.site croft op tout d (opFlag op 6) t.attempt (b.poolPtr croft t.index out.tensor)) v.segs
    let xs := (v.segs.map (fun g => g.vals.filterMap id)).flatten
    { q := q, counts := mergeCounts (mergeCounts (step2Counts tout.tag d.fmt v) (if d.fmt == 8 then [] else q.counts)) held,
      flags := { q.flags with nonfinOut := xs.any (fun x => !isFin x), satOut := q.flags.satOut || v.encs.any (·.sat) },
      values := xs, sum := sumSquares v.segs, finite := finiteCount v.segs }

/-- The owl's mean of a tag (R240). -/
def Block.owlOf (b : Block) (tag : Nat) : Owl := (assocGet tag b.tally.owl).getD {}

/-- The owl's judgement of an attempt (R238, R239). -/
def Block.owlSays (b : Block) (op : BitVec 512) (tag : Nat) (a : Attempt) (x : Drained) : OwlSays :=
  let g := b.guard (opLayer op)
  let o := b.owlOf tag
  if opFlag op 7 || !(drainCtrl (opDrain op)).norm then .noMeasure
  else if !owlMay (flag g 7) b.job.step (b.tally.live.sched == 1) o.valid a.repeated o.mean then .noMeasure
  else owlJudge x.sum x.finite o.mean (BitVec.ofNat 32 (fld g 63 48 * 65536)) (BitVec.ofNat 32 (fld g 47 32 * 65536))

/-- S and n of a released tile added to ACC and CNT (R240): S on the grid 2^-149; a tile with no measure or with infinite S adds nothing. -/
def TallyBank.owlAdd (t : TallyBank) (tag : Nat) (x : Drained) : TallyBank :=
  match f32 x.sum with
  | .fin _ m e =>
    if x.finite = 0 then t
    else
      let (a, n) := (assocGet tag t.owlAcc).getD (0, 0)
      { t with owlAcc := assocSet tag (a + scaleTrunc m (e + 149), n + x.finite) t.owlAcc }
  | _ => t

/-- The array that holds the tile of an operation is empty again. -/
def Block.clearTile (b : Block) (croft i : Nat) : Block :=
  let clear (x : ArrayUnit) : ArrayUnit := match x.tile with
    | some t => if t.index == i then { x with tile := none } else x
    | none => x
  b.onCroft croft (fun c => { c with fa := clear c.fa, ba := clear c.ba })

/-- The barrels of a released operation stand in the barrel file of its array (R154, R246), but where a later operation's stand already. -/
def Block.keepBarrels (b : Block) (croft i : Nat) (cells : List (List Barrel)) : Block :=
  b.onCroft croft (fun c => c.onUnit (arrOf ((unitOf (opCode (b.op croft i))).getD .ba)) (fun x =>
    let above := x.later.filter (fun y => i < y.1)
    let new := ((List.range cells.length).zip cells).map (fun (r, row) => ((List.range row.length).zip row).map (fun (k, v) =>
      if above.any (fun y => r < y.2.1 && k < y.2.2) then barrelAt x.barrels r k else v))
    { x with barrels := mergeBarrels x.barrels new,
             later := x.later.filter (fun y => y.1 != i && c.journal.any (fun e => e.index < y.1)) ++ [(i, cells.length, (cells.head?.getD []).length)] }))

/-- The attempt a released operation's replay begins with: that of its first issue (R476), with the parameters of its span's replay (R255). -/
def Attempt.base (a : Attempt) (extra : Nat) : Attempt :=
  { extra := if a.spanReplay then extra else 0, outExtra := a.outExtra, thresh := a.thresh, spanReplay := a.spanReplay }

/-- The OP record of a released tile of OP_CROFT (R548, log 33). -/
def State.traceTile (s : State) (croft : Nat) (t : Tile) (f : DrainFlags) : State :=
  let op := s.m.op croft t.index
  let issued := match (s.m.croft croft).entry t.index with
    | some e => e.tIssue
    | none => 0
  if fld s.m.desc.trace 391 384 != croft then s
  else s.trace 3 croft (leBytes 4 (opWord op 15) ++ leBytes 4 (opCode op) ++ leBytes 8 issued ++ leBytes 8 s.m.now
    ++ leBytes 4 (accStatus t.cells t.setNonfin t.vanish t.clamp) ++ leBytes 4 (drainStatus f))

/-- The counts of a released tile enter its bank (R224, R240, R257). `acted` says whether the policy has acted on it. -/
def Block.countTile (b : Block) (croft : Nat) (t : Tile) (x : Drained) (counts : Counts) (unrepaired patched acted : Bool) : Block :=
  let op := b.op croft t.index
  let tout := (b.tensor (opOut op).tensor).getD {}
  let layer := opLayer op
  b.onBank croft t.index (fun bank =>
    let bank := bank.release counts
    let bank := x.values.foldl (fun bank v => bank.foldMax tout.tag v) bank
    let bank := if (drainCtrl (opDrain op)).norm then bank.owlAdd tout.tag x else bank
    let bank := if unrepaired then bank.layerUp layer .unrepaired 1 else bank
    let bank := if patched then bank.layerUp layer .fbOut 1 else bank
    if b.pinned layer then bank
    else
      let bank := { bank.layerUp layer .tiles 1 with modTiles := addSat bank.modTiles 1 }
      if acted then { bank.layerUp layer .fallbacks 1 with modFallbacks := addSat bank.modFallbacks 1 } else bank)

/-- The arrays of a released tile's parts are empty, and hold its barrels (R154); a split's part 0 holds the combined ones, which ACC_ADD continues (R102). A replay
of a part of a split begins with the attempt that was released; one of a whole tile with that of its first issue (R476; log 98). -/
def Block.settleTile (b : Block) (t : Tile) (parts : List PartTile) : Block :=
  let b := ((List.range parts.length).zip parts).foldl (fun b (k, p) =>
    let i := p.tile.index
    let b := if k == 0 || !p.released then (b.clearTile p.croft i).keepBarrels p.croft i (if k == 0 then t.cells else p.tile.cells) else b
    if parts.length != 1 then b
    else b.onCroft p.croft (fun c => { c with journal := c.journal.map (fun e => if e.index == i then { e with attempt := e.attempt.base (b.extra (opLayer e.op)) } else e) })) b
  { b with mill := { b.mill with parts := b.mill.parts.map (fun p => if parts.any (fun q => q.croft == p.croft && q.tile.index == p.tile.index) then { p with released := true } else p) } }

/-- A tile is released (R106, R224, R240, R249, R250, R257): counted, written, its operations complete; the tile of a KQ_OUT operation goes to the
stile (R164, R194). A split that a replayed part completes again counts no second time (R108). `patch` is the wider output of a patch. -/
def State.releaseTile (s : State) (croft : Nat) (t : Tile) (parts : List PartTile) (x : Drained) (unrepaired : Bool)
    (patch : Option (Tensor × QuantOut)) : State :=
  let op := s.m.op croft t.index
  let out := opOut op
  let tout := (s.m.tensor out.tensor).getD {}
  let acted := patch.isSome || parts.any (fun p => p.tile.attempt.repeated || p.tile.attempt.cascade || p.tile.attempt.spanReplay)
  let counts := mergeCounts (mergeCounts (mergeCounts x.counts t.counts) (flagCounts tout x.flags)) (match patch with
    | some (_, q) => q.counts
    | none => [])
  let s := if parts.any (·.released) then s
    else (s.on (fun b => b.countTile croft t x counts unrepaired patch.isSome acted)).traceTile croft t x.flags
  let s := s.on (fun b => (b.settleTile t parts).onCroft croft (fun c =>
    { c with pools := if tout.magpie then assocSet out.tensor (Nat.max x.q.pool ((assocGet out.tensor c.pools).getD 0)) c.pools else c.pools }))
  if opFlag op 7 then (parts.drop 1).foldl (fun s p => s.opDone p.croft p.tile.index) (s.handSlices croft t.index t.cells)
  else
    let s := s.writeSegs croft t.index tout x.q.segs
    let s := match patch with
      | some (pt, q) => s.writeSegs croft t.index pt q.segs
      | none => s
    let s := match s.m.companion out.tensor 2 with
      | some c => s.markSquares (croft, t.index) (fld c 127 76) tout out.row (opRows op) out.col (opCols op) patch.isSome
      | none => s
    parts.foldl (fun s p => s.opDone p.croft p.tile.index) s

/-- The patch of a tile (R249): steps 2 to 9 again from the same barrels into the PATCH companion, with MAGPIE 0. -/
def State.patchOf (s : State) (croft : Nat) (t : Tile) : Option (Tensor × QuantOut) :=
  let op := s.m.op croft t.index
  let d0 := drainCtrl (opDrain op)
  match (s.m.companion (opOut op).tensor 2).bind (fun c => s.m.tensor (fld c 31 16)) with
  | none => none
  | some pt =>
    if d0.fmt == 7 || d0.fmt == 8 then none
    else
      let d := { d0 with fmt := pt.format, magpie := false, tagBase := pt.tagBase, scaled := pt.scaled, headroom := Nat.min 7 (d0.headroom + t.attempt.outExtra) }
      some (pt, quantise (s.m.site croft op pt d pt.square t.attempt 0) (s.floatVals croft t).segs)

/-- The parts of a tile that a trigger repeats wider (R246, R247): those that are not at rung 4, nor released before. -/
def Block.climbing (b : Block) (parts : List PartTile) : List PartTile :=
  parts.filter (fun p => !p.released && b.rungNow (b.op p.croft p.tile.index) p.tile.attempt < 4)

/-- The parts of a tile are repeated wider; the others of a split wait in the mills. -/
def Block.climbParts (b : Block) (parts : List PartTile) : Block :=
  (b.climbing parts).foldl (fun b p =>
    let i := p.tile.index
    let b := { b.clearTile p.croft i with mill := { b.mill with parts := b.mill.parts.filter (fun q => !(q.croft == p.croft && q.tile.index == i)) } }
    b.repeatAs p.croft i (b.climb (b.op p.croft i) p.tile.attempt)) b

/-- The decision on an attempt (R232, R235, R247 to R249, R255, R256) and what comes of it. A part of a split that its own trigger has left at rung 4 is repeated no
more. A trigger of a span's tile discards the spans of its parts that are not replayed yet. -/
def State.decide (s : State) (croft : Nat) (t : Tile) (parts : List PartTile) (x : Drained) (owl : OwlSays) : State :=
  let op := s.m.op croft t.index
  let layer := opLayer op
  let tag := ((s.m.tensor (opOut op).tensor).getD {}).tag
  let acc := accTrigger t.setSat t.setNonfin x.flags owl
  let out := outTrigger x.flags
  let counted := match (s.m.croft croft).entry t.index with
    | some e => e.counted
    | none => false
  let s := if (owl == .high || owl == .low) && !counted then s.on (fun b => { b with tally := { b.tally with live := { b.tally.live with
      owlJumps := assocSet tag (addSatW 16 ((assocGet tag b.tally.live.owlJumps).getD 0) 1) b.tally.live.owlJumps } } }) else s
  let patched := (s.patched op true).isSome || (s.patched op false).isSome
  if s.m.pinned layer then s.releaseTile croft t parts x (acc || out || patched) none
  else if !acc && !out then s.releaseTile croft t parts x false none
  else if s.m.spans layer && parts.any (fun p => !s.m.spanSpent p.croft p.tile.index) then
    (parts.filter (fun p => !s.m.spanSpent p.croft p.tile.index)).foldl (fun s p =>
      s.discardSpan p.croft p.tile.index [(tag, x.values.foldl (fun a v => f32Max a (f32Abs v)) noMax)]) s
  else
    let s := s.on (·.countFailed croft t.index t.attempt)
    if acc then
      if (parts.length != 1 && parts.any (fun p => p.tile.setSat || p.tile.setNonfin)) || (s.m.climbing parts).isEmpty then
        s.releaseTile croft t parts x true none
      else
        let why : LayerCtr := if t.setSat || t.setNonfin || x.flags.nonfinOut then .fbAcc else if owl == .high then .fbOwlHi else .fbOwlLo
        s.on (fun b => (b.onBank croft t.index (fun k => k.layerUp layer why 1)).climbParts parts)
    else match s.patchOf croft t with
      | some p => s.releaseTile croft t parts x false (some p)
      | none => s.releaseTile croft t parts x true none

/-- The output of a whole tile is formed, and the policy decides on the attempt (R235). A tile of which a part was repeated is not judged again (R239). -/
def State.judge (s : State) (croft : Nat) (t : Tile) (parts : List PartTile) : State :=
  let op := s.m.op croft t.index
  let x := s.drain croft t
  s.decide croft t parts x (s.m.owlSays op ((s.m.tensor (opOut op).tensor).getD {}).tag { t.attempt with repeated := parts.any (·.tile.attempt.repeated) } x)

/-- A part of a split has passed its checks: a saturation or NaN of its own repeats it alone (R264); else it waits in the mills until every part has come, and the
tree combines them (R100, R101, R108). -/
def State.partDone (s : State) (croft : Nat) (t : Tile) (ids : List (Nat × Nat)) : State :=
  let op := s.m.op croft t.index
  let layer := opLayer op
  if (t.setSat || t.setNonfin) && !s.m.pinned layer && s.m.spans layer && !s.m.spanSpent croft t.index then s.discardSpan croft t.index []
  else if (t.setSat || t.setNonfin) && !s.m.pinned layer && s.m.rungNow op t.attempt < 4 then
    s.on (fun b => ((b.countFailed croft t.index t.attempt).onBank croft t.index (fun k => k.layerUp layer .fbAcc 1)).climbParts [{ croft := croft, tile := t }])
  else
    let s := s.on (fun b =>
      { b.clearTile croft t.index with mill := { b.mill with parts := b.mill.parts.filter (fun p => !(p.croft == croft && p.tile.index == t.index)) ++ [{ croft := croft, tile := t }] } })
    let got := ids.filterMap (fun (c, i) => s.m.mill.parts.find? (fun p => p.croft == c && p.tile.index == i))
    match got with
    | p :: rest => if got.length != ids.length then s else s.judge p.croft (combineTiles p.tile (rest.map (·.tile))) got
    | [] => s

/-- Do the three comparisons of R105 hold for a tile? Those on the sums that the model forms, and those that the array reports of its own adders. The barrel check
is made only while SAT is clear. -/
def tileOk (op : BitVec 512) (t : Tile) (k : TileChecks) : Bool :=
  k.product && t.products && k.run && t.runs && (t.cells.flatten.any (·.sat) || (k.barrel && barrelCheck (opAcc op) (opCode op == 3) t))

/-- The end of an array operation's last pass: the checksums decide first (R106); then the policy decides on the tile, or on that of the split it is a part of. -/
def State.finishTile (s : State) (croft : Nat) (t : Tile) (k : TileChecks) : State :=
  if !tileOk (s.m.op croft t.index) t k then
    (s.on (fun b => b.clearTile croft t.index)).stopCroft croft t.index { cls := .t, code := 0x21, at_ := 0, croftSide := true, cause := 1 }
  else match s.m.splitOf croft t.index with
    | [_] => s.judge croft t [{ croft := croft, tile := t }]
    | ids => s.partDone croft t ids

/-- TILE_DRAIN (R113): the drain of the tile that an array holds. The tile of a KQ_OUT operation only fails its checksums here (R106); its export is
SLICE_EXPORT. -/
def execTileDrain (croft : Nat) (arr : Arr) (checks : TileChecks) (s : State) : Host.Outcome State Fault Refusal :=
  match ((s.m.croft croft).unit arr).tile with
  | none => .next s
  | some t =>
    let op := s.m.op croft t.index
    if (s.m.croft croft).stopped || (opFlag op 7 && tileOk op t checks) then .next s
    else .next (s.judged checks.adders (s.finishTile croft t checks))

/-- SLICE_EXPORT (R164, R194, R377): the tile of a finished KQ_OUT operation is decided on and its slices leave; slices held in the stile leave once they may. The
duplicated adders judge what the mill combines (R537). -/
def execSliceExport (croft : Nat) (adderOk : Bool) (s : State) : Host.Outcome State Fault Refusal :=
  let c := s.m.croft croft
  let kq (a : Arr) : Option Tile := (c.unit a).tile.filter (fun t => opFlag (s.m.op croft t.index) 7)
  if c.stopped then .next s
  else match kq .ba, kq .fa with
    | some t, _ => .next (s.judged adderOk (s.finishTile croft t {}))
    | none, some t => .next (s.judged adderOk (s.finishTile croft t {}))
    | none, none => .next (s.judged adderOk (s.runExports croft))

end Sys2Proof.Machine
end

