-- ==== Sys2Proof/Machine/Cache.lean ====
section
/-! DEFINITION. The key-value cache (11): cached elements and block scales (R400 to R403, R405), the reference attention (R396, R397), and the end of a flush
(R408). Its descriptor, pages and staging stand with the tiers. -/
namespace Sys2Proof.Machine

/-- Code and block scale of one channel of a cached row (R405). -/
def State.cacheElem (s : State) (slot x lk ch : Nat) : Nat × Nat :=
  let c := s.m.cacheD
  let a := s.cacheRow slot x lk
  if c.kf4 then
    let byte := (s.mem.parcel.read (a + ch / 2)).toNat
    (if ch % 2 = 0 then byte % 16 else byte / 16, s.mem.parcel.readNat (a + c.chans / 2 + 2 * (ch / 32)) 2)
  else ((s.mem.parcel.read (a + ch)).toNat, (s.mem.parcel.read (a + c.chans + ch / 32)).toNat)

/-- The value of a cached element as KF32 (R61, R397, R402), and whether its block is non-finite. -/
def cacheValue (kf4 : Bool) (code scale : Nat) : F32 × Bool :=
  if kf4 then
    if !scaleOk scale then (0, true) else (toF32 (mulExt (codeValue 3 code) (decodeFloat kf16 scale)), false)
  else if scale == 0xFF then (0, true)
  else (toF32 ((codeValue 5 code).scale ((scale : Int) - 127)), false)

/-- The block of 32 channels as it is stored (R401, R402): codes, block scale, counts, whether it is non-finite. Every element of a non-finite block is written 0: it counts as R70
counts its value, and as zero (R71, R403). -/
def cacheBlock (kf4 : Bool) (tag : Nat) (rnd : Nat → Rnd) (vals : List F32) : List Nat × Nat × Counts × Bool :=
  if vals.any (fun v => !isFin v) then
    (vals.map (fun _ => 0), if kf4 then 0x7FC0 else 0xFF,
      vals.foldl (fun c v => mergeCounts c (countEnc tag (if kf4 then 3 else 5) { code := 0, nonfin := !isFin v, sat := isInf v, zero := true })) [], true)
  else
    let (m, e) := maxOver (vals.map some) (fun _ => true)
    if kf4 then
      let scale := if m = 0 then 0x3F80 else (rowScale 3 0 m e).1
      let encs := ((List.range vals.length).zip vals).map (fun (i, v) => encodeElem 3 (rnd i) (scaleDown (f32 v) scale 0))
      (encs.map (·.code), scale, encs.foldl (fun c x => mergeCounts c (countEnc tag 3 x)) [], false)
    else
      let scale : Nat :=
        if m = 0 then 0x7F
        else
          let l := floorLog2 m e
          -- ceil(log2(m / 446.25)), by the least c with m not above 446.25 * 2^c = 1785 * 2^(c - 2)
          let cl := ((List.range 4).map (fun (i : Nat) => l - 10 + (i : Int))).find? (fun c => !ltMag 1785 (c - 2) m e)
          Nat.min 0xFE (max 0 (cl.getD (l - 7) + 127)).toNat
      let encs := ((List.range vals.length).zip vals).map (fun (i, v) => encodeElem 5 (rnd i) ((f32 v).scale (127 - (scale : Int))))
      (encs.map (·.code), scale, encs.foldl (fun c x => mergeCounts c (countEnc tag 5 x)) [], false)

/-- One row of C channels written for a position by operation i of a croft (R395, R401 to R403, R408). -/
def State.cacheStore (s : State) (croft i slot x lk tag : Nat) (stream : Option Nat) (rnd : Nat → Rnd) (vals : List F32) : State :=
  let c := s.m.cacheD
  let a := s.cacheRow slot x lk
  let blocks := (chunks 32 (c.chans / 32 + 1) vals).zip (List.range (c.chans / 32 + 1)) |>.map (fun (v, n) =>
    cacheBlock c.kf4 tag (fun j => rnd (32 * n + j)) v)
  let codes := (blocks.map (fun (cs, _, _, _) => cs)).flatten
  let data := if c.kf4 then leBytes (c.chans / 2) (packCodes 4 codes) else codes.map (BitVec.ofNat 8)
  let scales := (blocks.map (fun (_, sc, _, _) => if c.kf4 then leBytes 2 sc else leBytes 1 sc)).flatten
  let drawn := 32 * (blocks.filter (fun (_, _, _, n) => !n)).length
  let counts := blocks.foldl (fun k (_, _, c, _) => mergeCounts k c) (match stream with
    | some n => if drawn = 0 then [] else [((n, 0, TallyCtr.draws), drawn)]
    | none => [])
  let bad := (blocks.filter (fun (_, _, _, n) => n)).length
  let s := s.devWrite a (data ++ scales) (some (croft, i))
  let (pg, u) := c.pageOf x
  s.on (fun b =>
    let b := (b.bump .nonfinBlocks bad)
    let b := if (b.croft croft).journal.any (fun e => e.index == i && e.counted) then b else b.onBank croft i (fun t => t.release counts)
    if u + 1 != c.pageSize pg || b.cache.flushed.contains (slot, pg) then b
    else
      let w := insertNew (slot, pg, lk) b.cache.written
      let full := (w.filter (fun (s', p, _) => s' == slot && p == pg)).length == 2 * c.layers
      { b with cache := { b.cache with written := w, flushes := if full then insertNew (slot, pg) b.cache.flushes else b.cache.flushes } })

/-- Reads of a page switch from staging to the pool, counted (R408). -/
def Block.pageFlushed (b : Block) (slot pg : Nat) : Block :=
  { b.bump .flushes with cache := { b.cache with flushes := b.cache.flushes.erase (slot, pg), flushed := insertNew (slot, pg) b.cache.flushed,
                                                 written := b.cache.written.filter (fun (s', p, _) => !(s' == slot && p == pg)) } }

/-- CACHE_FLUSH_DONE (R408): the page's bytes are copied from staging to the pool, and reads switch to the page. Where one of the writes is held (R277, R475, R511), the
flush is not done, nor where a channel or an insecure link keeps it from its tiles (R290, R453): the next CACHE_FLUSH_DONE after them ends it, and writes the same bytes again. `tries`
attempts at reading staging failed (R306): after the third the flush waits for the next. A flush begun before the barrier writes as before it (R511). -/
def execCacheFlushDone (t slot tries : Nat) (s : State) : Host.Outcome State Fault Refusal :=
  let s := s.on (·.advanceTo t)
  match s.m.cache.flushes.find? (fun f => f.1 == slot) with
  | none => .next s
  | some (_, pg) =>
    let (src, dst) := s.flushRanges slot pg
    let held (s : State) : Bool := s.m.tiers.heldWrites.any (fun w => meets src (false, w.address, w.bytes.length) || meets dst (false, w.address, w.bytes.length))
    if held s || s.m.channelHeld [src, dst] then .next s
    else if 3 ≤ tries || (s.m.insecureAccess [src] [dst]).isSome then .next ((s.on (fun b => ((b.bump .retries 2).bump .ioFailed).failedAt src.2.1)).tierErr [src])
    else
      let s := (s.on (·.bump .retries tries)).devWrite dst.2.1 (s.mem.parcel.readBytes src.2.1 src.2.2) none (!s.m.cache.before.contains (slot, pg))
      .next (if held s then s else s.on (·.pageFlushed slot pg))

/-! The reference attention -/

/-- The running row state of R396: m, l, o. -/
structure Attn where
  m : F32 := 0xFF800000#32
  l : F32 := 0
  o : List F32
deriving DecidableEq, Repr

/-- A pairwise sum of KF32 products (R397). -/
def dot32 (a b : List F32) : F32 := pairwise f32Add 0 ((a.zip b).map (fun (x, y) => f32Mul x y))

/-- ceil(log2 v) - 8 for a positive v (R396). -/
def attnExp (v : F32) : Int :=
  match f32 v with
  | .fin false m e => if m = 0 then 0 else (if m = 2 ^ Nat.log2 m then floorLog2 m e else floorLog2 m e + 1) - 8
  | _ => 0

/-- One key block of 128 positions (R396): keys and values by position, with positions after t masked. -/
def attnBlock (q : List F32) (keys vals : List (Option (List F32))) (st : Attn) : Attn :=
  let sc := keys.map (fun k => match k with
    | some x => dot32 q x
    | none => 0xFF800000#32)
  let mn := f32Max st.m (sc.foldl f32Max 0xFF800000#32)
  let f := if st.m == 0xFF800000#32 then (0 : F32) else f32Exp2 (f32Sub st.m mn)
  let p := sc.map (fun x => f32Exp2 (f32Sub x mn))
  let pm := p.foldl f32Max 0
  let e := attnExp pm
  let pq := p.map (fun x => toF32 (decodeFloat kf8m (encodeFloat kf8m .rne ((f32 x).scale (-e))).code))
  let up (x : F32) : F32 := toF32 ((f32 x).scale e)
  { m := mn, l := f32Fma st.l f (up (pairwise f32Add 0 pq)),
    o := ((List.range st.o.length).zip st.o).map (fun (c, x) =>
      f32Fma x f (up (pairwise f32Add 0 ((pq.zip vals).map (fun (w, v) => match v with
        | some y => f32Mul w (y.getD c 0)
        | none => 0))))) }

/-- The reference attention of R396 for the query at position t: key and value rows by position, in blocks of 128. -/
def attention (q : List F32) (t : Nat) (key val : Nat → List F32) : List F32 :=
  let at_ (j : Nat) (f : Nat → List F32) : List (Option (List F32)) :=
    (List.range 128).map (fun i => if 128 * j + i ≤ t then some (f (128 * j + i)) else none)
  let st := (List.range (t / 128 + 1)).foldl (fun st j => attnBlock q (at_ j key) (at_ j val) st) { o := List.replicate 128 0 }
  st.o.map (fun x => f32Div x st.l)

end Sys2Proof.Machine
end

