-- ==== Sys2Proof/Machine/Crier.lean ====
section
/-! DEFINITION. The crier: suspicions, reports, quorum and the announcement of optical ports (R485 to R492). -/
namespace Sys2Proof.Machine

/-- TYPE_EXT of a CRIER packet (R486). KIND: 0 SUSPECT, 1 CONFIRM, 2 CLEAR, 3 NEIGHBOURS. -/
def crierExt (origin kind cause oport mask : Nat) : Nat :=
  putBits (putBits (putBits (putBits (putBits 0 47 34 origin) 33 32 kind) 31 24 cause) 23 19 oport) 18 8 mask

/-- Payload of a CRIER packet (R486). -/
def crierPayload (step reporter at_ : Nat) : List Byte := leBytes 16 (putBits (putBits (putBits 0 109 78 step) 77 64 reporter) 63 0 at_)

/-- A crier report: what a CRIER packet carries (R486). -/
structure Report where
  origin : Nat
  epoch : Nat
  kind : Nat
  cause : Nat := 0
  oport : Nat := 0x1F
  mask : Nat := 0
  step : Nat := 0
  reporter : Nat := 0
  at_ : Nat := 0
deriving DecidableEq, Repr

/-- The report of a CRIER packet (R486). -/
def reportOf (p : Pkt) : Report :=
  { origin := bitsOf p.ext 47 34, epoch := p.param, kind := bitsOf p.ext 33 32, cause := bitsOf p.ext 31 24, oport := bitsOf p.ext 23 19,
    mask := bitsOf p.ext 18 8, step := bitsOf (leNat p.payload) 109 78, reporter := bitsOf (leNat p.payload) 77 64,
    at_ := bitsOf (leNat p.payload) 63 0 }

/-- A report sent on every UP port but the one it arrived on, and counted once (R489, R498). -/
def Block.forwardReport (b : Block) (r : Report) (arrived : Option Nat) : Block :=
  ((b.upPorts arrived).foldl (fun b n => b.sendLink n 0x10 r.epoch (crierExt r.origin r.kind r.cause r.oport r.mask)
    (crierPayload r.step r.reporter r.at_)) b).bump .suspectsFwd

/-- The open record of an origin (R485). -/
def Block.suspicion (b : Block) (origin : Nat) : Option Suspicion := b.faults.open_.find? (fun r => r.origin == origin)

/-- A record put in place of the origin's (R485). -/
def Block.setSuspicion (b : Block) (r : Suspicion) : Block :=
  { b with faults := { b.faults with open_ := b.faults.open_.filter (fun x => x.origin != r.origin) ++ [r] } }

/-- A witness counted into a record (R489, R490). -/
def Suspicion.addReport (x : Suspicion) (r : Report) : Suspicion :=
  if r.kind == 0 && r.oport != 0x1F then { x with witnesses := insertNew r.oport x.witnesses, masks := x.masks ||| r.mask } else x

/-- Quorum (R490): four hamlet witnesses, or a witness on every optical port announced. -/
def Suspicion.quorum (x : Suspicion) : Bool :=
  4 ≤ (x.witnesses.filter (· < 7)).length
    || (x.masks != 0 && (List.range 11).all (fun i => !(x.masks / 2 ^ i % 2 == 1) || x.witnesses.contains (7 + i)))

/-- The bell that a quorum or a CONFIRM raises, unless that bell is held (R490). -/
def State.quorumBell (s : State) (origin epoch : Nat) : State :=
  if !s.m.jobRuns || s.m.faults.bells.any (fun r => r.origin == origin && r.epoch == epoch) then s
  else s.raiseBell origin epoch 0 false 0

/-- A CLEAR closes the record of its origin (R485, R491). -/
def Block.closeRecord (b : Block) (origin epoch : Nat) : Block :=
  { b with faults := { b.faults with open_ := b.faults.open_.filter (fun x => x.origin != origin), epochs := assocSet origin epoch b.faults.epochs,
                                     clears := assocSet origin b.now b.faults.clears } }

/-- What a record does once a report is in it: CLEAR closes it, CONFIRM or quorum raises the bell (R485, R490). -/
def State.applyReport (s : State) (r : Report) (x : Suspicion) : State :=
  if r.kind == 2 then s.on (·.closeRecord r.origin r.epoch)
  else if r.kind == 1 || x.quorum then s.quorumBell r.origin r.epoch
  else s

/-- A SUSPECT, CONFIRM or CLEAR received or raised here, by the first row of R489 that applies. A suspicion asks for the digests of its origin's groups (R390, R492). -/
def State.takeReport (s : State) (r : Report) (arrived : Option Nat) : State :=
  let b := s.m
  if r.epoch ≤ b.lastEpoch r.origin then s.on (·.bump .staleReports)
  else
    let s := if r.kind == 0 then s.on (fun b => { b with faults := { b.faults with compare := insertNew r.origin b.faults.compare } }) else s
    match b.suspicion r.origin with
    | none =>
      let x : Suspicion := ({ origin := r.origin, epoch := r.epoch, closed := r.kind != 0 } : Suspicion).addReport r
      (s.on (fun b => (b.setSuspicion x).forwardReport r arrived)).applyReport r x
    | some x =>
      if x.epoch < r.epoch then
        let y : Suspicion := ({ origin := r.origin, epoch := r.epoch, closed := r.kind != 0 } : Suspicion).addReport r
        (s.on (fun b => (b.setSuspicion y).forwardReport r arrived)).applyReport r y
      else if r.epoch < x.epoch then s.on (·.bump .suspectsCoalesced)
      else if r.kind == 0 && r.oport != 0x1F && !x.witnesses.contains r.oport then
        let y := x.addReport r
        (s.on (fun b => (b.setSuspicion y).forwardReport r arrived)).applyReport r y
      else if r.kind != 0 && !x.closed then
        let y := { x with closed := true }
        (s.on (fun b => (b.setSuspicion y).forwardReport r arrived)).applyReport r y
      else s.on (·.bump .suspectsCoalesced)

/-- A suspicion raised here (R485, R487): epoch LAST_EPOCH + 1, reporter this module; counted in SUSPECTS_SENT. -/
def State.raiseSuspect (s : State) (origin cause oport mask : Nat) : State :=
  let e := s.m.lastEpoch origin + 1
  let r : Report := { origin := origin, epoch := e, kind := 0, cause := cause, oport := oport, mask := mask, step := s.m.job.step % 2 ^ 32,
                      reporter := s.m.moduleId, at_ := s.m.now }
  (s.on (·.bump .suspectsSent)).takeReport r none

/-- Does the module hold an unhandled class M or J error, or is it out of service (R491). -/
def Block.confirms (b : Block) : Bool :=
  b.dev.state == 6 || b.faults.arrived.any (fun e => e.cls == .m || e.cls == .j)
    || (match b.faults.handling with | some e => e.cls == .m || e.cls == .j | none => false) || b.faults.ownJ

/-- The answer of a member to a SUSPECT naming itself (R491): CONFIRM or CLEAR with the same epoch. -/
def State.answerSuspect (s : State) (epoch : Nat) : State :=
  s.takeReport { origin := s.m.moduleId, epoch := epoch, kind := if s.m.confirms then 1 else 2, step := s.m.job.step % 2 ^ 32,
                 reporter := s.m.moduleId, at_ := s.m.now } none

/-- The optical ports that are UP or DEGRADED, as OPTICAL_MASK (R488). -/
def Block.opticalMask (b : Block) : Nat := ((List.range 10).filter (fun i => b.up (7 + i))).foldl (fun a i => a + 2 ^ i) 0

/-- NEIGHBOURS on each optical port that is UP, when the set of them changed (R488). -/
def Block.announce (b : Block) (always : Bool) : Block :=
  let m := b.opticalMask
  if !b.jobRuns || (m == b.faults.lastPorts && !always) then b
  else
    let b := { b with faults := { b.faults with lastPorts := m } }
    ((List.range 10).filter (fun i => (b.port (7 + i)).linkState == 2)).foldl (fun b i => b.sendLink (7 + i) 0x10 0 (crierExt b.moduleId 3 0 0x1F m)
      (crierPayload (b.job.step % 2 ^ 32) b.moduleId b.now)) b

end Sys2Proof.Machine
end

