-- ==== Sys2Proof/Machine/Links.lean ====
section
/-! DEFINITION. The links and fabric time: flits (R325 to R328), lanes and ports (R337 to R341), time (R344 to R353). -/
namespace Sys2Proof.Machine

/-- Is the flit intact: its CRC-64 holds (R325, R328). -/
def flitOk (f : Flit) : Bool := crc64 (flitBytes f) == f.crc
/-- FTYPE (R326). -/
def flitType (f : Flit) : Nat := fld f.head 38 36

/-! The line code of a port (R311): what its four logical lanes carry is a view of the flits it sends. The generator of RS(544,514) is that of IEEE 802.3
(log 91). -/

/-- Product in GF(2^10) with x^10 + x^3 + 1. -/
def gfMul (a b : Nat) : Nat :=
  (List.range 10).foldl (fun (acc : Nat) i => if b / 2 ^ (9 - i) % 2 == 1 then Nat.xor (let d := 2 * acc; if 1024 ≤ d then Nat.xor d 0x409 else d) a
    else (let d := 2 * acc; if 1024 ≤ d then Nat.xor d 0x409 else d)) 0

/-- The generator polynomial of 30 check symbols but for its leading 1, highest power first: its roots are alpha^0 to alpha^29. -/
def rsGenerator : List Nat :=
  let step (g : List Nat) (root : Nat) : List Nat := (List.range (g.length + 1)).map (fun i =>
    Nat.xor ((g[i]?).getD 0) (if i = 0 then 0 else gfMul root ((g[i - 1]?).getD 0)))
  (((List.range 30).foldl (fun (x : List Nat × Nat) _ => (step x.1 x.2, gfMul x.2 2)) ([1], 1)).1).drop 1

/-- A codeword: 514 symbols and their 30 check symbols. -/
def rsCodeword (data : List Nat) : List Nat :=
  data ++ data.foldl (fun (r : List Nat) d =>
    let lead := Nat.xor d ((r[0]?).getD 0)
    ((r.drop 1 ++ [0]).zip rsGenerator).map (fun (x, g) => Nat.xor x (gfMul lead g))) (List.replicate 30 0)

/-- The 10-bit symbols of a bit stream, in codewords; an incomplete last one is filled with zeros. -/
def lineSymbols (bytes : List Byte) : List Nat :=
  let v := leNat bytes
  ((List.range (ceilDiv (8 * bytes.length) 5140)).map (fun k => rsCodeword ((List.range 514).map (fun i => v / 2 ^ (5140 * k + 10 * i) % 1024)))).flatten

/-- The symbols that logical lane l of a port carries: dealt to the four lanes in turn. -/
def Port.laneSymbols (p : Port) (l : Nat) : List Nat :=
  let xs := lineSymbols (p.sent.map (fun f => flitBytes f ++ leBytes 8 f.crc.toNat)).flatten
  (List.range (xs.length / 4)).map (fun i => (xs[4 * i + l]?).getD 0)

/-- The logical lane that L4 carries, as SPARE_FOR shows it: 7 for none (R334, R337). -/
def Port.spareFor (p : Port) : Nat := (p.phy.lanes.findIdx? (· == 4)).getD 7

/-- A parent is lost (R351): HOLDOVER, since when on the count of R17. A backup master with no alternate becomes acting master, without a step. -/
def Block.loseParent (b : Block) : Block :=
  if b.clk.role == 2 && fld b.fab.cfg 102 98 == 0x1F then
    { b with clk := { b.clk with role := 3, holdover := false, holdoverAt := none, depth := 0, parentInUse := 0x1F } }
  else { b with clk := { b.clk with holdover := true, holdoverAt := some (b.clk.holdoverAt.getD b.span) } }

/-- Does the module follow a parent: it is a member or backup master that has one (R344)? -/
def Clk.follows (c : Clk) : Bool := c.parentInUse != 0x1F && c.role != 1 && c.role != 3

/-- A port leaves UP or DEGRADED: what its peer said of time is gone, and it is lost as a parent where it is the one in use (R351). -/
def Block.parentLost (b : Block) (n : Nat) : Block :=
  let b := b.onPort n (fun p => { p with peerLocked := false, peerDepth := 15 })
  let b := if n == fld b.fab.cfg 97 93 then { b with clk := { b.clk with primarySince := none } } else b
  if b.clk.parentInUse == n && b.clk.follows then b.loseParent else b

/-- SP0 begins to stand in for an optical port: it is UP on its loopback, and stands in for none (R340). -/
def Block.trySp0 (b : Block) (n : Nat) : Block :=
  if optical n && n != 17 && (b.port 17).linkState == 2 && (b.port 17).standsFor == 0x1F then
    b.onPort 17 (fun p => { p with standsFor := n, sp0Trial := true })
  else b

/-- SP0 stands in for nothing any more: where it served a port, or was being trained for it, that is over. -/
def Block.freeSp0 (b : Block) : Block := b.onPort 17 (fun p => { p with standsFor := 0x1F, sp0Trial := false })

/-- The selector returns a port's fibres from SP0's engine to its own (R355): SP0's record takes the lanes of its engine as they came to be. -/
def Block.returnFibres (b : Block) (n : Nat) : Block :=
  let p := b.port n
  if p.subst then
    (b.freeSp0.onPort 17 (fun q => { q with phy := p.phy })).onPort n (fun q => { q with phy := q.ownPhy, subst := false })
  else b.freeSp0

/-- A port in FAILED (R338): its retry buffer is gone. -/
def Port.failed (p : Port) (now : Nat) : Port :=
  { p with linkState := 4, retry := [], linkq := [], rxPart := [], discarding := false, substPending := [], switch := none, failedAt := now }

/-- Is the peer of a port another member (R487): one is known, and it is not this module, as on SP0's loopback (R340)? -/
def Block.otherMember (b : Block) (peer : Nat) : Bool := peer != 0x3FFF && peer != b.moduleId

/-- A port enters FAILED (R338): counted, class C; lost as a parent (R351); in a job a witness reports it (R487). -/
def State.enterFailed (s : State) (n : Nat) : State :=
  let p := s.m.port n
  if p.linkState == 4 || p.linkState == 5 then s
  else
    let s := s.on (fun b => (((b.onPort n (·.failed b.span)).bump (.linkFails n)).raiseC 0x33 (some n)).parentLost n)
    let s := if p.isUp && s.m.jobRuns && s.m.otherMember p.peerModule then s.raiseSuspect p.peerModule 1 p.peerPort (p.peerMask.getD 0) else s
    s.on (·.announce false)

/-- SP0 fails its self-test (R341): it enters FAILED, stays so, and stands in for nothing; one that is not enabled stays DISABLED (R314). -/
def State.sp0Fails (s : State) : State := (s.enterFailed 17).on (fun b => b.onPort 17 (fun p => { p with dead := true }))

/-- A die-to-die link enters FAILED at both its ends (R338, R343): class D, LINK_FAILED. -/
def State.failDieLink (s : State) (n : Nat) : State :=
  if (s.m.port n).linkState == 4 then s
  else
    let k := (n - 32) / 2
    (s.on (fun b => (b.onPort (32 + 2 * k) (·.failed b.span)).onPort (33 + 2 * k) (·.failed b.span))).raiseErr
      { cls := .d, code := 0x33, at_ := 0, die := if (linkDies k).1 < 16 then some (linkDies k).1 else some (linkDies k).2, port := some n }

/-- A port or die-to-die link fails (R338). What it carries on SP0's engine fails with that engine, and goes back to its own (R355); else SP0 may stand in for an optical
port (R340). That a substituted port's failure is SP0's is DEDUCED: they are one engine (log 107). -/
def State.failPortAll (s : State) (n : Nat) : State :=
  if 32 ≤ n then s.failDieLink n
  else
    let standing := (s.m.port 17).standsFor
    if (s.m.port n).subst || (n == 17 && standing != 0x1F) then ((s.enterFailed 17).enterFailed standing).on (·.returnFibres standing)
    else if n == 17 then s.enterFailed 17
    else (s.enterFailed n).on (fun b => if (b.port n).linkState == 4 && (s.m.port n).linkState != 4 then b.trySp0 n else b)

/-- Is flit number x acknowledged by ACK a, of numbers mod 4,096 (R326): x is not after a. -/
def acked (a x : Nat) : Bool := (a + 4096 - x) % 4096 < 2048

/-- ACK, NAK and credits of an intact flit (R326, R328): acknowledged flits leave the retry buffer; NAK sends the rest again, each counted; the eighth
sending again of one flit fails the port (R338). -/
def State.takeAck (s : State) (n : Nat) (f : Flit) : State :=
  let p := s.m.port n
  let kept := p.retry.filter (fun x => !acked (fld f.head 51 40) x.seq)
  let vc := fld f.head 35 30
  let credits := if vc == 0x3F then p.credits else assocSet vc ((assocGet vc p.credits).getD 0 + fld f.head 29 22) p.credits
  if flag f.head 39 && !kept.isEmpty then
    let resent := kept.map (fun x => { x with again := x.again + 1 })
    let s := s.on (fun b => ((b.onPort n (fun p => { p with retry := resent, credits := credits, sent := p.sent ++ kept.map (·.flit) })).bump
      (.replays n) kept.length).bump (.flitsTx n) kept.length)
    if resent.any (fun x => 8 ≤ x.again) then s.failPortAll n else s
  else s.on (fun b => b.onPort n (fun p => { p with retry := kept, credits := credits }))

/-- The receiver answers with NAK, in a NULL flit, and discards every later flit until the one it waits for comes (R326 to R328). -/
def Block.sendNak (b : Block) (n : Nat) : Block :=
  (b.onPort n (fun p =>
    let f : Flit := { head := setFld (setFld (setFld (0 : BitVec 64) 51 40 p.rxAck) 39 39 1) 35 30 0x3F, payload := List.replicate 240 0, crc := 0 }
    { p with discarding := true, discardAt := b.span, sent := p.sent ++ [{ f with crc := crc64 (flitBytes f) }] })).bump (.flitsTx n)

/-- An uncorrectable codeword of a port (R336): its flit has failed the CRC. It lies on all four logical lanes, so each physical lane that carried one counts it in the
lifetime log (R552; DEDUCED, log 107). A die-to-die link has no FEC (R343), and counts the flit. -/
def Block.uncorrected (b : Block) (n : Nat) : Block :=
  if 32 ≤ n then b.bump (.life 8 (434 + 3 * ((n - 32) / 2)))
  else (b.port n).phy.lanes.foldl (fun b l => b.bump (.life 8 (24 * n + 3 * l + 2))) (b.bump (.fecUncorr n))

/-- A flit that fails its CRC or has a reserved FTYPE is discarded and counted; DATA and LINK are answered with NAK (R327, R328), and the correction by
retransmission is a class C error (R616). -/
def Block.badFlit (b : Block) (n : Nat) (sequenced : Bool) : Block :=
  let b := b.bump (.crcErr n)
  if sequenced then (b.sendNak n).raiseC 0x35 (some n) 6 else b

/-- An intact flit counts and keeps the port alive. -/
def Block.intactFlit (b : Block) (n : Nat) : Block := (b.bump (.flitsRx n)).onPort n (fun p => { p with lastIntact := b.span })

/-- An intact flit that is not discarded brings its ACK, NAK and credits too. -/
def State.goodFlit (s : State) (n : Nat) (f : Flit) : State := (s.on (·.intactFlit n)).takeAck n f

/-- A flit of a die-to-die link that fails its CRC has its NAK at the other end, which is in the same module: what that end keeps is sent again, counted, and arrives (R328, R343); the
eighth sending again of one flit fails the link. -/
def State.resendWithin (s : State) (n : Nat) : State :=
  let m := if n % 2 == 0 then n + 1 else n - 1
  let resent := (s.m.port m).retry.map (fun x => { x with again := x.again + 1 })
  let s := s.on (fun b => (((b.onPort m (fun p => { p with retry := resent, sent := p.sent ++ resent.map (·.flit) })).bump (.replays m) resent.length).bump (.flitsTx m) resent.length).onPort n
    (fun p => { p with discarding := false }))
  if resent.any (fun x => 8 ≤ x.again) then s.failPortAll n else s

/-- Symbols that the FEC of a port corrects, by physical lane, are counted (R336, R552). -/
def Block.corrects (b : Block) (port : Nat) (cs : List (Nat × Nat)) : Block :=
  cs.foldl (fun b (lane, n) => (b.bump (.fecCorr port) n).bump (.life 8 (534 + 5 * port + lane)) n) b

/-- What the FEC corrected in the codewords of a flit is counted, and reported as corrected (R336, R616). A die-to-die link has no FEC (R343). -/
def Block.flitCorrected (b : Block) (n : Nat) (f : Flit) : Block :=
  if f.corrected.isEmpty || 32 ≤ n then b else (b.corrects n f.corrected).raiseC 0x35 (some n) 6

/-- A flit of a type is taken in, `take` saying what an intact one does: one that fails its CRC, or whose FTYPE is reserved, is discarded and counted (R327, R328). A flit of
another type is not what the row is about. -/
def State.flitRow (s : State) (n ftype : Nat) (f : Flit) (take : State → State) : State :=
  let s := s.on (fun b => b.flitCorrected n f)
  if !flitOk f then
    let s := s.on (fun b => (b.uncorrected n).badFlit n (ftype == 1 || ftype == 2))
    if 32 ≤ n then s.resendWithin n else s
  else if 4 ≤ flitType f then s.on (·.badFlit n false)
  else if flitType f != ftype then s
  else take s

/-- Is n one of the 18 ports, or an end of a die-to-die link (log 89)? -/
def linkNumber (n : Nat) : Bool := n < 18 || (32 ≤ n && n < 100)

/-- The ports whose lanes are not idle (R20, R314): a DISABLED port takes no flit, and no port is powered before the whole main domain is. -/
def Block.listens (b : Block) (n : Nat) : Bool := linkNumber n && (b.port n).linkState != 5 && b.power.main == .on

/-- The ports that carry traffic (R320, R322): those that are UP or DEGRADED. -/
def Block.carries (b : Block) (n : Nat) : Bool := b.listens n && (b.port n).isUp

/-- NULL_FLIT (R327): ACK, NAK and credits. -/
def execNullFlit (t port : Nat) (f : Flit) (s : State) : Host.Outcome State Fault Refusal :=
  let s := s.on (·.advanceTo t)
  .next (if s.m.listens port then s.flitRow port 0 f (fun s => s.goodFlit port f) else s)

/-- A sequenced flit (DATA or LINK) in order (R328): the next SEQ is taken, with its ACK, NAK and credits; any other is discarded
whole, the first of them answered with NAK. What stalls on the fabric were
held up by the retry accrues ECC_RETRY (R303). -/
def State.sequenced (s : State) (n : Nat) (f : Flit) (take : State → State) : State :=
  let p := s.m.port n
  if fld f.head 63 52 == (p.rxAck + 1) % 4096 then
    let s := s.goodFlit n f
    if (s.m.port n).linkState == 4 then s
    else take (s.on (fun b => (if p.discarding then b.fabricDelay 2 p.discardAt else b).onPort n (fun p => { p with rxAck := (p.rxAck + 1) % 4096, discarding := false })))
  else
    let s := s.on (·.intactFlit n)
    if acked p.rxAck (fld f.head 63 52) || p.discarding then s else s.on (fun b => b.sendNak n)

/-- The state of a port with its lanes as they are (R335). With a lane on L4 the UP row asks for SPARE_OK = 0 and the DEGRADED row for no spare available: a failed lane that
still retrains may yet be the spare, so the port is UP till that has failed, and DEGRADED from then on. With a spare again neither row speaks, and it is UP (DEDUCED, log 107). A
die-to-die link is DEGRADED while a group has its spare in use. -/
def Port.upState (p : Port) : Nat := if (p.spareFor != 7 && p.phy.spareLost) || !p.dieLanes.isEmpty then 3 else 2

/-- A port that is up shows the state of its lanes. -/
def Port.reshow (p : Port) : Port := { p with linkState := if p.isUp then p.upState else p.linkState }

/-- A logical lane on the spare lane; the lane it had retrains. -/
def Phy.moveLane (x : Phy) (lane now : Nat) : Phy :=
  { x with lanes := modAt lane (fun _ => x.spareLane) x.lanes, spareOk := false, failedLane := some { lane := (x.lanes[lane]?).getD lane, since := now } }

/-- The failed lane has ended its retraining: it is the new spare, or there is none until a module reset (R337). -/
def Phy.retrained (x : Phy) (lane : Nat) (good : Bool) : Phy :=
  if good then { x with failedLane := none, spareLane := lane, spareOk := true } else { x with failedLane := none, spareLost := true }

/-- A logical lane moves to the spare lane (R337): its own, if it failed as a port's lane, retrains; counted, no spare left until it has, class C SPARE_USED. Lanes are never swapped
back. -/
def Block.substitute (b : Block) (n lane : Nat) : Block :=
  if 32 ≤ n then
    (b.onPort n (fun p => ({ p with dieLanes := p.dieLanes ++ [({ lane := lane, since := b.span } : DieLane)], substPending := p.substPending.erase lane } : Port).reshow)).raiseC
      0x34 (some n)
  else
    (((b.onPort n (fun p => ({ p with phy := p.phy.moveLane lane b.span, substPending := [], switch := none } : Port).reshow)).bump
      (.laneSubsts n)).bump (.life 9 (64 + n))).raiseC 0x34 (some n)

/-- Has a logical lane a spare to move to: the spare lane of a port, unless another lane has asked for it, or the spare of its group of 16 on a die-to-die link (R337,
R343)? -/
def Block.hasSpare (b : Block) (n lane : Nat) : Bool :=
  let p := b.port n
  if 32 ≤ n then !p.dieLanes.any (fun x => x.lane / 16 == lane / 16) && p.substPending.all (fun l => l == lane || l / 16 != lane / 16)
  else p.phy.spareOk && p.substPending.all (· == lane)

/-- The 240 payload bytes of a LINK flit that carries a message (log 90). -/
def linkPayload : LinkMsg → List Byte
  | .identity m p => (List.range 240).map (Config.linkByte 0 m p)
  | .substitute l => (List.range 240).map (Config.linkByte 1 l 0)
  | .substituteAck l => (List.range 240).map (Config.linkByte 2 l 0)

/-- A LINK flit of this end is sent: kept for retry under the next SEQ (R328); with the retry buffer full it waits. -/
def Block.sendLinkFlit (b : Block) (n : Nat) (msg : LinkMsg) : Block :=
  if 2048 ≤ (b.port n).retry.length then b.onPort n (fun p => { p with linkq := p.linkq ++ [msg] })
  else
    (b.onPort n (fun p =>
      let f : Flit := { head := setFld (setFld (setFld (setFld (0 : BitVec 64) 63 52 p.txSeq) 51 40 p.rxAck) 38 36 2) 35 30 0x3F, payload := linkPayload msg, crc := 0 }
      let f := { f with crc := crc64 (flitBytes f) }
      { p with txSeq := (p.txSeq + 1) % 4096, retry := p.retry ++ [({ seq := p.txSeq, flit := f } : Kept)], sent := p.sent ++ [f] })).bump (.flitsTx n)

/-- At training, this end sends its MODULE_ID and port number (R320); on SP0's engine the number of the port it replaces (R340). -/
def Block.sayIdentity (b : Block) (n : Nat) : Block := b.sendLinkFlit n (.identity b.moduleId n)

/-- The peer check (R320, R340): the expected-peer entry of port n against who answered. -/
def Block.peerOk (b : Block) (n pm pp : Nat) : Bool :=
  let e := (b.fab.peers[n]?).getD 0
  !flag e 31 || (fld e 18 5 == pm && fld e 4 0 == pp)

/-- A port whose peer is not the expected one is held in MISMATCH (R320): class C, PEER_MISMATCH; one that was up is lost as a parent, and this module is a witness
(R351, R487). -/
def State.mismatchPort (s : State) (n pm pp : Nat) : State :=
  let p := s.m.port n
  let s := s.on (fun b => ((b.onPort n (fun p => { p with peerModule := pm, peerPort := pp, linkState := 6 })).raiseC 0x32 (some n)).parentLost n)
  if p.isUp && s.m.jobRuns && s.m.otherMember p.peerModule then (s.raiseSuspect p.peerModule 1 p.peerPort (p.peerMask.getD 0)).on (·.announce false)
  else s.on (·.announce false)

/-- What a LINK flit says (R320, R337): peer identity, checked on a port that is up; the lane a peer wants substituted, which is acknowledged; or its
acknowledgement. Both ends of a port then switch 16 flits later (`switchLane`); within the package at once (log 89). -/
def State.takeLinkMsg (s : State) (port : Nat) : LinkMsg → State
  | .identity pm pp =>
    if port < 32 && (s.m.port port).isUp && !s.m.peerOk port pm pp then s.mismatchPort port pm pp
    else s.on (fun b => b.onPort port (fun p => { p with peerModule := pm, peerPort := pp }))
  | .substitute lane =>
    if !s.m.hasSpare port lane then s
    else if 32 ≤ port then s.on (fun b => (b.sendLinkFlit port (.substituteAck lane)).substitute port lane)
    else s.on (fun b => (b.sendLinkFlit port (.substituteAck lane)).onPort port (fun p =>
      { p with substPending := [lane], switch := some { lane := lane, since := b.span, due := b.count (.flitsRx port) + 16, mine := false } }))
  | .substituteAck lane =>
    if !(s.m.port port).substPending.contains lane then s
    else if 32 ≤ port then s.on (fun b => b.substitute port lane)
    else s.on (fun b => b.onPort port (fun p => { p with switch := p.switch.map (fun x => if x.lane == lane && x.mine then { x with acked := true } else x) }))

/-- LINK_FLIT (R327, R337). -/
def execLinkFlit (t port : Nat) (f : Flit) (msg : LinkMsg) (s : State) : Host.Outcome State Fault Refusal :=
  let s := s.on (·.advanceTo t)
  .next (if s.m.listens port then s.flitRow port 2 f (fun s => s.sequenced port f (fun s => s.takeLinkMsg port msg)) else s)

/-- A failing logical lane: with a spare, the handshake of R337 begins; without, the port or the die-to-die link fails (R338, R343, R355). -/
def State.laneFails (s : State) (n lane : Nat) : State :=
  let p := s.m.port n
  if p.linkState == 4 || p.linkState == 5 then s
  else if s.m.hasSpare n lane then s.on (fun b => (b.onPort n (fun p => { p with substPending := lane :: p.substPending.erase lane })).sendLinkFlit n (.substitute lane) |>.onPort n
      (fun p => { p with switch := some { lane := lane, since := b.span, due := p.sent.length + 16, mine := true } }))
  else s.failPortAll n

/-- Where the lifetime log counts a lane's locks (R552): per lane of each port, and per die-to-die link. -/
def lockItem (n lane : Nat) : Nat := if 32 ≤ n then 432 + 3 * ((n - 32) / 2) else 24 * n + 3 * lane

/-- Lanes that lose lock at once on a die-to-die link (R338, R343): one for each group of 16 at most can be substituted. -/
def State.dieLanesFail (s : State) (n : Nat) (lanes : List Nat) : State :=
  if lanes.any (fun l => lanes.any (fun m => l != m && l / 16 == m / 16)) then s.failPortAll n else lanes.foldl (fun s l => s.laneFails n l) s

/-- A physical lane of a port fails (R337, R338): the logical lane on it is substituted, or fails the port; the idle spare is spent, and retrains; a lane that retrains
already carries nothing. -/
def State.physicalFails (s : State) (n lane : Nat) : State :=
  let p := s.m.port n
  match p.phy.lanes.findIdx? (· == lane) with
  | some l => s.laneFails n l
  | none =>
    if lane == p.phy.spareLane && p.phy.spareOk then
      s.on (fun b => b.onPort n (fun p => { p with phy := { p.phy with spareOk := false, failedLane := some { lane := lane, since := b.span } } }))
    else s

/-- LANE_LOSS_OF_LOCK (R337, R338, R343): two or more physical lanes at once fail the port; one is substituted, or fails the port without a spare. -/
def execLaneLossOfLock (t port : Nat) (lanes : List Nat) (s : State) : Host.Outcome State Fault Refusal :=
  let s := s.on (·.advanceTo t)
  if !s.m.listens port then .next s
  else
    let s := s.on (fun b => lanes.foldl (fun b l => b.bump (.life 8 (lockItem port l))) b)
    if 32 ≤ port then .next (s.dieLanesFail port lanes)
    else match lanes with
    | [] => .next s
    | [l] => .next (s.physicalFails port l)
    | _ => .next (s.failPortAll port)

/-- LANE_CORRECTION_LIMIT (R337): a physical lane that corrects more than 4,096 symbols in 1 ms is substituted; the symbols corrected in codewords that no flit
shows are counted, and reported as corrected (R336, R616). A die-to-die link has no FEC (R343). -/
def execLaneCorrectionLimit (t port lane symbols : Nat) (s : State) : Host.Outcome State Fault Refusal :=
  let s := s.on (·.advanceTo t)
  if !s.m.listens port || 32 ≤ port then .next s
  else .next ((s.on (fun b => (b.corrects port [(lane, symbols)]).raiseC 0x35 (some port) 6)).physicalFails port lane)

/-- LANE_RETRAIN_DONE (R337): a failed lane that trains within 100 ms becomes the new spare; otherwise SPARE_OK stays 0 until a module reset. On a die-to-die link it is
the lane that began to retrain first. -/
def execLaneRetrainDone (t port : Nat) (trained : Bool) (s : State) : Host.Outcome State Fault Refusal :=
  .next (atTime t (fun b =>
    if 32 ≤ port then
      match (b.port port).dieLanes.find? (·.retraining) with
      | some l =>
        let good := trained && b.span ≤ l.since + 100000000
        (b.bump (.life 8 (lockItem port 0 + 1)) (b2n trained)).onPort port (fun p =>
          ({ p with dieLanes := if good then p.dieLanes.erase l else p.dieLanes.map (fun x => if x == l then { x with retraining := false } else x) } : Port).reshow)
      | none => b
    else match (b.port port).phy.failedLane with
    | some l =>
      (b.bump (.life 8 (24 * port + 3 * l.lane + 1)) (b2n trained)).onPort port (fun p =>
        ({ p with phy := p.phy.retrained l.lane (trained && b.span ≤ l.since + 100000000) } : Port).reshow)
    | none => b) s)

/-- LINK_IDLE_TIMEOUT (R338): no intact flit for 1 us puts a port that is up into FAILED. -/
def execLinkIdleTimeout (t port : Nat) (s : State) : Host.Outcome State Fault Refusal :=
  let s := s.on (·.advanceTo t)
  if (s.m.port port).isUp && (s.m.port port).lastIntact + 1000 ≤ s.m.span then .next (s.failPortAll port) else .next s

/-- PORT_RETRAIN (R338): every 100 ms a FAILED port that no SP0 stands in for attempts training; an SP0 that failed its self-test stays FAILED (R341). -/
def execPortRetrain (t port : Nat) (s : State) : Host.Outcome State Fault Refusal :=
  .next (atTime t (fun b =>
    let p := b.port port
    if port < 18 && b.power.main == .on && p.linkState == 4 && p.failedAt + 100000000 ≤ b.span && (b.port 17).standsFor != port && !p.dead then
      b.onPort port (fun p => { p with linkState := 1, failedAt := b.span })
    else b) s)

/-- A port that training has brought to life, with its peer: sequence numbers, credits and the retry buffer begin anew; the spare lane is trained unless it is lost or
retrains (R337), and the asymmetry of the directions is calibrated (R346). -/
def Port.restart (p : Port) (pm pp now : Nat) (asym : Int) : Port :=
  { p with peerModule := pm, peerPort := pp, txSeq := 0, rxAck := 0xFFF, acked := 0xFFF, retry := [], linkq := [], rxPart := [], discarding := false, substPending := [], switch := none, credits := [],
           used := [], owed := [], lastIntact := now, asym := asym, phy := { p.phy with spareOk := p.phy.failedLane.isNone && !p.phy.spareLost }, peerLocked := false, peerDepth := 15, echoRx := 0,
           echoTx := 0 }

/-- A port begins anew with its peer and this end says who it is (R320): the peer check decides `up` or MISMATCH, the latter class C PEER_MISMATCH. Stalls on the fabric accrue
the time as PHY_RETRAIN (R303). What the asymmetry comes to is a free value (log 15). -/
def Block.begins (b : Block) (n pm pp : Nat) (up : Port → Port) : Block :=
  let b := b.fabricDelay 1 (b.port n).failedAt
  let asym := (Config.freeWord b.tiers.openCtr).toInt
  let b := { b with tiers := { b.tiers with openCtr := b.tiers.openCtr + 1 } }
  if b.peerOk n pm pp then ((b.onPort n (fun p => up (p.restart pm pp b.span asym))).sayIdentity n).announce false
  else ((b.onPort n (fun p => { p.restart pm pp b.span asym with linkState := 6 })).raiseC 0x32 (some n)).sayIdentity n

/-- Training ended on a port (R320, R338). -/
def Block.trained (b : Block) (n pm pp : Nat) : Block := b.begins n pm pp (fun p => { p with linkState := p.upState })

/-- PORT_TRAINING_DONE (R320, R338): from DOWN or TRAINING to UP or MISMATCH; failed training leaves the port FAILED: a return to the state it
had, and no entry to it that R338 counts or reports (DESIGN CHOICE, log 107). -/
def execPortTrainingDone (t port peerModule peerPort : Nat) (trained : Bool) (s : State) : Host.Outcome State Fault Refusal :=
  .next (atTime t (fun b =>
    let p := b.port port
    if port < 18 && (p.linkState == 0 || p.linkState == 1) && b.power.main == .on && !p.dead then
      if trained then b.trained port peerModule peerPort
      else b.onPort port (fun p => { p with linkState := if p.linkState == 1 then 4 else 0, failedAt := b.span })
    else b) s)

/-- SP0_TRAINED (R340): training and the peer check under the failed port's entry return that port to UP with SUBST; otherwise it stays FAILED (R341), or is
held in MISMATCH (R320). -/
def execSp0Trained (t peerModule peerPort : Nat) (trained : Bool) (s : State) : Host.Outcome State Fault Refusal :=
  .next (atTime t (fun b =>
    let n := (b.port 17).standsFor
    if n == 0x1F || !(b.port 17).sp0Trial || b.power.main != .on then b
    else if !trained || (b.port n).linkState != 4 then b.freeSp0
    else if b.peerOk n peerModule peerPort then
      let engine := (b.port 17).phy
      let b := ((b.onPort 17 (fun p => { p with sp0Trial := false })).onPort n (fun p => { p with phy := engine, ownPhy := p.phy })).begins n peerModule peerPort
        (fun p => { p with subst := true, linkState := p.upState })
      (b.raiseC 0x34 (some n)).bump (.life 9 3)
    else b.freeSp0.begins n peerModule peerPort id) s)

/-! What a port sends (R324 to R328) -/

/-- Has a port credit for a packet on its channel (R324)? -/
def Port.credit (p : Port) (q : Pkt) : Bool :=
  (assocGet (pktChannel q) p.used).getD 0 + slotsOf q ≤ Config.firstCredits (pktChannel q) + (assocGet (pktChannel q) p.credits).getD 0

/-- Which packets of a queue leave, within a number of slots, and which stay: each channel keeps its order, and only its own credit holds it back (R324). -/
def Port.ready (p : Port) (slots : Nat) (held : List Nat) : List Pkt → List Pkt × List Pkt × List (Nat × Nat)
  | [] => ([], [], p.used)
  | q :: rest =>
    let c := pktChannel q
    if !held.contains c && p.credit q && slotsOf q ≤ slots then
      let (now, later, used) := Port.ready { p with used := assocSet c ((assocGet c p.used).getD 0 + slotsOf q) p.used } (slots - slotsOf q) held rest
      (q :: now, later, used)
    else
      let (now, later, used) := Port.ready p slots (c :: held) rest
      (now, q :: later, used)

/-- The LINK messages that waited for room in the retry buffer are sent (R328). -/
def Block.sendWaiting (b : Block) (n : Nat) : Block :=
  (b.port n).linkq.foldl (fun b m => b.sendLinkFlit n m) (b.onPort n (fun p => { p with linkq := [] }))

/-- Both ends of a port switch a lane at the first codeword boundary after SEQ + 16 of the LINK flit that names it (R337): here 16 flits after it, of whatever type, since no DATA flit
is sent meanwhile and no other has a SEQ; the port is held for 2 us at most (DEDUCED, log 107). The end that asked counts what it sends, its peer what it receives. -/
def Block.switchLane (b : Block) (n : Nat) : Block :=
  match (b.port n).switch with
  | none => b
  | some x =>
    let count := if x.mine then (b.port n).sent.length else b.count (.flitsRx n)
    if (x.mine && !x.acked) || (count < x.due && b.span < x.since + 2000) then b else b.substitute n x.lane

/-- What a port that is up sends when the block settles: LINK flits that waited, and DATA flits with the packets that have credit, while the retry buffer of 2,048 flits has room
and no lane changes over (R324, R328, R337); with nothing else to send, a NULL flit (R327; log 3). -/
def Block.transmit (b : Block) (n : Nat) : Block :=
  if !b.carries n then b
  else
    let b := (b.switchLane n).sendWaiting n
    let p := b.port n
    let (now, later, used) := if p.substPending.isEmpty then p.ready (15 * (2048 - p.retry.length)) [] p.txq else ([], p.txq, p.used)
    if now.isEmpty then b.emit n 0 0 []
    else
      let xs := pktSlots now
      (b.onPort n (fun p => { p with txq := later, used := used })).emitSlots n xs xs.length

/-! Fabric time -/

/-- The payload of a TIME flit (R345). -/
structure TimeMsg where
  txTime : Nat
  echoTx : Nat
  echoRx : Nat
  depth : Nat
  role : Nat
  locked : Bool
deriving DecidableEq, Repr

/-- A TIME flit's fields (R345). -/
def timeMsg (f : Flit) : TimeMsg :=
  let v := leAt f.payload 0 32
  { txTime := bitsOf v 63 0, echoTx := bitsOf v 127 64, echoRx := bitsOf v 191 128, depth := bitsOf v 195 192, role := bitsOf v 197 196,
    locked := bitsOf v 198 198 == 1 }

/-- The offset of the parent (R346): `>>` rounds toward minus infinity. -/
def timeOffset (m : TimeMsg) (t4 : Nat) : Int :=
  let delay : Int := (((t4 : Int) - m.echoTx) - ((m.txTime : Int) - m.echoRx)) / 2
  ((m.txTime : Int) + delay) - t4

/-- Five consecutive offsets within 4 ns of each other, in 1/16 ns (R347). -/
def steady (l : List Int) : Bool := l.length == 5 && l.all (fun a => l.all (fun b => a - b ≤ 64))

/-- Fabric time set anew: no offset, edge or fraction from before counts any more (R347, R348). -/
def Clk.stepTo (c : Clk) (fab : Nat) : Clk := { c with fab := fab, frac := 0, recent := [], ppsLast := none }

/-- A locked clock slews by `by_` units toward its parent, never back behind `before` (R346); where it is the clock shown, durations follow it (R17). -/
def Clk.slew (c : Clk) (off : Int) (before by_ : Nat) (shown : Bool) : Clk :=
  let fab := if 0 < off then c.fab + by_ else max before (c.fab - by_)
  { c with fab := fab, span := if shown then c.span + fab - c.fab else c.span }

/-- A member follows its parent (R346, R347): it locks after five steady offsets, steps to the parent once before step 0, and slews from then on. -/
def Clk.follow (c : Clk) (off : Int) (m : TimeMsg) (t4 : Nat) (begun : Bool) (before by_ : Nat) (shown : Bool) : Clk :=
  let recent := (c.recent ++ [off]).drop ((c.recent.length + 1) - 5)
  let c := { c with offset := off, offsetLate := begun, recent := recent, parentFlitAt := c.span / 16, slewAt := c.own - (c.own - c.slewAt) % 1250 }
  if !c.locked && m.locked && steady recent && m.depth + 1 ≤ 8 then
    let c := { c with locked := true, depth := m.depth + 1 }
    if begun then c else c.stepTo ((t4 : Int) + off).toNat
  else if c.locked then
    (if m.depth + 1 ≤ 8 then { c with depth := m.depth + 1 } else { c with locked := false, depth := 15 } : Clk).slew off before by_ shown
  else c

/-- Units of 1/16 ns that 50 ppm allow since the last flit of the parent, at most the offset (R346). What 10 us allow bounds it: a longer silence is HOLDOVER, in which nothing
slews. -/
def Clk.mayslew (c : Clk) (off : Int) : Nat := Nat.min off.natAbs (Nat.min (c.own - c.slewAt) 10000 / 1250)

/-- What the echo of a port and the peer's state become with an intact TIME flit (R345, R351). -/
def Port.heard (p : Port) (m : TimeMsg) (t4 now : Nat) : Port := { p with echoRx := t4, echoTx := m.txTime, echoAt := now, peerLocked := m.locked, peerDepth := m.depth }

/-- Has a port delivered a TIME flit within the last 10 us, so that its peer's state is known (R351)? -/
def Block.hears (b : Block) (n : Nat) : Bool := b.up n && b.span < (b.port n).echoAt + 10000

/-- TIME_FLIT (R345 to R347, R351, R352, R355): a port that carries no traffic takes none. The echo is kept; from the parent in use the offset is computed, the clock locks, steps
once before step 0, or slews by a part of what 50 ppm allow (log 15). In HOLDOVER the module follows nobody until it takes a parent again: TIME_ALT, or TIME_PARENT after 1 s
without a gap. -/
def execTimeFlit (t port : Nat) (f : Flit) (t4 : Nat) (s : State) : Host.Outcome State Fault Refusal :=
  let before := s.m.clk.fab
  let s := s.on (·.advanceTo t)
  .next (if !s.m.carries port then s else s.flitRow port 3 f (fun s =>
    let m := timeMsg f
    let gap := (s.m.port port).echoAt + 10000 ≤ s.m.span
    (s.goodFlit port f).on (fun b =>
      let b := b.onPort port (fun p => p.heard m t4 b.span)
      let b := if port == fld b.fab.cfg 97 93 && (b.clk.parentInUse != port || b.clk.holdover) then
          { b with clk := { b.clk with primarySince := if !m.locked then none else if gap then some b.span else some (b.clk.primarySince.getD b.span) } }
        else b
      if !b.clk.follows || b.clk.parentInUse != port || b.clk.holdover then b
      else
        let arrived := ((t4 : Int) - (b.port port).asym).toNat
        let (k, b) := b.freeNat (b.clk.mayslew (timeOffset m arrived) + 1)
        { b with clk := b.clk.follow (timeOffset m arrived) m arrived (b.jobRuns && b.job.begun) before k b.timeValid })))

/-- TIME_FLIT_SEND (R345, R347, R348): every UP port sends a TIME flit; the first one after a FAB_CFG write that makes the module master starts fabric time at 0, and locks it. -/
def execTimeFlitSend (t : Nat) (s : State) : Host.Outcome State Fault Refusal :=
  .next (atTime t (fun b =>
    let b := if b.clk.role == 1 && !b.clk.locked && b.power.main == .on && (List.range 18).any b.up then { b with clk := { b.clk.stepTo 0 with locked := true, depth := 0 } } else b
    ((List.range 18).filter (fun n => b.up n && b.power.main == .on)).foldl (fun b n =>
      let p := b.port n
      let v := putBits (putBits (putBits (putBits (putBits (putBits 0 198 198 (b2n b.clk.locked)) 197 196 b.clk.role) 195 192 b.clk.depth)
        191 128 p.echoRx) 127 64 p.echoTx) 63 0 b.clk.fab
      let f : Flit := { head := setFld (setFld (setFld (0 : BitVec 64) 51 40 p.rxAck) 38 36 3) 35 30 0x3F, payload := leBytes 240 v, crc := 0 }
      let f := { f with crc := crc64 (flitBytes f) }
      (b.onPort n (fun p => { p with sent := p.sent ++ [f] })).bump (.flitsTx n)) b) s)

/-- Another parent is followed (R347, R351): DEPTH is its DEPTH + 1, and where that exceeds 8 the module is unlocked. -/
def Block.takeParent (b : Block) (n : Nat) : Block :=
  let d := (b.port n).peerDepth + 1
  { b with clk := { b.clk with parentInUse := n, holdover := false, holdoverAt := none, primarySince := none, recent := [], parentFlitAt := b.span, slewAt := b.clk.own,
                               depth := if b.clk.locked && d ≤ 8 then d else 15, locked := b.clk.locked && d ≤ 8 } }

/-- The alternate is followed once it is UP and locked: its peer says so in flits that still come (R351). -/
def Block.followAlt (b : Block) : Block :=
  let alt := fld b.fab.cfg 102 98
  if b.clk.holdover && b.hears alt && (b.port alt).peerLocked then b.takeParent alt else b

/-- PARENT_TIMEOUT (R351): no intact TIME flit of the parent in use for 10 us, or its port down, sets HOLDOVER; TIME_ALT is followed when UP and locked; a backup
master with no alternate becomes acting master. -/
def execParentTimeout (t : Nat) (s : State) : Host.Outcome State Fault Refusal :=
  .next (atTime t (fun b =>
    if !b.clk.follows || (b.up b.clk.parentInUse && b.span < b.clk.parentFlitAt + 10000) then b else b.loseParent.followAlt) s)

/-- PARENT_RESTORE (R351): after 1 s of locked flits from TIME_PARENT, which still come, the module follows it again. -/
def execParentRestore (t : Nat) (s : State) : Host.Outcome State Fault Refusal :=
  .next (atTime t (fun b =>
    let par := fld b.fab.cfg 97 93
    match b.clk.primarySince with
    | some since =>
      if since + 1000000000 ≤ b.span && (b.clk.parentInUse != par || b.clk.holdover) && b.hears par && (b.port par).peerLocked && b.clk.role != 1 && b.clk.role != 3 then
        b.takeParent par
      else b
    | none => b) s)

/-- TIME_LOST (R352): 2 ms of holdover in a job, or an offset above 50 ns measured after step 0, raises TIME_LOST, class J. -/
def execTimeLost (t : Nat) (s : State) : Host.Outcome State Fault Refusal :=
  let s := s.on (·.advanceTo t)
  let held := match s.m.clk.holdoverAt with
    | some at_ => s.m.clk.holdover && at_ + 2000000 ≤ s.m.span
    | none => false
  if s.m.jobRuns && (held || (s.m.job.begun && s.m.clk.offsetLate && 800 < s.m.clk.offset.natAbs)) then .next (s.raiseErr { cls := .j, code := 0x31, at_ := 0 })
  else .next s

/-- PPS_IN_EDGE (R353): on a master or acting master the edge steers the rate by at most 10 ppm and PPS_LOCK is set; elsewhere it is timestamped for the log.
Both count it and its deviation (R552). A deviation of 1 ns is 10^-9 of the rate. -/
def execPpsInEdge (t : Nat) (s : State) : Host.Outcome State Fault Refusal :=
  .next (atTime t (fun b =>
    let dev : Int := match b.clk.ppsLast with
      | some l => (b.fabNs : Int) - l - 1000000000
      | none => 0
    let c := { b.clk with ppsLast := some b.fabNs, ppsAt := some b.span }
    let b := (b.bump (.life 0xC 0)).raiseTo (.life 0xC 1) dev.natAbs
    if b.clk.role == 1 || b.clk.role == 3 then
      { b with clk := { c with ppsLock := b.clk.role == 1 || c.ppsLock, ppsRate := max (-10000) (min 10000 (c.ppsRate - dev)) } }
    else { b with clk := c }) s)

/-- PPS_LOSS (R353): no edge for 1.5 s clears PPS_LOCK; the next edge begins anew. -/
def execPpsLoss (t : Nat) (s : State) : Host.Outcome State Fault Refusal :=
  .next (atTime t (fun b =>
    match b.clk.ppsAt with
    | some l => if l + 1500000000 ≤ b.span then { b with clk := { b.clk with ppsLock := false, ppsRate := 0, ppsLast := none, ppsAt := none } } else b
    | none => b) s)

end Sys2Proof.Machine
end

