-- ==== Sys2Proof/Machine/Descs.lean ====
section
/-! DEFINITION. The descriptors of R440 as their fields: what a host may write of each and in which class (R16, R435 to R438), reading and writing them whole,
and what a field does when it is applied. -/
namespace Sys2Proof.Machine

/-- A configuration class (R435 to R437). -/
inductive FClass where
  | open_ | step | idle
deriving DecidableEq, Repr

/-- A field a host may write: its bits, its class, and whether a 1 clears it (RW1C). -/
structure DField where
  hi : Nat
  lo : Nat
  cls : FClass
  w1c : Bool := false
deriving DecidableEq, Repr

/-- Fields of one class by their bits. -/
def fieldsOf (c : FClass) (l : List (Nat × Nat)) : List DField := l.map (fun (h, w) => { hi := h, lo := w, cls := c })

/-- The writable fields of a KIND, by the tables of R204, R230, R200, R259, R137, R227, R293, R316, R409, R411, R272, R503, R585 and R546. -/
def descFields : Nat → List DField
  | 0x01 => fieldsOf .step [(511, 480), (479, 448), (447, 416), (415, 384), (383, 352), (107, 92), (55, 55)]
      ++ fieldsOf .idle [(351, 330), (319, 298), (287, 266), (255, 234), (223, 208), (207, 192), (191, 176), (175, 160), (159, 144), (143, 108), (67, 58), (54, 54)]
  | 0x02 => fieldsOf .step [(63, 48), (47, 32), (15, 12), (7, 7)] ++ fieldsOf .idle [(6, 6), (5, 4)]
  | 0x03 => fieldsOf .idle [(127, 112), (99, 88)] ++ [{ hi := 64, lo := 64, cls := .open_, w1c := true }] ++ fieldsOf .step [(63, 32)]
  | 0x04 => fieldsOf .step [(63, 48), (47, 40), (39, 36), (19, 18)] ++ [{ hi := 1, lo := 1, cls := .step, w1c := true }]
  | 0x05 => fieldsOf .step [(63, 32), (8, 8), (7, 4)]
  | 0x06 => fieldsOf .idle [(119, 116), (115, 96), (63, 12), (0, 0)]
  | 0x07 => fieldsOf .idle [(116, 104), (92, 80), (63, 0)]
  | 0x08 => fieldsOf .idle [(127, 110), (109, 103), (102, 98), (97, 93), (92, 91), (90, 77)]
  | 0x09 => fieldsOf .idle [(511, 460), (459, 408), (407, 356), (355, 304), (303, 280), (279, 268), (267, 256), (255, 236), (235, 222), (221, 214), (213, 206),
      (205, 203), (202, 202), (201, 201), (200, 200)]
  | 0x0A => fieldsOf .step [(95, 80), (79, 72), (43, 40)]
  | 0x0B => fieldsOf .idle [(203, 152), (151, 124), (3, 3), (2, 2), (1, 0)]
  | 0x0C => fieldsOf .idle ((List.range 16).map (fun n => (16 * n + 783, 16 * n + 768))) ++ fieldsOf .step [(767, 704), (2, 2), (1, 0)]
      ++ fieldsOf .idle [(383, 332), (331, 280), (279, 228), (227, 176), (175, 144), (111, 98), (97, 90)]
      ++ fieldsOf .idle ((List.range 64).map (fun n => (1087 + 64 * n, 1024 + 64 * n)))
  | 0x0D => fieldsOf .open_ [(63, 48)]
  | 0x0E => fieldsOf .idle [(511, 460), (459, 440)] ++ fieldsOf .open_ [(439, 408), (407, 400), (391, 384), (383, 352), (351, 336), (15, 8), (0, 0)]
  | _ => []

/-- The reserved bits of the descriptors, words and table entries that an image carries (R15), by KIND where they have one: layer (R110, R204), guard (R230), norm (R200), storm (R259),
magpie (R137), cache (R409), sequence entry (R411); group (R359); drain-table entry (R128), lane program entry (R165) and slot (R167); peer (R320) and route (R321). -/
def reservedOf : Nat → List (Nat × Nat)
  | 0x01 => [(329, 320), (297, 288), (265, 256), (233, 224), (91, 88), (57, 56), (53, 0)]
  | 0x02 => [(31, 16), (11, 8), (3, 0)]
  | 0x03 => [(87, 65)]
  | 0x04 => [(23, 20), (15, 2), (0, 0)]
  | 0x05 => [(31, 9), (3, 0)]
  | 0x09 => [(199, 0)]
  | 0x0A => [(47, 44), (39, 32)]
  | _ => []
def groupReserved : List (Nat × Nat) := [(209, 0)]
def drainReserved : List (Nat × Nat) := [(127, 102), (95, 64)]
def slotReserved : List (Nat × Nat) := [(23, 16)]
def programReserved : List (Nat × Nat) := [(63, 12)]
def peerReserved : List (Nat × Nat) := [(30, 19)]
def routeReserved : List (Nat × Nat) := [(14, 10)]

/-- The reset value of a magpie descriptor (R137). -/
def magpieReset : BitVec 64 := setFld (setFld (0 : BitVec 64) 63 32 0x7F800000) 7 4 3
/-- The magpie descriptor of a tag. -/
def Block.magpie (b : Block) (tag : Nat) : BitVec 64 := (assocGet tag b.desc.magpie).getD magpieReset

/-- The parcel descriptor (R272). -/
def parcelDesc (p : Parcel) : Nat :=
  putBits (putBits (putBits (putBits (putBits (putBits 0 203 152 p.base) 151 124 p.pages) 111 96 p.id) 3 3 (b2n p.codec)) 2 2 (b2n p.pin)) 1 0 p.home

/-- The snapshot descriptor with its failure history (R503). -/
def Block.snapDesc (b : Block) : Nat := ((List.range 64).zip b.desc.history).foldl (fun v (i, t) => putBits v (1087 + 64 * i) (1024 + 64 * i) t) b.desc.snap.toNat

/-- The power descriptor (R585), with THROTTLE_NS as of now. -/
def Block.powerDesc (b : Block) : BitVec 256 :=
  match b.power.throttledAt with
  | some since => setFld b.desc.power 255 192 (addSat (fld b.desc.power 255 192) (b.span - since))
  | none => b.desc.power

/-- A descriptor of R440 as one number; none where its INDEX names nothing. -/
def Block.getDesc (b : Block) (kind index : Nat) : Option Nat :=
  match kind with
  | 0x01 => (b.desc.layer[index]?).map (·.toNat)
  | 0x02 => (b.desc.guard[index]?).map (·.toNat)
  | 0x03 => some b.desc.norm.toNat
  | 0x04 => some b.desc.storm.toNat
  | 0x05 => some (b.magpie index).toNat
  | 0x06 => some b.desc.tallyBuf.toNat
  | 0x07 => some b.desc.hostWin.toNat
  | 0x08 => some b.fab.cfg.toNat
  | 0x09 => some b.desc.cache.toNat
  | 0x0A => some (b.seq index).toNat
  | 0x0B => (b.parcel index).map parcelDesc
  | 0x0C => some b.snapDesc
  | 0x0D => some b.powerDesc.toNat
  | 0x0E => some b.desc.trace.toNat
  | _ => none

/-- A descriptor put back whole; of the power descriptor, its one writable field. -/
def Block.setDesc (b : Block) (kind index v : Nat) : Block :=
  match kind with
  | 0x01 => { b with desc := { b.desc with layer := modAt index (fun _ => BitVec.ofNat 512 v) b.desc.layer } }
  | 0x02 => { b with desc := { b.desc with guard := modAt index (fun _ => BitVec.ofNat 64 v) b.desc.guard } }
  | 0x03 => { b with desc := { b.desc with norm := BitVec.ofNat 128 v } }
  | 0x04 => { b with desc := { b.desc with storm := BitVec.ofNat 128 v } }
  | 0x05 => { b with desc := { b.desc with magpie := assocSet index (BitVec.ofNat 64 v) b.desc.magpie } }
  | 0x06 => { b with desc := { b.desc with tallyBuf := BitVec.ofNat 128 v } }
  | 0x07 => { b with desc := { b.desc with hostWin := BitVec.ofNat 128 v } }
  | 0x08 => { b with fab := { b.fab with cfg := BitVec.ofNat 128 v } }
  | 0x09 => { b with desc := { b.desc with cache := BitVec.ofNat 512 v } }
  | 0x0A => { b with desc := { b.desc with seqs := assocSet index (BitVec.ofNat 128 v) b.desc.seqs } }
  | 0x0B => { b with tiers := { b.tiers with parcels := b.tiers.parcels.map (fun (p : Parcel) =>
      if p.id == index then { p with codec := bitsOf v 3 3 == 1, pin := bitsOf v 2 2 == 1, home := bitsOf v 1 0 } else p) } }
  | 0x0C => { b with desc := { b.desc with snap := BitVec.ofNat 1024 v, history := (List.range 64).map (fun n => bitsOf v (1087 + 64 * n) (1024 + 64 * n)) } }
  | 0x0D => { b with desc := { b.desc with power := setFld b.desc.power 63 48 (bitsOf v 63 48) } }
  | 0x0E => { b with desc := { b.desc with trace := BitVec.ofNat 512 v } }
  | _ => b

/-- The shadow of a field, if one is held (R436). -/
def Block.shadowOf (b : Block) (kind index : Nat) (f : DField) : Option Shadow :=
  b.path.shadows.find? (fun x => x.kind == kind && x.index == index && x.hi == f.hi && x.lo == f.lo)

/-- A descriptor with its pending shadows in place of the present values (R439). -/
def Block.withShadows (b : Block) (kind index v : Nat) : Nat :=
  b.path.shadows.foldl (fun v x => if x.kind == kind && x.index == index then putBits v x.hi x.lo x.value else v) v

/-- The fields that a payload writes (R438): those whose new value differs from the present one or the shadow, and set bits of RW1C fields. -/
def Block.written (b : Block) (kind index old new : Nat) : List DField :=
  (descFields kind).filter (fun f =>
    let x := bitsOf new f.hi f.lo
    if f.w1c then x == 1
    else x != (match b.shadowOf kind index f with
      | some s => s.value
      | none => bitsOf old f.hi f.lo))

/-- The descriptor as it stands after the written fields (R438). -/
def afterWrite (old new : Nat) (fs : List DField) : Nat := fs.foldl (fun v f => putBits v f.hi f.lo (if f.w1c then 0 else bitsOf new f.hi f.lo)) old

/-! Sequence entries and page tables in memory (R406, R411) -/

/-- PAGES of a sequence entry. -/
def seqPages (e : BitVec 128) : Nat := fld e 63 48

/-- A slot's entry written to the sequence table (R411). -/
def State.writeSeqEntry (s : State) (slot : Nat) : State :=
  if slot < s.m.cacheD.slots then s.devWrite (s.m.cacheD.seqTable + 16 * slot) (leBytes 16 (s.m.seq slot).toNat) else s

/-- A slot's page-table entries: the units of its pages, and 0xFFFF_FFFF in the places it no longer holds (R406). -/
def State.writePageTable (s : State) (slot : Nat) (units : List Nat) (before : Nat) : State :=
  (List.range (Nat.max units.length before)).foldl (fun s i => s.devWrite (s.m.cacheD.ptAddr slot i) (leBytes 4 ((units[i]?).getD 0xFFFFFFFF))) s

/-- A slot keeps nothing in pages or staging. -/
def Block.forgetSlot (b : Block) (slot : Nat) : Block :=
  { b with cache := { flushes := b.cache.flushes.filter (fun x => x.1 != slot), flushed := b.cache.flushed.filter (fun x => x.1 != slot),
                      written := b.cache.written.filter (fun x => x.1 != slot) } }

/-- The pages of a slot are freed (R411, R413), and counted. -/
def State.freeSlot (s : State) (slot : Nat) : State :=
  let n := seqPages (s.m.seq slot)
  let s := if n = 0 then s else s.writePageTable slot [] n
  s.on (fun b => (({ b with desc := { b.desc with seqs := assocSet slot (setFld (b.seq slot) 63 48 0) b.desc.seqs } } : Block).forgetSlot slot).bump .pagesFreed n)

/-! Fields applied -/

/-- The clock where TIME_ROLE or TIME_PARENT of FAB_CFG was written (R347, R348, R350): a module made master starts anew with its next TIME flit, one that is master counts on; a module
that stays the member it was keeps its lock, any other is unlocked. No offset of before counts (R352). PPS_LOCK is a master's. -/
def Clk.configured (c : Clk) (role parent now : Nat) : Clk :=
  if role == 1 && c.role == 1 then { c with parentInUse := parent }
  else
  let keeps := c.locked && role == c.role && parent == c.parentInUse
  { c with role := role, parentInUse := parent, locked := keeps, depth := if role == 1 then 0 else if keeps then c.depth else 15, ppsLock := false, ppsRate := 0,
           ppsLast := none, ppsAt := none, offset := 0, offsetLate := false, holdover := false, holdoverAt := none, primarySince := none, recent := [], parentFlitAt := now, slewAt := c.own }

/-- A port as a FAB_CFG that was written leaves it (R314): not enabled, it is DISABLED and idle; enabled anew, it is DOWN, or
FAILED where it is an SP0 that failed its self-test (R341). -/
def Port.enabled (p : Port) (on : Bool) : Port :=
  if !on then { p with linkState := 5, retry := [], linkq := [], rxPart := [], substPending := [], switch := none, peerLocked := false, peerDepth := 15 }
  else if p.linkState == 5 then { p with linkState := if p.dead then 4 else 0 } else p

/-- A field of FAB_CFG takes effect, of the port or the time fields (R314, R316, R345). Where SP0 is disabled, or the port it serves, it serves nothing: the port is back on its own engine,
FAILED unless it is disabled itself, and retrains (R338, R340). -/
def Block.applyFabCfg (b : Block) (hi : Nat) : Block :=
  let en := fld b.fab.cfg 127 110 &&& fld b.boot.recordBody 1359 1342
  let on (n : Nat) : Bool := en / 2 ^ n % 2 == 1
  let standing := (b.port 17).standsFor
  let b := if standing == 0x1F || (on 17 && on standing) then b
    else
      let was := (b.port standing).subst
      let b := b.returnFibres standing
      if was && on standing && (b.port standing).isUp then (b.onPort standing (·.failed b.span)).bump (.linkFails standing) |>.raiseC 0x33 (some standing) else b
  { b with ports := ((List.range b.ports.length).zip b.ports).map (fun ((n, p) : Nat × Port) => p.enabled (on n)),
           clk := if hi == 92 || hi == 97 then b.clk.configured (fld b.fab.cfg 92 91) (fld b.fab.cfg 97 93) b.span else b.clk }

/-- What follows a field being applied: E_L sets both E_GEN (R204); a clear of WIDENED ends the window (R260); STATE of a sequence (R411); FAB_CFG; EN of the
trace stream zeroes WRITE_SEQ and DROPPED (R546). -/
def State.fieldApplied (s : State) (kind index hi v old : Nat) : State :=
  if kind == 0x01 && hi == 67 then
    s.on (fun b => { b with desc := { b.desc with layer := modAt index (fun d => setFld (setFld d 87 78 v) 77 68 v) b.desc.layer } })
  else if kind == 0x04 && hi == 1 then
    s.on (fun b => { b with desc := { b.desc with storm := setFld (setFld (setFld b.desc.storm 1 1 0) 35 32 0) 31 24 0 } })
  else if kind == 0x0A && hi == 43 then
    let s := s.freeSlot index
    s.on (fun b =>
      let e := b.seq index
      let e := if old == v && fld e 71 64 == 0 then e else setFld e 31 0 (b.job.step + b2n (b.jobRuns && b.job.begun))
      let e := if v == 1 then setFld (setFld e 127 96 0) 71 64 0 else setFld e 71 64 0
      { b with desc := { b.desc with seqs := assocSet index e b.desc.seqs } })
  else if kind == 0x08 then s.on (·.applyFabCfg hi)
  else if kind == 0x0E && hi == 0 && v == 1 && old == 0 then
    s.on (fun b => { b with desc := { b.desc with trace := setFld (setFld b.desc.trace 319 256 0) 255 192 0 }, safety := { b.safety with tracePos := 0 } })
  else s

/-- One field of a descriptor is applied. -/
def State.applyField (s : State) (kind index hi lo v : Nat) (w1c : Bool) : State :=
  match s.m.getDesc kind index with
  | none => s
  | some d =>
    let s := (s.on (fun b => b.setDesc kind index (putBits d hi lo (if w1c then 0 else v)))).fieldApplied kind index hi v (bitsOf d hi lo)
    if kind == 0x0A then s.writeSeqEntry index else s

/-- Is a field of the descriptor cleared by a 1. -/
def isW1c (kind hi lo : Nat) : Bool := (descFields kind).any (fun f => f.hi == hi && f.lo == lo && f.w1c)

/-- Every shadow is applied, in mailbox order (R436). -/
def State.applyShadows (s : State) : State :=
  let xs := s.m.path.shadows
  xs.foldl (fun s x => s.applyField x.kind x.index x.hi x.lo x.value (isW1c x.kind x.hi x.lo)) (s.on (fun b => { b with path := { b.path with shadows := [] } }))

end Sys2Proof.Machine
end

