-- ==== Sys2Proof/Machine/Tallies.lean ====
section
/-! DEFINITION. The tally slot and its records (R222 to R229). -/
namespace Sys2Proof.Machine

/-- One counter of a bank. -/
def TallyBank.get (t : TallyBank) (tag fmt : Nat) (c : TallyCtr) : Nat := (assocGet (tag, fmt, c) t.counts).getD 0

/-- A counter block (R228). -/
def counterBlock (t : TallyBank) (tag fmt : Nat) : List Byte :=
  ([.elements, .zeros, .sat, .nonfin, .vanish, .drop].map (fun c => leBytes 8 (t.get tag fmt c))).flatten

/-- FMT_MASK (R228): the slots that counted an element. -/
def fmtMask (t : TallyBank) (tag : Nat) : Nat := (List.range 13).foldl (fun m f => if 0 < t.get tag f .elements then m + 2 ^ f else m) 0

/-- A tag record (R228). -/
def Block.tagRecord (b : Block) (t : TallyBank) (tag : Nat) : List Byte :=
  let owl := (assocGet tag b.tally.owl).getD {}
  let head := putBits (putBits (putBits (putBits (putBits (putBits 0 127 96 owl.mean.toNat) 95 64 ((assocGet tag t.maxAbs).getD 0).toNat)
    63 48 ((assocGet tag t.owlJumps).getD 0)) 44 32 (fmtMask t tag)) 31 16 ((assocGet tag t.tagMismatches).getD 0)) 11 0 tag
  leBytes 16 head ++ ((List.range 13).map (counterBlock t tag)).flatten

/-- A layer record (R229). -/
def layerRecord (t : TallyBank) (l : Nat) : List Byte :=
  let c (k : LayerCtr) : List Byte := leBytes 4 ((assocGet (l, k) t.layers).getD 0)
  leBytes 4 l ++ c .spanOverrun ++ c .rrFailed ++ c .rrSpans ++ c .unrepaired ++ c .fbCascade ++ c .fbOut ++ c .fbOwlLo ++ c .fbOwlHi ++ c .fbAcc
    ++ c .fallbacks ++ c .tiles

/-- The slot header (R228). -/
def slotHeader (t : TallyBank) (tags layers : Nat) : List Byte :=
  leBytes 64 (putBits (putBits (putBits (putBits (putBits (putBits (putBits (putBits (putBits 0 255 192 t.modFallbacks) 191 128 t.modTiles) 100 100 (b2n t.late))
    99 99 (b2n t.stormAt)) 98 98 (b2n t.widened)) 97 96 t.sched) 95 80 layers) 79 64 tags) 63 0 t.step)

/-- The slot trailer (R229). -/
def slotTrailer (step len : Nat) : List Byte := leBytes 64 (putBits (putBits 0 127 64 len) 63 0 step)

/-- Insert into a rising list without repeats. -/
def insertAsc (x : Nat) : List Nat → List Nat
  | [] => [x]
  | y :: ys => if x < y then x :: y :: ys else if x == y then y :: ys else y :: insertAsc x ys

/-- The tally tags that the almanac's tensor table names, rising (R228). -/
def Block.tallyTags (b : Block) : List Nat := match b.job.almanac with
  | some a => (a.tensors.map (fun v => (tensorOf v).tag)).foldl (fun l t => if t ≤ 0xFFF then insertAsc t l else l) []
  | none => []

/-- A slot but for its trailer: header, the records of tags, and those of every layer (R228, R439). -/
def Block.slotBytes (b : Block) (t : TallyBank) (tags : List Nat) : List Byte :=
  slotHeader t tags.length b.layers ++ (tags.map (b.tagRecord t)).flatten ++ ((List.range b.layers).map (layerRecord t)).flatten

/-- Host address of the slot of a step in the tally buffer (R227, R228). -/
def Block.slotAddr (b : Block) (step : Nat) : Nat :=
  let d := b.desc.tallyBuf
  b.hostAddr (fld d 63 12 * 4096 + step % (fld d 119 116 + 1) * (fld d 115 96 * 4096))

/-- The slot of the ended step is written, all but its trailer (R228); an earlier one without its trailer is abandoned (R229). -/
def State.writeTallySlot (s : State) : State :=
  if !flag s.m.desc.tallyBuf 0 then s
  else
    let s := s.on (fun b => { b with tally := { b.tally with frozen := { b.tally.frozen with late := b.tally.slotStep.isSome } } })
    let f := s.m.tally.frozen
    (s.writeHost (s.m.slotAddr f.step) (s.m.slotBytes f s.m.tallyTags)).on (fun b => { b with tally := { b.tally with slotStep := some f.step } })

/-- TALLY_SLOT_TRAILER (R229): every write of the slot is visible to the host, and its trailer follows. -/
def execTallySlotTrailer (t : Nat) (s : State) : Host.Outcome State Fault Refusal :=
  let s := s.on (·.advanceTo t)
  match s.m.tally.slotStep with
  | none => .next s
  | some step =>
    let n := (s.m.slotBytes s.m.tally.frozen s.m.tallyTags).length
    .next ((s.writeHost (s.m.slotAddr step + n) (slotTrailer step (n + 64))).on (fun b => { b with tally := { b.tally with slotStep := none } }))

end Sys2Proof.Machine
end

