-- ==== Sys2Proof/Machine/Bear.lean ====
section
/-! DEFINITION. The bear (14): the state section, images, the barrier, the copier, destinations and trailers (R500 to R520), and the time limit of a
restore (R523). -/
namespace Sys2Proof.Machine

/-! The state section (R500; what the manual's layouts do not fix of it, log 31) -/

/-- Tags of the magpie descriptors in use: those held, and the tags of MAGPIE tensors (R440). -/
def Block.magpieTags (b : Block) : List Nat :=
  let own := b.desc.magpie.foldl (fun l x => insertAsc x.1 l) []
  match b.job.almanac with
  | some a => (a.tensors.map tensorOf).foldl (fun l t => if t.magpie then insertAsc t.tag l else l) own
  | none => own

/-- The digest records of a group, newest first (R390, R439). -/
def Block.digestRecords (b : Block) (g : Nat) : List Byte :=
  ((List.range 4).map (fun k =>
    match b.mill.lastStep.bind (fun t => b.mill.digests.find? (fun d => d.group == g && d.step + k == t)) with
    | some d => leBytes 8 d.step ++ leBytes 8 d.send.toNat ++ leBytes 8 d.recv.toNat
    | none => List.replicate 24 0)).flatten

/-- Program table and store of a croft (R165). -/
def Croft.programBytes (c : Croft) : List Byte :=
  ((List.range 64).map (fun i => leBytes 8 ((c.progTable[i]?).getD 0).toNat)).flatten
    ++ ((List.range 2048).map (fun i => leBytes 8 ((c.progStore[i]?).getD 0).toNat)).flatten
/-- Drain table of a croft (R128). -/
def Croft.drainBytes (c : Croft) : List Byte := ((List.range 256).map (fun i => leBytes 16 ((c.drainTable[i]?).getD 0).toNat)).flatten

/-- The identity part of the state section (R500, item 11). -/
def Block.identityPart (b : Block) : List Byte :=
  (b.fab.peers.map (fun v => leBytes 4 v.toNat)).flatten ++ ((b.fab.hamletRoute ++ b.fab.villageRoute ++ b.fab.hallRoute).map (fun v => leBytes 2 v.toNat)).flatten

/-- The job part of the state section (R500, items 1 to 10); item 8 is a rollout job's, whose cache descriptor is VALID. -/
def Block.jobPart (b : Block) (step time : Nat) : List Byte :=
  leBytes 8 step ++ leBytes 8 time ++ leBytes 8 (fld b.desc.snap 575 512)
    ++ (b.desc.layer.map (fun v => leBytes 64 v.toNat)).flatten ++ (b.desc.guard.map (fun v => leBytes 8 v.toNat)).flatten
    ++ leBytes 16 b.desc.norm.toNat ++ leBytes 16 b.desc.storm.toNat
    ++ (b.magpieTags.map (fun t => leBytes 8 (b.magpie t).toNat)).flatten
    ++ leBytes 8 b.desc.groups.length ++ (b.desc.groups.map (fun g => leBytes 8 g.index ++ leBytes 64 g.desc.toNat ++ b.digestRecords g.index)).flatten
    ++ (if b.cacheD.valid then leBytes 64 b.desc.cache.toNat ++ ((List.range b.cacheD.slots).map (fun n => leBytes 16 (b.seq n).toNat)).flatten else [])
    ++ (b.tallyTags.map (fun t =>
      let o := (assocGet t b.tally.owl).getD {}
      b.tagRecord b.tally.frozen t ++ leBytes 4 o.mean.toNat ++ leBytes 4 (b2n o.valid))).flatten
    ++ (b.crofts.map (fun c => c.drainBytes ++ c.programBytes)).flatten

/-- A list of n entries of w bytes from an offset. -/
def entriesAt (bs : List Byte) (off w n : Nat) : List Nat := (List.range n).map (fun i => leAt bs (off + w * i) w)

/-- A tag record read back into a bank. -/
def TallyBank.readRecord (t : TallyBank) (tag : Nat) (bs : List Byte) (off : Nat) : TallyBank :=
  let head := leAt bs off 16
  let cs := ((List.range 13).map (fun f => ((List.range 6).zip [TallyCtr.elements, .zeros, .sat, .nonfin, .vanish, .drop]).map (fun (k, c) =>
    ((tag, f, c), leAt bs (off + 16 + 48 * f + 8 * k) 8)))).flatten
  { t with counts := t.counts ++ cs.filter (fun x => x.2 != 0), maxAbs := t.maxAbs ++ [(tag, BitVec.ofNat 32 (bitsOf head 95 64))],
           owlJumps := t.owlJumps ++ [(tag, bitsOf head 63 48)], tagMismatches := t.tagMismatches ++ [(tag, bitsOf head 31 16)] }

/-- The last step of the last window and whether the step before step S ran narrow, as the restored storm descriptor tells them (R261, R262; DEDUCED, log 102): a window
on the totals of step t covers steps t + 2 to t + 1 + WINDOW_STEPS. -/
def stormPast (d : BitVec 128) (step : Nat) : Option Nat × Bool :=
  let t := fld d 127 64
  if t == 2 ^ 64 - 1 then (none, fld d 19 18 != 2)
  else
    let last := t + 1 + fld d 47 40
    (if fld d 31 24 = 0 then some last else none, fld d 19 18 != 2 && !(t + 3 ≤ step && (flag d 1 || step ≤ last + 1)))

/-- The job part applied (R522 step 6); reserved bits read as 0 (R15). Item 8 is there where the part has room for it (R500). An image holds no layer counts: the first step's reduction
carries none (R214; DESIGN CHOICE, log 110). -/
def Block.applyJobPart (b : Block) (bs : List Byte) : Block :=
  let nl := b.desc.layer.length
  let o4 := 24 + 64 * nl
  let o5 := o4 + 8 * nl
  let tags := b.magpieTags
  let o7 := o5 + 32 + 8 * tags.length
  let ng := leAt bs o7 8
  let gAt (i : Nat) : Nat := o7 + 8 + 168 * i
  let o8 := gAt ng
  let tts := b.tallyTags
  let rollout := decide (o8 + 648 * tts.length + 20992 * b.crofts.length < bs.length)
  let cache := if rollout then BitVec.ofNat 512 (cleared (reservedOf 9) (leAt bs o8 64)) else b.desc.cache
  let ns := if rollout then (cacheDesc cache).slots else 0
  let o9 := if rollout then o8 + 64 + 16 * ns else o8
  let o10 := o9 + 648 * tts.length
  let words (kind off w n : Nat) : List Nat := (entriesAt bs off w n).map (cleared (reservedOf kind))
  let digests := ((List.range ng).map (fun i => ((List.range 4).map (fun k =>
    ({ group := leAt bs (gAt i) 8, step := leAt bs (gAt i + 72 + 24 * k) 8, send := BitVec.ofNat 64 (leAt bs (gAt i + 80 + 24 * k) 8),
       recv := BitVec.ofNat 64 (leAt bs (gAt i + 88 + 24 * k) 8) } : Digest))))).flatten
  let past := stormPast (BitVec.ofNat 128 (leAt bs (o5 + 16) 16)) (leAt bs 0 8)
  { b with
    desc := { b.desc with layer := (words 1 24 64 nl).map (BitVec.ofNat 512), guard := (words 2 o4 8 nl).map (BitVec.ofNat 64),
                          norm := BitVec.ofNat 128 (cleared (reservedOf 3) (leAt bs o5 16)), storm := BitVec.ofNat 128 (cleared (reservedOf 4) (leAt bs (o5 + 16) 16)),
                          magpie := tags.zip ((words 5 (o5 + 32) 8 tags.length).map (BitVec.ofNat 64)),
                          groups := (List.range ng).map (fun i => { index := leAt bs (gAt i) 8, desc := BitVec.ofNat 512 (cleared groupReserved (leAt bs (gAt i + 8) 64)) }),
                          cache := cache, seqs := if rollout then (List.range ns).zip ((words 10 (o8 + 64) 16 ns).map (BitVec.ofNat 128)) else b.desc.seqs },
    mill := { b.mill with digests := digests, lastStep := if leAt bs 0 8 = 0 then none else some (leAt bs 0 8 - 1) },
    tally := { b.tally with
               normSat := false, layerNow := [], layerLast := [], layerReduced := [],
               windowLast := past.1, lastNarrow := past.2,
               frozen := ((List.range tts.length).zip tts).foldl (fun (t : TallyBank) ((i, tag) : Nat × Nat) => t.readRecord tag bs (o9 + 648 * i)) { step := leAt bs 0 8 - 1 },
               owl := ((List.range tts.length).zip tts).map (fun ((i, tag) : Nat × Nat) =>
                 (tag, ({ mean := BitVec.ofNat 32 (leAt bs (o9 + 648 * i + 640) 4), valid := leAt bs (o9 + 648 * i + 644) 4 == 1 } : Owl))),
               live := { sched := fld (BitVec.ofNat 128 (leAt bs (o5 + 16) 16)) 17 16 } },
    crofts := ((List.range b.crofts.length).zip b.crofts).map (fun ((n, c) : Nat × Croft) =>
      let o := o10 + 20992 * n
      { c with drainTable := (entriesAt bs o 16 256).map (fun v => BitVec.ofNat 128 (cleared drainReserved v)), progTable := (entriesAt bs (o + 4096) 8 64).map (fun v => BitVec.ofNat 64 (cleared programReserved v)),
               progStore := (entriesAt bs (o + 4608) 8 2048).map (fun v => BitVec.ofNat 64 (cleared slotReserved v)) }) }

/-- The identity part applied (R522 step 6). -/
def Block.applyIdentity (b : Block) (bs : List Byte) : Block :=
  let routes (off n : Nat) : List (BitVec 16) := (entriesAt bs off 2 n).map (fun v => BitVec.ofNat 16 (cleared routeReserved v))
  { b with fab := { b.fab with peers := (entriesAt bs 0 4 18).map (fun v => BitVec.ofNat 32 (cleared peerReserved v)), hamletRoute := routes 72 8,
                               villageRoute := routes 88 16, hallRoute := routes 120 80 } }

/-! Included pages (R501) -/

/-- The parcels that EXCLUDE names (R503). -/
def Block.excludedIds (b : Block) : List Nat := (List.range 16).map (fun n => fld b.desc.snap (16 * n + 783) (16 * n + 768))

/-- The device addresses at which update runs read input slot 0: the held shard (R501). -/
def Block.shardAddresses (b : Block) : List Nat :=
  (b.updateRuns.filterMap (fun (c, i) => b.tensor (opA (b.op c i)).tensor)).filterMap (fun t => if t.inStore then none else some t.address)

/-- The ranges that step S writes of the master and moment tensors: generation (S + 1) mod 2 (R205, R501). -/
def Block.writeGeneration (b : Block) (step : Nat) : List Range :=
  (b.desc.layer.map (fun ld => [fld ld 159 144, fld ld 175 160, fld ld 191 176].filterMap (fun i => (b.tensor i).map (fun t =>
    (false, (atGen ld ((step + 1) % 2) t).address, 32768 * t.tiles))))).flatten

/-- Is a mapped page part of the snapshot of step S (R501). -/
def Block.included (b : Block) (step : Nat) (p : Page) : Bool :=
  !b.excludedIds.contains p.parcel
    && !(b.shardAddresses.any (fun a => match b.parcelAt a with
      | some q => q.id == p.parcel
      | none => false))
    && !(b.writeGeneration step).any (meets (false, 65536 * p.page, 65536))

/-- Is a page part of an edge table (R502, R518). -/
def Block.edgePage (b : Block) (page : Nat) : Bool :=
  b.desc.groups.any (fun g => gEdges g.desc != 0 && meets (false, gEdgeTable g.desc, 4 * gEdges g.desc) (false, 65536 * page, 65536))

/-! Writing an image -/

/-- Bytes of an image written at an offset of its slot, in each destination (R519): WRITE packets of at most 512 bytes to the partner, and the host window. The dies that
the packets name are log 32. A host-tier write fails while the link is insecure (R453), which abandons the image (R520). -/
def State.writeImage (s : State) (i : Image) (off : Nat) (bs : List Byte) : State :=
  let units := fld s.m.desc.snap 175 144
  let at_ := i.slot * units * 65536 + off
  let s :=
    if i.dest % 2 == 1 then
      (List.range (ceilDiv bs.length 512)).foldl (fun s k =>
        s.on (fun b => b.send (mkPkt (fld b.desc.snap 111 98) 16 b.moduleId 16 false 1 (fld b.desc.snap 383 332 + at_ + 512 * k) 0 b.job.id 0 ((bs.drop (512 * k)).take 512)))) s
    else s
  let s := s.on (·.fabricTraffic)
  if i.dest < 2 then s
  else if s.m.dev.ideState == 2 then s.abandonImage 4
  else s.writeHost (s.m.hostAddr (fld s.m.desc.snap 279 228 + at_)) bs

/-- The next bytes of an image, unless they would pass its slot (R520: ABANDONED_SLOT, with room kept for the trailer). They go out in whole slots of 16 bytes (R329); what does not
fill one goes with the bytes that follow. -/
def State.appendImage (s : State) (bs : List Byte) : State :=
  match s.m.snap.image with
  | none => s
  | some i =>
    if fld s.m.desc.snap 175 144 * 65536 < i.length + bs.length + 64 then s.abandonImage 3
    else
      let all := i.tail ++ bs
      let n := 16 * (all.length / 16)
      (s.writeImage i (i.length - i.tail.length) (all.take n)).on (fun b => b.onImage (fun i => { i with length := i.length + bs.length, tail := all.drop n }))

/-- The image header (R515). -/
def Block.imageHeader (b : Block) (i : Image) : List Byte :=
  leBytes 64 (putBits (putBits (putBits (putBits (putBits (putBits (putBits (putBits (putBits 0
    511 448 (match b.job.almanac with | some a => a.crc.toNat | none => 0)) 447 384 (mix b.job.key).toNat) 383 320 i.barrier) 319 256 (fld b.desc.snap 575 512))
    255 192 i.snapId) 191 128 (i.length + 64)) 127 96 i.records) 95 64 i.section_.length) 63 50 b.moduleId)

/-- DIGEST (R518): the page terms and the CRC of the job part. -/
def Image.total (i : Image) : BitVec 64 := i.digest + crc64 (i.section_.take i.jobPart)

/-- The header follows the last page record (R515, R517), once no page is left. -/
def State.sealImage (s : State) : State :=
  match s.m.snap.image with
  | some i =>
    if i.sealed_ || s.m.tiers.pages.any (fun p => p.bear == .protected_ || p.bear == .copying) then s
    else
      let s := if i.tail.isEmpty then s else s.writeImage i (i.length - i.tail.length) (slice i.tail 0 16)
      (s.writeImage i 0 (s.m.imageHeader i)).on (fun b => b.onImage (fun i => { i with sealed_ := true }))
  | none => s

/-- A page record (R516). -/
def State.pageRecord (s : State) (page : Nat) : List Byte :=
  let tile (k : Nat) : BitVec 64 × List Byte :=
    let a := 65536 * page + 32768 * k
    let bytes := s.mem.parcel.readBytes a 32768
    let h := tileHeader 2 true (s.m.elemsAt a) bytes
    (h, storedTile h (s.m.elemsAt a) bytes)
  let (h0, t0) := tile 0
  let (h1, t1) := tile 1
  leBytes 8 (65536 * page) ++ leBytes 8 h0.toNat ++ leBytes 8 h1.toNat ++ leBytes 8 0 ++ t0 ++ t1

/-- The digest term of a page (R518). -/
def State.pageTerm (s : State) (page : Nat) : BitVec 64 :=
  if s.m.edgePage page then 0 else crc64 (leBytes 8 (65536 * page) ++ s.mem.parcel.readBytes (65536 * page) 65536)

/-- The snapshot barrier of the boundary that begins step S (R511, R519): every included page is protected, the state section is captured, and writes that wait,
flushes and broadcasts begun before are pre-barrier writes. -/
def State.takeBarrier (s : State) (step time : Nat) : State :=
  let s := s.on (fun b =>
    let jp := b.jobPart step time
    let slot := match b.snap.lastSlot with
      | some 0 => 1
      | _ => 0
    let i : Image := { snapId := step, barrier := time, section_ := jp ++ b.identityPart, jobPart := jp.length, dest := fld b.desc.snap 1 0, slot := slot }
    let pages := b.tiers.pages.map (fun (p : Page) => { p with bear := if b.included step p then Bear.protected_ else Bear.clear })
    let left := (pages.filter (fun p => p.bear == .protected_)).length
    { b with tiers := { b.tiers with pages := pages, heldWrites := b.tiers.heldWrites.map (fun (w : HeldWrite) => { w with postBarrier := false }) },
             mill := { b.mill with broadcasts := b.mill.broadcasts.map (fun (r : BcastRx) => { r with pre := r.old }) }, cache := { b.cache with before := b.cache.flushes },
             snap := { b.snap with image := some i, lastId := some step, done := false, abandoned := false, anyBarrier := true, lastCost := 0 },
             desc := { b.desc with snap := setFld (setFld (setFld (setFld (setFld b.desc.snap 703 640 time) 79 48 0) 47 16 left) 15 8 1) 3 3 1 } })
  (s.appendImage (match s.m.snap.image with
    | some i => i.section_
    | none => [])).sealImage

/-- Is a pre-barrier write to the page outstanding (R511): one that waits, the bytes of a flush, or those of a broadcast of step S - 1 that are still to come from another module? -/
def State.preBarrierWaits (s : State) (page : Nat) : Bool :=
  s.m.tiers.heldWrites.any (fun w => pageOf w.address == page && !w.postBarrier)
    || s.m.cache.before.any (fun (slot, pg) => s.m.cache.flushes.contains (slot, pg) && meets (s.flushRanges slot pg).2 (false, 65536 * page, 65536))
    || s.m.mill.broadcasts.any (fun r => r.pre && !r.told && (match s.m.bcasts[r.entry]? with
      | some e => (match s.m.group e.group with
        | some d => e.owner != gRank d && (List.range e.chunks).any (fun k => pageOf (e.base + 512 * k) == page && !r.chunks.any (fun c => c.2 == k))
        | none => false)
      | none => false))

/-- Has the copy-out buffer of 256 MiB no room for another page's record (R514)? A record leaves it as its writes are acknowledged. -/
def Block.copyOutFull (b : Block) : Bool := 2 ^ 28 < (b.imageWrites.map (·.payload.length)).foldl (· + ·) 0 + 65568

/-- The copier's next page: PROTECTED, in increasing address order (R513); none while the copy-out buffer is full (R514). -/
def State.nextCopy (s : State) : Option Nat :=
  if s.m.copyOutFull then none else ((s.m.tiers.pages.filter (fun p => p.bear == .protected_ && !s.preBarrierWaits p.page)).map (·.page)).min?

/-- A page cannot be read in three attempts: the image is abandoned with ABANDONED_SOURCE, the writes that waited for its pages proceed (R520), and R306 governs the error: no operation
of a job has read it. -/
def State.copyFails (s : State) (page : Nat) : State :=
  ((s.on (fun b => ((b.bump .retries 2).bump .ioFailed).failedAt (65536 * page))).abandonImage 5).releaseWrites.on (·.settleBcasts)

/-- BEAR_BACKGROUND_COPY (R513): the copier takes the next page; one that cannot be read abandons the image (R520). -/
def execBearBackgroundCopy (t tries : Nat) (s : State) : Host.Outcome State Fault Refusal :=
  let s := s.on (·.advanceTo t)
  if s.m.snap.image.isNone then .next s
  else match s.nextCopy with
    | none => .next s
    | some p => .next (if tries < 3 then s.on (fun b => (b.bump .retries tries).copyBegins p) else s.copyFails p)

/-- The crofts whose writes wait for a page, each since its first of them, count towards the cost of the snapshot (R506). -/
def Block.waitCost (b : Block) (page : Nat) : Block :=
  (b.tiers.heldWrites.filter (fun w => pageOf w.address == page && w.postBarrier)).foldl (fun b w => match w.owner with
    | some (c, _) => b.addCost c w.since
    | none => b) b

/-- PAGE_COPIED (R510, R514): both tiles of a COPYING page are in the copy-out buffer; its record goes out, and writes that waited proceed. A full
buffer takes no page (R514). `tries` attempts at reading it failed (R306, R520). -/
def execPageCopied (t page tries : Nat) (s : State) : Host.Outcome State Fault Refusal :=
  let s := s.on (·.advanceTo t)
  match s.m.page page, s.m.snap.image with
  | some p, some _ =>
    if p.bear != .copying || s.preBarrierWaits page || s.m.copyOutFull then .next s
    else if 3 ≤ tries then .next (s.copyFails page)
    else
      let s := s.on (·.bump .retries tries)
      let term := s.pageTerm page
      let s := (s.on (·.waitCost page)).appendImage (s.pageRecord page)
      let s := s.on (fun b => if b.snap.image.isNone then b else
        (({ b with desc := { b.desc with snap := setFld b.desc.snap 47 16 (fld b.desc.snap 47 16 - 1) } } : Block).onPage page (fun p => { p with bear := Bear.copied })).trafficEnds (some page) |>.onImage
          (fun i => { i with records := i.records + 1, digest := i.digest + term }))
      .next (s.sealImage.releaseWrites.on (·.settleBcasts))
  | _, _ => .next s

/-- IMAGE_TRAILER (R517, R518, R543): 2 ms after the barrier at the earliest, with every other write acknowledged (the host tier's by its ordering read, which the event has behind it), the trailer is
written. The host slot then holds a complete image, the partner's once it has acknowledged the trailer (E2E_ACK). -/
def execImageTrailer (t : Nat) (s : State) : Host.Outcome State Fault Refusal :=
  let s := s.on (·.advanceTo t)
  match s.m.snap.image with
  | none => .next s
  | some i =>
    if !i.sealed_ || i.trailed || !s.m.imageAcked || s.m.now < i.barrier + 2000000 then .next s
    else
      let trailer := leBytes 64 (putBits (putBits (putBits 0 191 128 (i.length + 64)) 127 64 i.total.toNat) 63 0 i.snapId)
      let all := i.tail ++ trailer
      let s := s.writeImage i (i.length - i.tail.length) (slice all 0 (16 * ceilDiv all.length 16))
      .next (s.on (fun b => (b.onImage (fun i => { i with trailed := true })).completeImage))

/-- RESTORE_TWIN_TIMEOUT (R523): no twin digest within 100 ms, so the recorded DIGEST decides. -/
def execRestoreTwinTimeout (t : Nat) (s : State) : Host.Outcome State Fault Refusal :=
  let s := s.on (·.advanceTo t)
  match s.m.path.waits.find? (fun w => match w.wait with
    | .restore _ _ _ _ _ _ _ since => since + 100000000 ≤ s.m.span
    | _ => false) with
  | some w => .next (s.recordedDigest w)
  | none => .next s

end Sys2Proof.Machine
end

