-- ==== Sys2Proof/Machine/Lane.lean ====
section
/-! DEFINITION. The lane fabric (R124, R165 to R170, R206 to R213, R236, R395): a run is a sequencer over its program, and each instruction row executes the
slot that comes next. -/
namespace Sys2Proof.Machine

/-- Does lane i's position in the run's present group lie in the row; in the tail, in group 0 (R166). -/
def LaneRun.inRow (l : LaneRun) (b : Block) (op : BitVec 512) (i : Nat) : Bool := 256 * l.group + i < b.rowLen op
/-- Is lane i active (R166, R395). -/
def LaneRun.active (l : LaneRun) (b : Block) (op : BitVec 512) (i : Nat) : Bool := l.inRow b op i && b.rowActive op l.row
/-- Does a LOAD of an input slot read for lane i: the row of that operand is to be active too (R166, R395). -/
def LaneRun.loads (l : LaneRun) (b : Block) (op : BitVec 512) (n i : Nat) : Bool := l.inRow b op i && b.slotActive op n l.row
/-- Does a STORE write for lane i (R166, R395). -/
def LaneRun.stores (l : LaneRun) (b : Block) (op : BitVec 512) (i : Nat) : Bool :=
  l.inRow b op i && (if b.namesCache (opOut op).tensor then b.rowActive op l.row else b.refActive op (opOut op) l.row)

/-- The held slice that an update run's row and column fall in (R195, R206): group, SLICE_ID. -/
def Block.heldOf (b : Block) (op : BitVec 512) (row col : Nat) : Option Held :=
  match b.gradGroup (opLayer op) with
  | some g => b.mill.held.find? (fun h => h.group == g && h.slice == b.sliceId g (opLayer op) row (col / 256))
  | none => none

/-- An element of a tensor as KF32 by one rounding (R65, R67, R70, R145, R170), with the counts the read makes (R52, R60, R67), and whether its tags
disagree (R68). `first` says whether the read meets the segment here first. A NaN is the canonical one, KF32 codes included: a LOAD is a conversion (DEDUCED from
R54 and R70; log 92). -/
def loadElem (m : Memory) (croft : Nat) (t : Tensor) (eL : Int) (row col : Nat) (first : Bool) : F32 × Counts × Bool :=
  if t.cols ≤ col || t.rows ≤ row then (0, [], false)
  else if t.sliced then
    let w := if t.format == 9 then 4 else 3
    let a := t.sliceAddr row (col / 256)
    let code := leNat (readLoc m croft t.inStore (a + w * (col % 256)) w)
    let e := signed 10 (leNat (readLoc m croft t.inStore (a + 256 * w) 4) % 1024)
    (asF32 ((codeValue t.format code).scale e), if code == 2 ^ (8 * w - 1) then [((t.tag, t.format, .sat), 1)] else [], false)
  else
    let g := readSeg m croft t row (col / 128)
    let pos := col % 128
    let code := g.codes.getD pos 0
    if tagBad m t (t.seg row (col / 128)) g then (0, [], true)
    else if t.format == 11 then
      (asF32 ((codeValue 11 code).scale eL), if code == 2 ^ 31 then [((t.tag, 11, .sat), 1)] else [], false)
    else if scaleBad t g then (0, segReads t g first [pos], false)
    else
      let v := match (elemOf m t g pos).esc with
        | some v => v
        | none => if t.scaled then scaledValue t.format code (recScale g.scale) (recShift g.scale (pos / 32)) else codeValue t.format code
      (asF32 v, segReads t g first [pos], false)

/-- The logical index of a lane's element of input slot 0 (R78, R168). -/
def Block.logicalIndex (b : Block) (op : BitVec 512) (l : LaneRun) (i : Nat) : Nat :=
  let r := opA op
  let t := (b.tensor r.tensor).getD {}
  (r.row + l.row) * t.cols + r.col + 256 * l.group + i

/-- The master weight that an update run reads, re-encoded to E_L (R209): the integer, whether the code is the one never produced (R60), and whether the
re-encoding saturated. -/
def State.masterWeight (s : State) (croft : Nat) (op : BitVec 512) (row col : Nat) : Int × Bool × Bool :=
  let ld := s.m.layer (opLayer op)
  let t := atGen ld s.m.readGen ((s.m.tensor (opOut op).tensor).getD {})
  let g := readSeg s.mem croft t row (col / 128)
  let code := g.codes.getD (col % 128) 0
  let w : Int := max (-(2 ^ 31 - 1)) (signed 32 code)
  let d := layerExp ld - layerGenExp ld s.m.readGen
  if 0 < d then (rneDiv w (2 ^ d.toNat), code == 2 ^ 31, false)
  else
    let x := w * (2 ^ (-d).toNat : Nat)
    let y := max (-(2 ^ 31 - 1)) (min (2 ^ 31 - 1) x)
    (y, code == 2 ^ 31, y != x)

/-- The KL32 update of STORE MODE 1 (R170, R209): the new weight, its vanish, its saturation. -/
def masterUpdate (r : Rnd) (w : Int) (eL : Int) (a : F32) : Int × EncInt × Bool :=
  let q := encodeInt r (2 ^ 31 - 1) (2 ^ 31 - 1) ((f32 a).scale (-eL))
  let x := w + q.val
  let y := max (-(2 ^ 31 - 1)) (min (2 ^ 31 - 1) x)
  (y, q, y != x)

/-! The sequencer -/

/-- The registers of a lane. -/
def LaneRun.reg (l : LaneRun) (lane r : Nat) : F32 := (l.regs.getD lane []).getD r 0

/-- Every register +0 (R166). -/
def zeroRegs : List (List F32) := List.replicate 256 (List.replicate 64 0)

/-- The instruction that comes next on a croft. -/
def Block.nextSlot (b : Block) (croft : Nat) : Option (LaneRun × W64) :=
  match (b.croft croft).lane with
  | some l => if (b.croft croft).stopped then none else ((b.croft croft).progStore[l.pc]?).map (fun i => (l, i))
  | none => none

/-- The run goes on. -/
def Block.setLane (b : Block) (croft : Nat) (l : Option LaneRun) : Block := b.onCroft croft (fun c => { c with lane := l })

/-- A register instruction (R166 to R169): lane i's destination takes f of the run and i; the run moves to the next slot. -/
def State.laneOp (s : State) (croft lop : Nat) (f : LaneRun → W64 → Nat → F32) : State :=
  match s.m.nextSlot croft with
  | none => s
  | some (l, ins) =>
    if lopOf ins != lop then s
    else
      let regs := ((List.range 256).zip l.regs).map (fun (i, rs) => rs.set (fld ins 55 50) (f l ins i))
      s.on (fun b => b.setLane croft (some { l with regs := regs, pc := l.pc + 1 }))

/-! Rotation (R131 to R133). The butterfly is the lane program's: nothing forms it as one operation, and no rule says how a program reads sigma (log 108). -/

/-- sigma of a rotation site: is sign i, below the block size, negative (R133)? -/
def RotationSite.minus (r : Sys2Proof.RotationSite) (jobKey : W64) (i : Nat) : Bool := draw jobKey r.stream 0 i % 2 == 1

/-- One level of the butterfly over a block (R132). -/
def butterfly (len : Nat) (z : List F32) : List F32 :=
  (List.range z.length).map (fun i =>
    if i / len % 2 == 0 then f32Add (z.getD i 0) (z.getD (i + len) 0) else f32Sub (z.getD (i - len) 0) (z.getD i 0))

/-- The rotation of a block of a site's row (R132): `activation` says which side. -/
def rotate (r : Sys2Proof.RotationSite) (jobKey : W64) (activation : Bool) (x : List F32) : List F32 :=
  let z := ((List.range x.length).zip x).map (fun (i, v) => if RotationSite.minus r jobKey i then f32Neg v else v)
  let n := Nat.log2 r.block
  let f : Nat := if activation then (n + 1) / 2 else n / 2
  ((List.range n).foldl (fun z k => butterfly (2 ^ k) z) z).map (fun v => toF32 ((f32 v).scale (-(f : Int))))

def srcA (l : LaneRun) (ins : W64) (i : Nat) : F32 := l.reg i (fld ins 49 44)
def srcB (l : LaneRun) (ins : W64) (i : Nat) : F32 := l.reg i (fld ins 43 38)
def srcC (l : LaneRun) (ins : W64) (i : Nat) : F32 := l.reg i (fld ins 37 32)

/-- A two-operand instruction. -/
def State.laneBin (s : State) (croft lop : Nat) (f : F32 → F32 → F32) : State := s.laneOp croft lop (fun l ins i => f (srcA l ins i) (srcB l ins i))
/-- A one-operand instruction. -/
def State.laneUn (s : State) (croft lop : Nat) (f : F32 → F32) : State := s.laneOp croft lop (fun l ins i => f (srcA l ins i))

/-- NOP (R168). -/
def execLaneNop (croft : Nat) (s : State) : Host.Outcome State Fault Refusal :=
  .next (match s.m.nextSlot croft with
    | some (l, ins) => if lopOf ins == 0 then s.on (fun b => b.setLane croft (some { l with pc := l.pc + 1 })) else s
    | none => s)
def execAdd (croft : Nat) (s : State) : Host.Outcome State Fault Refusal := .next (s.laneBin croft 1 f32Add)
def execSub (croft : Nat) (s : State) : Host.Outcome State Fault Refusal := .next (s.laneBin croft 2 f32Sub)
def execMul (croft : Nat) (s : State) : Host.Outcome State Fault Refusal := .next (s.laneBin croft 3 f32Mul)
def execFma (croft : Nat) (s : State) : Host.Outcome State Fault Refusal :=
  .next (s.laneOp croft 4 (fun l ins i => f32Fma (srcA l ins i) (srcB l ins i) (srcC l ins i)))
def execDiv (croft : Nat) (s : State) : Host.Outcome State Fault Refusal := .next (s.laneBin croft 5 f32Div)
def execMax (croft : Nat) (s : State) : Host.Outcome State Fault Refusal := .next (s.laneBin croft 6 f32Max)
def execMin (croft : Nat) (s : State) : Host.Outcome State Fault Refusal := .next (s.laneBin croft 7 f32Min)
def execAbs (croft : Nat) (s : State) : Host.Outcome State Fault Refusal := .next (s.laneUn croft 8 f32Abs)
def execNeg (croft : Nat) (s : State) : Host.Outcome State Fault Refusal := .next (s.laneUn croft 9 f32Neg)
def execRecip (croft : Nat) (s : State) : Host.Outcome State Fault Refusal := .next (s.laneUn croft 0x0A f32Recip)
def execSqrt (croft : Nat) (s : State) : Host.Outcome State Fault Refusal := .next (s.laneUn croft 0x0B f32Sqrt)
def execRsqrt (croft : Nat) (s : State) : Host.Outcome State Fault Refusal := .next (s.laneUn croft 0x0C f32Rsqrt)
def execExp2 (croft : Nat) (s : State) : Host.Outcome State Fault Refusal := .next (s.laneUn croft 0x0D f32Exp2)
def execLog2 (croft : Nat) (s : State) : Host.Outcome State Fault Refusal := .next (s.laneUn croft 0x0E f32Log2)
def execCmp (croft : Nat) (s : State) : Host.Outcome State Fault Refusal :=
  .next (s.laneOp croft 0x0F (fun l ins i => f32Cmp (lopMode ins) (srcA l ins i) (srcB l ins i)))
def execSel (croft : Nat) (s : State) : Host.Outcome State Fault Refusal :=
  .next (s.laneOp croft 0x10 (fun l ins i => f32Sel (srcA l ins i) (srcB l ins i) (srcC l ins i)))
def execMov (croft : Nat) (s : State) : Host.Outcome State Fault Refusal := .next (s.laneUn croft 0x11 id)
/-- CONST (R168): IMM read as KF16, widened exactly. -/
def execConst (croft : Nat) (s : State) : Host.Outcome State Fault Refusal :=
  .next (s.laneOp croft 0x12 (fun _ ins _ => toF32 (decodeFloat kf16 (lopImm ins))))
/-- SHUF (R168, R166): the register of lane i xor IMM, whether that lane is active or not. -/
def execShuf (croft : Nat) (s : State) : Host.Outcome State Fault Refusal :=
  .next (s.laneOp croft 0x16 (fun l ins i => l.reg (i ^^^ lopImm ins) (fld ins 49 44)))

/-- A reduction over the active lanes (R169): every active lane receives it; the others keep their register. -/
def State.laneReduce (s : State) (croft lop : Nat) (f : F32 → F32 → F32) (absent : F32) : State :=
  match s.m.nextSlot croft with
  | none => s
  | some (l, ins) =>
    if lopOf ins != lop then s
    else
      let op := s.m.op croft l.index
      let r := pairwise f absent ((List.range 256).map (fun i => if l.active s.m op i then srcA l ins i else absent))
      s.laneOp croft lop (fun l ins i => if l.active s.m op i then r else l.reg i (fld ins 55 50))

def execRedAdd (croft : Nat) (s : State) : Host.Outcome State Fault Refusal := .next (s.laneReduce croft 0x17 f32Add 0)
def execRedMax (croft : Nat) (s : State) : Host.Outcome State Fault Refusal := .next (s.laneReduce croft 0x18 f32Max 0x7FC00000#32)

/-- DRAW (R77, R78, R168): u * 2^-16 for the logical index of the lane's element of input slot 0; +0 on an inactive lane (R166). With no input slot 0 the index
is not stated, and u is a free value (log 8). -/
def execDraw (croft : Nat) (s : State) : Host.Outcome State Fault Refusal :=
  match s.m.nextSlot croft with
  | none => .next s
  | some (l, ins) =>
    if lopOf ins != 0x15 then .next s
    else
      let b := s.m
      let op := b.op croft l.index
      let named := (b.tensor (opA op).tensor).isSome
      let u (i : Nat) : Nat := if named then draw b.job.key ((opStream op + lopImm ins) % 2 ^ 32) b.job.step (b.logicalIndex op l i)
        else (Config.freeWord (b.tiers.openCtr + i)).toNat % 65536
      let n := ((List.range 256).filter (fun i => l.active b op i)).length
      let s := (s.laneOp croft 0x15 (fun l _ i => if l.active b op i then toF32 (.fin false (u i) (-16)) else 0)).on (fun b => b.onCroft croft (fun c =>
        { c with lane := c.lane.map (fun l => { l with counts := addCount l.counts ((opStream op + lopImm ins) % 2 ^ 32, 0, TallyCtr.draws) n }) }))
      .next (if named then s else s.on (fun b => { b with tiers := { b.tiers with openCtr := b.tiers.openCtr + 256 } }))

/-- A load for every lane (R166, R170): f gives the value of an active lane with its counts; tags that disagree stop the run (R68, R150), counted under the
tensor's tag; `reads` are its ranges. -/
def State.laneLoad (s : State) (croft : Nat) (p : W64 → Bool) (f : LaneRun → W64 → Nat → F32 × Counts × Bool) (tag : Nat := 0) (reads : List Range := [])
    (who : LaneRun → W64 → Nat → Bool := fun l _ i => l.active s.m (s.m.op croft l.index) i) : State :=
  match s.m.nextSlot croft with
  | none => s
  | some (l, ins) =>
    if lopOf ins != 0x13 || !p ins then s
    else
      let got := (List.range 256).map (fun i => if who l ins i then f l ins i else (0, [], false))
      if got.any (fun (_, _, bad) => bad) then (s.on (fun b => b.setLane croft none)).mismatch croft l.index tag false reads
      else
        let regs := (got.zip l.regs).map (fun ((v, _, _), rs) => rs.set (fld ins 55 50) v)
        let counts := got.foldl (fun c (_, k, _) => mergeCounts c k) l.counts
        s.on (fun b => b.setLane croft (some { l with regs := regs, counts := counts, pc := l.pc + 1 }))

/-- What the reads of a head's cached blocks up to position t count: 32 elements for every non-finite block (R402), and every code without meaning, which reads as
0 (R52). -/
def State.cacheCounts (s : State) (slot t lk h tag fmt : Nat) : Counts :=
  let read := ((List.range (t + 1)).map (fun x => (List.range 128).map (fun c => s.cacheElem slot x lk (128 * h + c)))).flatten
  let bad := (read.filter (fun (code, scale) => (cacheValue s.m.cacheD.kf4 code scale).2)).length
  let none_ := (read.filter (fun (code, scale) => !(cacheValue s.m.cacheD.kf4 code scale).2 && escapeCode fmt == some code)).length
  [((tag, fmt, TallyCtr.nonfin), bad), ((tag, fmt, TallyCtr.zeros), none_)].filter (fun x => x.2 != 0)

/-- Channel c of the reference attention of the run's row (R396, R397): the query is the row of input slot 2, and its position that of the row's token (R395). Every
element that it reads counts once in the row. -/
def State.attendElem (s : State) (croft : Nat) (op : BitVec 512) (l : LaneRun) (k v : BlockRef) (e : Nat) : F32 × Counts × Bool :=
  let b := s.m
  let (slot, a, h) := b.cacheRowOf op (b.cachedRow op l.row)
  let t := b.rowPosition slot a
  let q := b.slotRef op 2
  let qs := (List.range 128).map (fun c => loadElem s.mem croft (b.slotTensor op 2) 0 (q.row + l.row) (q.col + c) (c == 0 || (q.col + c) % 128 == 0))
  let row (lk x : Nat) : List F32 := (List.range 128).map (fun c => let (code, scale) := s.cacheElem slot x lk (128 * h + c); (cacheValue b.cacheD.kf4 code scale).1)
  let out := attention (qs.map (·.1)) t (row k.row) (row v.row)
  let tag (r : BlockRef) : Nat := ((b.tensor r.tensor).getD {}).tag
  let fmt := if b.cacheD.kf4 then 3 else 5
  (out.getD ((v.col + e) % 128) 0,
    if e == 0 then mergeCounts (qs.foldl (fun c x => mergeCounts c x.2.1) [])
      (mergeCounts (s.cacheCounts slot t k.row h (tag k) fmt) (s.cacheCounts slot t v.row h (tag v) fmt)) else [],
    qs.any (·.2.2))

/-- One element of an input slot of a run (R170, R195, R207, R395, R396). -/
def State.slotElem (s : State) (croft : Nat) (op : BitVec 512) (l : LaneRun) (n i : Nat) : F32 × Counts × Bool :=
  let b := s.m
  let r := b.slotRef op n
  let t := b.slotTensor op n
  let e := 256 * l.group + i
  if let some (k, v) := b.attends op n then s.attendElem croft op l k v e
  else if b.isCache t then
    let (slot, a, h) := b.cacheRowOf op (b.cachedRow op l.row)
    let x := if b.namesCache (opOut op).tensor then b.rowPosition slot a else (r.col + e) / 128
    let ch := if b.namesCache (opOut op).tensor then r.col + e else 128 * h + (r.col + e) % 128
    let (code, scale) := s.cacheElem slot x r.row ch
    let (v, bad) := cacheValue b.cacheD.kf4 code scale
    (v, if bad then [((t.tag, t.format, .nonfin), 1)] else if escapeCode t.format == some code then [((t.tag, t.format, .zeros), 1)] else [], false)
  else loadElem s.mem croft t (layerExp (b.layer (opLayer op))) (r.row + l.row) (r.col + e) (e == 0 || (r.col + e) % 128 == 0)

/-- The operation of the run in progress. -/
def Block.runOp (b : Block) (croft : Nat) : BitVec 512 := match (b.croft croft).lane with
  | some l => b.op croft l.index
  | none => 0

/-- LOAD (R170, R207): IMM 0, input slot MODE. -/
def execLoad (croft : Nat) (s : State) : Host.Outcome State Fault Refusal :=
  let op := s.m.runOp croft
  let slot := match s.m.nextSlot croft with
    | some (_, ins) => lopMode ins
    | none => 0
  .next (s.laneLoad croft (fun ins => lopImm ins == 0) (fun l ins i => s.slotElem croft op l (lopMode ins) i) (s.m.slotTensor op slot).tag (s.m.slotReads op slot)
    (fun l ins i => l.loads s.m op (lopMode ins) i))

/-- LOAD IMM 0x0001 (R207, R209). -/
def execLoadMasterWeight (croft : Nat) (s : State) : Host.Outcome State Fault Refusal :=
  let op := s.m.runOp croft
  let tag := ((s.m.tensor (opOut op).tensor).getD {}).tag
  .next (s.laneLoad croft (fun ins => lopImm ins == 1) (fun l _ i =>
    let (w, never, _) := s.masterWeight croft op ((opOut op).row + l.row) ((opOut op).col + 256 * l.group + i)
    (asF32 ((Ext.ofInt w).scale (layerExp (s.m.layer (opLayer op)))), if never then [((tag, 11, .sat), 1)] else [], false)))

/-- LOAD IMM 0x0002 (R201, R207). -/
def execLoadClipFactor (croft : Nat) (s : State) : Host.Outcome State Fault Refusal :=
  .next (s.laneLoad croft (fun ins => lopImm ins == 2) (fun _ _ _ => (s.m.job.clip.getD 0, [], false)))

/-- LOAD IMM 0x0003 (R207). -/
def execLoadLr (croft : Nat) (s : State) : Host.Outcome State Fault Refusal :=
  .next (s.laneLoad croft (fun ins => lopImm ins == 3)
    (fun _ _ _ => (asF32 (f32 (BitVec.ofNat 32 (fld (s.m.layer (opLayer (s.m.runOp croft))) 383 352))), [], false)))

/-- LOAD IMM 0x0004 to 0x0007 (R207): HYP0 to HYP3. -/
def execLoadHyp (croft : Nat) (s : State) : Host.Outcome State Fault Refusal :=
  .next (s.laneLoad croft (fun ins => 4 ≤ lopImm ins && lopImm ins ≤ 7) (fun _ ins _ =>
    (asF32 (f32 (BitVec.ofNat 32 (fld (s.m.layer (opLayer (s.m.runOp croft))) (415 + 32 * (lopImm ins - 4)) (384 + 32 * (lopImm ins - 4))))), [], false)))

/-- LOAD IMM 0x0008 (R207): the step number. -/
def execLoadStepNumber (croft : Nat) (s : State) : Host.Outcome State Fault Refusal :=
  .next (s.laneLoad croft (fun ins => lopImm ins == 8) (fun _ _ _ => (toF32 (.ofInt s.m.job.step), [], false)))

/-! Stores -/

/-- A value kept for a position; the last one stored counts (R170). -/
def keepStored (mode row col : Nat) (v : F32) (l : List Stored) : List Stored :=
  l.filter (fun x => !(x.mode == mode && x.row == row && x.col == col)) ++ [{ mode := mode, row := row, col := col, value := v }]

/-- A store that waits for the end of the run (R124, R166, R208). -/
def State.laneStore (s : State) (croft mode : Nat) : State :=
  match s.m.nextSlot croft with
  | none => s
  | some (l, ins) =>
    if lopOf ins != 0x14 || lopMode ins != mode then s
    else
      let op := s.m.op croft l.index
      let stored := (List.range 256).foldl (fun st i =>
        if l.stores s.m op i then keepStored mode l.row (256 * l.group + i) (srcA l ins i) st else st) l.stored
      s.on (fun b => b.setLane croft (some { l with stored := stored, pc := l.pc + 1 }))

/-- STORE MODE 0 (R124). -/
def execStore (croft : Nat) (s : State) : Host.Outcome State Fault Refusal := .next (s.laneStore croft 0)
/-- STORE MODE 2 (R208). -/
def execStoreFirstMoment (croft : Nat) (s : State) : Host.Outcome State Fault Refusal := .next (s.laneStore croft 2)
/-- STORE MODE 3 (R208). -/
def execStoreSecondMoment (croft : Nat) (s : State) : Host.Outcome State Fault Refusal := .next (s.laneStore croft 3)
/-- STORE MODE 4 (R208). -/
def execStoreForwardCopy (croft : Nat) (s : State) : Host.Outcome State Fault Refusal := .next (s.laneStore croft 4)
/-- STORE MODE 5 (R208). -/
def execStoreBackwardCopy (croft : Nat) (s : State) : Host.Outcome State Fault Refusal := .next (s.laneStore croft 5)

/-- Does the program of an update run load the master weights (R207)? Their loads count what the reads count (R60), and else STORE MODE 1 does. -/
def Block.loadsMaster (b : Block) (croft : Nat) (op : BitVec 512) : Bool := match (b.croft croft).program (opWord op 1 % 64) with
  | some (_, prog) => prog.any (fun i => lopOf i == 0x13 && lopImm i == 1)
  | none => false

/-- STORE MODE 1 of one lane (R170, R208, R209, R213): the new weight, DST's value, counts and the layer's counts. ZEROS counts a new weight of 0, the element that
is written, and not an encoding of 0 (DESIGN CHOICE, log 100). -/
def State.masterStore (s : State) (croft : Nat) (op : BitVec 512) (l : LaneRun) (ins : W64) (i : Nat) : Int × F32 × Counts × LayerCounts :=
  let t := (s.m.tensor (opOut op).tensor).getD {}
  let row := (opOut op).row + l.row
  let col := (opOut op).col + 256 * l.group + i
  let eL := layerExp (s.m.layer (opLayer op))
  let a := srcA l ins i
  let (w, never, sat1) := s.masterWeight croft op row col
  let r : Rnd := if (drainCtrl (opDrain op)).sr then .sr (draw s.m.job.key (opStream op) s.m.job.step (row * t.cols + col)) else .rne
  let (y, q, sat2) := masterUpdate r w eL a
  let nz := !f32Zero a
  let sats := b2n sat1 + b2n (q.sat) + b2n sat2
  (y, asF32 ((Ext.ofInt y).scale eL),
   [((t.tag, 11, TallyCtr.elements), 1), ((t.tag, 11, TallyCtr.zeros), b2n (y == 0)), ((t.tag, 11, TallyCtr.sat), b2n (never && !s.m.loadsMaster croft op) + sats),
    ((t.tag, 11, TallyCtr.nonfin), b2n q.nonfin), ((t.tag, 11, TallyCtr.vanish), b2n q.vanish)].filter (fun x => x.2 != 0) ++ countDraw (drainCtrl (opDrain op)).sr (opStream op) (isFin a),
   { nz := b2n nz, van := b2n (nz && q.val == 0), sat := sats, wmax := y.natAbs })

/-- STORE MODE 1 (R170, R208): DST takes the new weight's value. -/
def execStoreMaster (croft : Nat) (s : State) : Host.Outcome State Fault Refusal :=
  match s.m.nextSlot croft with
  | none => .next s
  | some (l, ins) =>
    if lopOf ins != 0x14 || lopMode ins != 1 then .next s
    else
      let op := s.m.op croft l.index
      let got := (List.range 256).map (fun i => if l.active s.m op i then some (s.masterStore croft op l ins i) else none)
      let regs := (got.zip l.regs).map (fun (g, rs) => match g with
        | some (_, v, _, _) => rs.set (fld ins 55 50) v
        | none => rs)
      let l' := ((List.range 256).zip got).foldl (fun (l : LaneRun) (i, g) => match g with
        | some (y, _, c, k) => { l with stored := keepStored 1 l.row (256 * l.group + i) (BitVec.ofInt 32 y) l.stored, counts := mergeCounts l.counts c,
                                        layer := l.layer.add k }
        | none => l) l
      .next (s.on (fun b => b.setLane croft (some { l' with regs := regs, pc := l.pc + 1 })))

/-! Issue, phases and the end of a run -/

/-- Does an update run find every held slice it reads COMPLETE (R198)? -/
def Block.heldComplete (b : Block) (op : BitVec 512) : Bool :=
  (List.range (opRows op)).all (fun j => (List.range (ceilDiv ((opOut op).col % 256 + b.rowLen op) 256)).all (fun g =>
    match b.heldOf op ((opOut op).row + j) ((opOut op).col + 256 * g) with
    | some h => h.state == .complete
    | none => false))

/-- Is a held slice that an update run reads still to be written to the held-shard parcel (R195, R277)? -/
def Block.shardPending (b : Block) (op : BitVec 512) : Bool :=
  b.tiers.heldWrites.any (fun w => w.owner.isNone && (b.slotReads op 0).any (meets (false, w.address, w.bytes.length)))

/-- A run of an attempt begins (R166). -/
def State.startLane (s : State) (croft i : Nat) (a : Attempt := {}) : State :=
  let op := s.m.op croft i
  match (s.m.croft croft).program (opWord op 1 % 64) with
  | some (first, _) =>
    s.on (fun b => (b.hostRead croft i (s.readsOf op)).setLane croft (some { index := i, attempt := a, pc := first, phasePc := first, regs := zeroRegs }))
  | none => s

/-- LANE_RUN (R166, R173, R179, R198, R206): the check at issue, the journal, its accesses, and the run's first slot. -/
def execLaneRun (croft : Nat) (acc : Access) (s : State) : Host.Outcome State Fault Refusal :=
  match s.head croft .lane [8] with
  | .ready i =>
    let op := s.m.op croft i
    let upd := s.m.isUpdate op
    if badLane s.m croft op then .next (s.reject croft i)
    else if upd && (s.m.job.clip.isNone || s.m.shardPending op) then .next s
    else
      let s := s.on (fun b => (b.endStall croft .lane).journalIssue croft i)
      if upd && !s.m.heldComplete op then .next (s.stopCroft croft i { cls := .j, code := 0x26, at_ := 0 })
      else
        let (s, ok) := s.accessed croft i acc
        .next (if ok then s.startLane croft i (s.m.firstAttempt croft i) else s)
  | h => .next (s.on (fun b => b.noIssue croft .lane h))

/-- PHASE_END (R166): the phase runs over every group before the next begins. -/
def execPhaseEnd (croft : Nat) (s : State) : Host.Outcome State Fault Refusal :=
  match s.m.nextSlot croft with
  | none => .next s
  | some (l, ins) =>
    if lopOf ins != 0x1E then .next s
    else
      let groups := ceilDiv (s.m.rowLen (s.m.op croft l.index)) 256
      .next (s.on (fun b => (b.beat croft .lane).setLane croft (some (
        if l.group + 1 < groups then { l with group := l.group + 1, pc := l.phasePc }
        else { l with group := 0, phase := l.phase + 1, pc := l.pc + 1, phasePc := l.pc + 1 }))))

/-- The stored values of a mode and row as a row of a tensor from a column. -/
def storedRow (st : List Stored) (mode row n : Nat) : List (Option F32) :=
  (List.range n).map (fun c => (st.find? (fun x => x.mode == mode && x.row == row && x.col == c)).map (·.value))

/-- The DRAIN_CTRL of an attempt: OUT_HEADROOM raised in a span replay (R255). -/
def Attempt.drain (a : Attempt) (d : DrainCtrl) : DrainCtrl := { d with headroom := Nat.min 7 (d.headroom + a.outExtra) }

/-- A lane quantisation of the rows of a mode into a tensor (R124, R208), written, counted, its pool pointer kept (R143) and its squares no longer patched (R250);
what it gave. -/
def State.laneQuant (s : State) (croft : Nat) (l : LaneRun) (op : BitVec 512) (mode tensor : Nat) (t : Tensor) (d : DrainCtrl) (square : Bool) :
    State × QuantOut × List SegIn :=
  let n := s.m.rowLen op
  let out := opOut op
  let rows := (List.range (opRows op)).filter (fun j => l.stored.any (fun x => x.mode == mode && x.row == j))
  let segs := (rows.map (fun j => toSegs (out.row + j) out.col (storedRow l.stored mode j n))).flatten
  let q := quantise (s.m.site croft op t (l.attempt.drain d) square l.attempt (s.m.poolPtr croft l.index tensor)) segs
  let vals := (segs.map (fun g => g.vals.filterMap id)).flatten
  let s := s.on (fun b => (b.onBank croft l.index (fun k => vals.foldl (fun k v => k.foldMax t.tag v) (k.release (mergeCounts q.counts (flagCounts t q.flags))))).onCroft croft
    (fun c => { c with pools := if t.magpie then assocSet tensor (Nat.max q.pool ((assocGet tensor c.pools).getD 0)) c.pools else c.pools }))
  ((s.writeSegs croft l.index t q.segs).clearSquares (croft, l.index) tensor t out.row (opRows op) out.col n, q, segs)

/-- The triggered rows of a lane quantisation (R236): quantised again into the PATCH companion of the tensor written, or counted in UNREPAIRED. -/
def State.lanePatch (s : State) (croft : Nat) (l : LaneRun) (op : BitVec 512) (tensor : Nat) (t : Tensor) (d : DrainCtrl) (q : QuantOut) (segs : List SegIn) : State :=
  let bad := (q.rowFlags.filter (fun (_, f) => outTrigger f)).map (·.1)
  let layer := opLayer op
  if bad.isEmpty then s
  else
    let comp := match s.m.companion tensor 2 with
      | some c => if t.format == 7 || t.format == 8 || s.m.pinned layer then none else (s.m.tensor (fld c 31 16)).map (fun p => (p, fld c 127 76))
      | none => none
    match comp with
    | none => s.on (fun b => b.onBank croft l.index (fun k => k.layerUp layer .unrepaired bad.length))
    | some (pt, base) =>
      let d' := { d with fmt := pt.format, magpie := false, tagBase := pt.tagBase, scaled := pt.scaled }
      let pq := quantise (s.m.site croft op pt (l.attempt.drain d') pt.square l.attempt 0) (segs.filter (fun g => bad.contains g.row))
      let s := s.on (fun b => b.onBank croft l.index (fun k => (k.release pq.counts).layerUp layer .fbOut bad.length))
      let s := s.writeSegs croft l.index pt pq.segs
      bad.foldl (fun s r => s.markSquares (croft, l.index) base t r 1 (opOut op).col (s.m.rowLen op) true) s

/-- Rows stored into a cache tensor (R395, R401), and those left: a row for the page after one that is not flushed waits (R408). -/
def State.storeCache (s : State) (croft : Nat) (l : LaneRun) (op : BitVec 512) (t : Tensor) : State × List Nat :=
  (List.range (opRows op)).foldl (fun (s, left) j =>
    if !s.m.rowActive op j || !l.stored.any (fun x => x.mode == 0 && x.row == j) then (s, left)
    else
      let (slot, a, _) := s.m.cacheRowOf op (s.m.runRow op j)
      let x := s.m.rowPosition slot a
      let vals := (storedRow l.stored 0 j s.m.cacheD.chans).map (·.getD 0)
      let b := s.m
      let rnd (c : Nat) : Rnd := if b.cacheD.sr then .sr (draw b.job.key (opStream op) b.job.step ((b.runRow op j) * t.cols + c)) else .rne
      if s.m.stageBusy slot x then (s, left ++ [j])
      else (s.cacheStore croft l.index slot x (opOut op).row t.tag (if b.cacheD.sr then some (opStream op) else none) rnd vals, left)) (s, [])

/-- The values of one STORE mode of an update run, quantised into its tensor (R208): moments at the write generation. The run's STREAM serves every one of its
conversions (DESIGN CHOICE, log 100). Where the tensor is none, of which no rule speaks, the values are dropped (DESIGN CHOICE, log 108). -/
def State.updateQuant (s : State) (croft : Nat) (l : LaneRun) (op : BitVec 512) (mode tensor word : Nat) (genned square : Bool) : State :=
  match s.m.tensor tensor with
  | some t =>
    if l.stored.any (fun x => x.mode == mode) then
      let (s', q, sg) := s.laneQuant croft l op mode tensor (if genned then atGen (s.m.layer (opLayer op)) s.m.writeGen t else t) (drainCtrl word) square
      s'.lanePatch croft l op tensor t (drainCtrl word) q sg
    else s
  | none => s

/-- The write generation of an update run takes the weights, moments and copies (R205, R208), E_GEN follows, and the layer's counts grow (R213). R208 fixes the square
scales of the backward copy; the forward copy has them where its tensor is square, and the moments never (DESIGN CHOICE, log 108). -/
def State.finishUpdate (s : State) (croft : Nat) (l : LaneRun) (op : BitVec 512) : State :=
  let layer := opLayer op
  let ld := s.m.layer layer
  let gen := s.m.writeGen
  let out := opOut op
  let n := s.m.rowLen op
  let master := atGen ld gen ((s.m.tensor out.tensor).getD {})
  let rows := (List.range (opRows op)).filter (fun j => l.stored.any (fun x => x.mode == 1 && x.row == j))
  let segs := (rows.map (fun j => (toSegs (out.row + j) out.col (storedRow l.stored 1 j n)).map (fun g =>
    ({ row := g.row, sg := g.sg, codes := g.vals.map (fun v => v.map (·.toNat)) } : SegOut)))).flatten
  let s := s.writeSegs croft l.index master segs
  let s := s.updateQuant croft l op 2 (fld ld 175 160) (fld ld 255 224) true false
  let s := s.updateQuant croft l op 3 (fld ld 191 176) (fld ld 287 256) true false
  let s := s.updateQuant croft l op 4 (fld ld 207 192) (fld ld 319 288) false (((s.m.tensor (fld ld 207 192)).getD {}).square)
  let s := s.updateQuant croft l op 5 (fld ld 223 208) (fld ld 351 320) false true
  s.on (fun b =>
    let b := { b with desc := { b.desc with layer := modAt layer (fun d => if gen == 0 then setFld d 77 68 (fld d 67 58) else setFld d 87 78 (fld d 67 58)) b.desc.layer } }
    if (b.croft croft).journal.any (fun e => e.index == l.index && e.counted) then b
    else if b.spans layer then b.onCroft croft (fun c => { c with spanLayers := addLayer c.spanLayers layer l.layer })
    else { b with tally := { b.tally with layerNow := addLayer b.tally.layerNow layer l.layer } })

/-- END (R166): the next row, or the end of the run: what it stored is quantised and written (R124, R208), it counts (R224), and it completes. A run with cached rows
that wait for a flush stands at its END until they are written (R408). -/
def execEndProgram (croft : Nat) (s : State) : Host.Outcome State Fault Refusal :=
  match s.m.nextSlot croft with
  | none => .next s
  | some (l, ins) =>
    if lopOf ins != 0x1F then .next s
    else
      let op := s.m.op croft l.index
      if l.row + 1 < opRows op then
        match (s.m.croft croft).program (opWord op 1 % 64) with
        | some (first, _) => .next (s.on (fun b => (b.beat croft .lane).setLane croft (some { l with row := l.row + 1, group := 0, phase := 0, pc := first, phasePc := first,
                                                                                                     regs := zeroRegs })))
        | none => .next s
      else
        let t := (s.m.tensor (opOut op).tensor).getD {}
        let d := drainCtrl (opDrain op)
        let s := s.on (fun b => (b.onBank croft l.index (fun k => k.release l.counts)).setLane croft none)
        if s.m.isUpdate op then .next ((s.finishUpdate croft l op).opDone croft l.index)
        else if s.m.isCache t then
          let (s, left) := s.storeCache croft l op t
          let rest : LaneRun := { l with stored := l.stored.filter (fun x => left.contains x.row), counts := [] }
          .next (if left.isEmpty then s.opDone croft l.index else s.on (fun b => b.setLane croft (some rest)))
        else
          let (s', q, segs) := s.laneQuant croft l op 0 (opOut op).tensor t d (opFlag op 6)
          .next ((s'.lanePatch croft l op (opOut op).tensor t d q segs).opDone croft l.index)

end Sys2Proof.Machine
end

