-- ==== Sys2Proof/Machine/Moves.lean ====
section
/-! DEFINITION. MOVE, the squirrel and the cellar (R276, R277, R289 to R301, R306, R539). -/
namespace Sys2Proof.Machine

/-- NOT_BEFORE of a MOVE (R296), placed with the epoch shift after a restore (R509, R525). -/
def Block.notBefore (b : Block) (op : BitVec 512) : Nat :=
  let t := fld op 319 256
  if t == 0 then 0 else (t + fld b.desc.snap 575 512) % 2 ^ 64

/-- A MOVE's element kind for the codec (R284, R296). -/
def Block.moveElems (b : Block) (op : BitVec 512) : TileElems :=
  match b.tensor (bitsOf (opWord op 2) 15 0) with
  | some t => elemsOf t
  | none => none

/-- The bytes of a move are written (R281, R298, R301). -/
def State.copyMove (s : State) (croft i : Nat) : State :=
  let op := s.m.op croft i
  let (ls, a) := moveSide op 4
  let (ld, d) := moveSide op 6
  s.locWrite croft i ld d (readLoc s.mem croft ls a (32768 * moveTiles op)) (s.m.moveElems op)

/-- A move is under way: its completion waits for its tiles (R299), and its host reads for their completions (R295). What it waited in the movement queue behind a move before it is
QUEUE (R303). -/
def Block.moveBegun (b : Block) (croft i : Nat) (pages : List Nat) (delays : List (Nat × Nat) := []) : Block :=
  let op := b.op croft i
  (b.onCroft croft (fun c => { c with moves := c.moves ++ [({ index := i, croft := croft, op := op, pages := pages, since := b.now, delays := addDelay 0 (match c.moveHeld with | some t => b.now - t | none => 0) delays } : Move)], moveHeld := none })).hostRead
    croft i (moveReads op)

/-- A migration of pages begins (R277): those that move, and those skipped. -/
def Block.migratePages (b : Block) (pages : List Nat) (tier : Nat) : List Nat × Nat × Block :=
  pages.foldl (fun (l, k, b) p =>
    match b.page p with
    | none => (l, k, b)
    | some e =>
      if e.tier == tier && e.migrating.isNone then (l, k, b)
      else
        let b' := b.startMigration p tier
        if (b'.page p).any (fun e => e.migrating.isSome) then (l ++ [p], k, b') else (l, k + 1, b')) ([], 0, b)

/-- The move's part that begins at once when it issues or is replayed (R298, R299): the copy of a COPY, the pages of a MIGRATE, the hand-over of the rest. -/
def State.runMove (s : State) (croft i : Nat) : State :=
  let op := s.m.op croft i
  match moveKind op with
  | 0 => (s.on (fun b => b.moveBegun croft i [])).copyMove croft i
  | 1 =>
    let first := (moveSide op 4).2 / 65536
    let (left, _, b) := s.m.migratePages ((List.range (moveTiles op / 2)).map (first + ·)) (moveTier op)
    let s := s.on (fun _ => b)
    if left.isEmpty then s.opDone croft i else s.on (fun b => b.moveBegun croft i left)
  | k =>
    s.on (fun b =>
      let waited := match (b.croft croft).moveHeld with
        | some since => b.now - since
        | none => 0
      let m : Move := { index := i, croft := croft, op := op, since := b.now, delays := addDelay 0 waited [] }
      let b := b.onCroft croft (fun c => { c with moves := c.moves ++ [m], moveHeld := none })
      if k == 2 then { b with tiers := { b.tiers with offload := b.tiers.offload ++ [m] } }
      else { b with tiers := { b.tiers with prefetch := b.tiers.prefetch ++ [m] } })

/-- A retried tier read delays its move under ECC_RETRY (R303, R306), by ns that the spec does not give (log 109). -/
def Block.retryDelay (b : Block) (croft i : Nat) (acc : Access) : Block :=
  match acc.failed, (b.croft croft).moves.find? (fun m => m.index == i) with
  | some (a, n), some m =>
    if n = 0 || !(moveReads m.op ++ b.opWrites m.op).any (meets (false, a, 1)) then b
    else
      let (k, b) := b.freeNat 65536
      b.onCroft croft (fun c => { c with moves := c.moves.map (fun (x : Move) => if x.index == i then { x with delays := addDelay 2 k x.delays } else x) })
  | _, _ => b

/-- All that has delayed a move at its end (R303). Of its time that no retraining and no retry took, PCIE_CREDIT takes a part where it meets the host tier, and CODEC one
where it meets a tile that is coded: no rule gives their ns (log 109). -/
def Block.moveDelays (b : Block) (m : Move) : List (Nat × Nat) × Block :=
  let rs := moveReads m.op ++ b.opWrites m.op
  let left := b.now - m.since - (assocGet 1 m.delays).getD 0 - (assocGet 2 m.delays).getD 0
  let (k, b) := if b.meetsPage rs (·.tier == 3) then b.freeNat (left + 1) else (0, b)
  let (c, b) := if b.meetsPage rs (fun p => 2 ≤ p.tier && (b.parcel p.parcel).any (·.codec)) then b.freeNat (left - k + 1) else (0, b)
  (addDelay 4 c (addDelay 3 k m.delays), b)

/-- The squirrel queue of a kind is full (R300). -/
def Block.squirrelFull (b : Block) (kind : Nat) : Bool :=
  (kind == 2 && 4096 ≤ b.tiers.offload.length) || (kind == 3 && 4096 ≤ b.tiers.prefetch.length)

/-- A MOVE that nothing holds but a move before it in the movement queue waits there from now on (R303). -/
def Block.queuesMove (b : Block) (croft : Nat) : Block :=
  match b.headOf croft .move with
  | some i =>
    let op := b.op croft i
    if b.issues croft && !b.skips op && b.tokensSet croft op && b.notBefore op ≤ b.now && !(b.croft croft).unitFree .move then
      b.onCroft croft (fun c => { c with moveHeld := some (c.moveHeld.getD b.now) })
    else b
  | none => b

/-- Issue of a MOVE of a kind (R179, R180, R296 to R300): not before its time, and not into a full squirrel queue, for which it waits. A reserved KIND is
rejected. -/
def State.issueMove (s : State) (croft kind : Nat) (acc : Access) : State :=
  match s.head croft .move [0x10] with
  | .ready i =>
    let op := s.m.op croft i
    if moveKind op != kind && moveKind op ≤ 3 then s
    else if badMove s.m op then s.reject croft i
    else if kind < 2 && s.m.now < s.m.notBefore op then s
    else if s.m.squirrelFull kind then s.on (fun b => b.onCroft croft (fun c => { c with moveHeld := some (c.moveHeld.getD b.now) }))
    else
      let (s, ok) := (s.on (fun b => b.journalIssue croft i)).accessed croft i acc
      if ok then (s.runMove croft i).on (·.retryDelay croft i acc) else s
  | .skip i => if moveKind (s.m.op croft i) == kind then s.on (fun b => b.noIssue croft .move (.skip i)) else s
  | .wait => s.on (fun b => (b.queuesMove croft).noIssue croft .move .wait)

/-- MOVE_COPY (R298). -/
def execMoveCopy (croft : Nat) (acc : Access) (s : State) : Host.Outcome State Fault Refusal := .next (s.issueMove croft 0 acc)
/-- MOVE_MIGRATE (R277, R298). -/
def execMoveMigrate (on_ : OnCroft) (s : State) : Host.Outcome State Fault Refusal := .next (s.issueMove on_.croft 1 on_.acc)
/-- MOVE_OFFLOAD (R300). -/
def execMoveOffload (croft : Nat) (s : State) : Host.Outcome State Fault Refusal := .next (s.issueMove croft 2 {})
/-- MOVE_PREFETCH (R300). -/
def execMovePrefetch (croft : Nat) (s : State) : Host.Outcome State Fault Refusal := .next (s.issueMove croft 3 {})

/-- The move that a squirrel queue starts next: the least NOT_BEFORE, in order of arrival among equals (R300). -/
def Block.nextMove (b : Block) (q : List Move) : Option Move :=
  q.foldl (fun m x => match m with
    | none => some x
    | some y => if b.notBefore x.op < b.notBefore y.op then some x else some y) none

/-- SQUIRREL_MOVE_START (R300): the next move of a queue starts, not before its time; the time it has waited for its turn counts as QUEUE (R303). -/
def execSquirrelMoveStart (t : Nat) (queue : MoveStart) (s : State) : Host.Outcome State Fault Refusal :=
  let prefetchSide := queue.prefetch
  let s := s.on (·.advanceTo t)
  match s.m.nextMove (if prefetchSide then s.m.tiers.prefetch else s.m.tiers.offload) with
  | none => .next s
  | some m =>
    if s.m.now < s.m.notBefore m.op || s.m.dev.bellDone then .next s
    else
      let s := s.on (fun b =>
        let b := { b with tiers := if prefetchSide then { b.tiers with prefetch := b.tiers.prefetch.erase m } else { b.tiers with offload := b.tiers.offload.erase m } }
        (b.onCroft m.croft (fun c => { c with moves := c.moves.filter (fun x => x.index != m.index) })).moveBegun m.croft m.index []
          (addDelay 0 (b.now - Nat.max m.since (b.notBefore m.op)) m.delays))
      let (s, ok) := s.accessed m.croft m.index queue.acc
      .next (if ok then (s.copyMove m.croft m.index).on (·.retryDelay m.croft m.index queue.acc) else s.on (fun b => b.onCroft m.croft (fun c => { c with moves := c.moves.filter (fun x => x.index != m.index) })))

/-- A move's last tile is written and visible, or its last page switched (R299): its host reads are complete, the operation completes, and stalls that waited for it
take its tier and the cause that delayed it most (R303). -/
def State.moveDone (s : State) (croft i : Nat) : State :=
  (s.on (fun b =>
    let b := match (b.croft croft).moves.find? (fun m => m.index == i) with
      | some m =>
        let (ds, b) := b.moveDelays m
        b.noteTransfer croft (opSignal m.op) (b.stallTier m.op) (worstCause ds 0)
      | none => b
    b.onCroft croft (fun c => { c with moves := c.moves.filter (fun m => m.index != i) }))).opDone croft i

/-- MOVE_TILES_WRITTEN (R290, R299): of a COPY, OFFLOAD or PREFETCH that has started and waits for no cellar channel, or a MIGRATE with no page left. Host reads that an
insecure link has not let complete fail (R306, R453). -/
def execMoveTilesWritten (t croft opIndex : Nat) (s : State) : Host.Outcome State Fault Refusal :=
  let s := s.on (·.advanceTo t)
  let waiting := (s.m.tiers.offload ++ s.m.tiers.prefetch).any (fun m => m.croft == croft && m.index == opIndex)
  match (s.m.croft croft).moves.find? (fun m => m.index == opIndex) with
  | some m =>
    if waiting || !m.pages.isEmpty || s.waitsOnTier croft m.op then .next s
    else match (if s.m.tiers.reads.any (fun r => r.croft == croft && r.index == opIndex) then s.m.insecureAccess (moveReads m.op) [] else none) with
      | some a => .next ((s.on (fun b => b.onCroft croft (fun c => { c with moves := c.moves.filter (fun x => x.index != opIndex) }))).ioFailed croft opIndex a)
      | none => .next (s.moveDone croft opIndex)
  | none => .next s

/-- A page settled by a switch leaves the moves and the commands that wait for it; a command with none left completes (R277, R299, R441). -/
def State.pageSettled (s : State) (page : Nat) : State :=
  let s := (List.range s.m.crofts.length).foldl (fun s c =>
    ((s.m.croft c).moves.filter (fun m => m.pages == [page])).foldl (fun s m => s.moveDone c m.index)
      s) s
  let s := s.on (fun b => { b with crofts := b.crofts.map (fun (c : Croft) => { c with moves := c.moves.map (fun (m : Move) => { m with pages := m.pages.filter (· != page) }) }),
                                   tiers := { b.tiers with reads := b.tiers.reads.filter (fun r => !(r.croft == 192 && r.index == page)) } })
  (s.m.path.waits).foldl (fun s w =>
    match w.wait with
    | .migrate parcel tier left moved skipped =>
      if !left.contains page then s
      else
        let left := left.filter (· != page)
        if left.isEmpty then s.endWait w 0 (setFld (setFld (0 : BitVec 128) 31 0 (moved + 1)) 63 32 skipped)
        else s.on (fun b => { b with path := { b.path with waits := b.path.waits.map (fun (x : Wait) =>
          if x.ring == w.ring && x.tag == w.tag then { x with wait := WaitFor.migrate parcel tier left (moved + 1) skipped } else x) } })
    | _ => s) s

/-- The element kind under which a page is written to its new tier: that of the MIGRATE that moves it (R296), if one does. -/
def Block.switchKind (b : Block) (page : Nat) : Option TileElems :=
  ((b.crofts.map (·.moves)).flatten.find? (fun m => m.pages.contains page)).map (fun m => b.moveElems m.op)

/-- A page of a PARCEL_MIGRATE that cannot be read stays in place, and the command ends with TIER_IO_FAILED (R277, R306; log 47). -/
def State.migrateFailed (s : State) (page : Nat) : State :=
  let s := s.on (fun b => b.onPage page (fun p => { p with migrating := none }))
  let s := s.m.path.waits.foldl (fun s w => match w.wait with
    | .migrate _ _ left _ _ => if left.contains page then s.endWait w 0x28 else s
    | _ => s) s
  (s.releaseWrites.on (·.settleBcasts)).tierErr [(false, 65536 * page, 65536)]

/-- A migrating page cannot be read in three attempts (R277, R306): it stays in place, its cellar frame retired, and the PARCEL_MIGRATE or the MOVEs that wait for it fail.
The page of a retired frame stays there, counted (R292). -/
def State.pageUnread (s : State) (page : Nat) : State :=
  if (s.m.page page).any (fun e => e.tier == 2 && e.migrating.any (·.1 == 2) && s.m.tiers.retired.contains e.frame) then
    ((s.on (fun b => ((b.bump .retries 2).bump .migrateSkipped).onPage page (fun p => { p with migrating := none }))).releaseWrites).on (·.settleBcasts)
  else
  let s := s.on (fun b => ((b.bump .retries 2).bump .ioFailed).failedAt (65536 * page))
  if s.m.path.waits.any (fun w => match w.wait with
      | .migrate _ _ left _ _ => left.contains page
      | _ => false) then s.migrateFailed page
  else
    let s := (s.on (fun b => b.onPage page (fun p => { p with migrating := none }))).releaseWrites.on (·.settleBcasts)
    (List.range s.m.crofts.length).foldl (fun s c =>
      ((s.m.croft c).moves.filter (fun m => m.pages.contains page)).foldl (fun s m =>
        (s.on (fun b => b.onCroft c (fun x => { x with moves := x.moves.filter (fun y => y.index != m.index) }))).tierStop c m.index [(false, 65536 * page, 65536)]) s) s

/-- PAGE_MIGRATION_SWITCH (R277): the page map switches; writes that waited go to the new frame. A page spans every cellar channel, so it waits for all (R290). `tries`
attempts at reading it failed, counted (R306, R308); after the third, or where the link is insecure (R453), it stays. -/
def execPageMigrationSwitch (t page tries : Nat) (s : State) : Host.Outcome State Fault Refusal :=
  let s := s.on (·.advanceTo t)
  match s.m.page page with
  | some e =>
    match e.migrating with
    | none => .next s
    | some (tier, _) =>
      if (tier == 2 || e.tier == 2) && !s.m.waitingChannels.isEmpty then .next s
      else
        .next (if 3 ≤ tries || (s.m.insecureAccess [(false, 65536 * page, 65536)] []).isSome || (tier == 3 && s.m.dev.ideState == 2) then s.pageUnread page else (((s.on (·.bump .retries tries)).switchPage page (s.m.switchKind page)).releaseWrites.pageSettled page).on (·.settleBcasts))
  | none => .next s

/-- RETIRED_PAGE_RETRY (R292): outside a job, 10 s of the own clock after the last attempt; `tries` attempts at reading the page failed (R306). -/
def execRetiredPageRetry (t page tries : Nat) (s : State) : Host.Outcome State Fault Refusal :=
  .next (atTime t (fun b => if b.jobRuns || b.clk.own < (assocGet page b.tiers.tried).getD 0 + 10000000000 then b else b.tryRetired page tries) s)

/-- COMPLETION_TIMEOUT (R295, R306): a host read of a croft's operation 50 us old is sent again, at most twice, which delays a move (R303); the third failure stops
the operation. `croft` 192 names the reads of PARCEL_MIGRATE. -/
def execCompletionTimeout (t croft : Nat) (s : State) : Host.Outcome State Fault Refusal :=
  let s := s.on (·.advanceTo t)
  match s.m.tiers.reads.find? (fun r => r.croft == croft && r.since + 50000 ≤ s.m.span) with
  | none => .next s
  | some r =>
    if r.attempts < 3 then
      .next (s.on (fun b => (({ b with tiers := { b.tiers with reads := b.tiers.reads.map (fun (x : HostRead) =>
          if x == r then { x with attempts := x.attempts + 1, since := b.span } else x) } } : Block).bump .retries).onCroft croft (fun c =>
        { c with moves := c.moves.map (fun (m : Move) => if m.index == r.index then { m with delays := addDelay 2 50000 m.delays } else m) })))
    else
      let pages := (((s.m.croft croft).moves.filter (fun m => m.index == r.index)).map (·.pages)).flatten
      let s := s.on (fun b => (({ b with tiers := { b.tiers with reads := b.tiers.reads.erase r } } : Block).onCroft croft
        (fun c => { c with moves := c.moves.filter (fun m => m.index != r.index), lane := c.lane.filter (fun l => l.index != r.index) })).clearTile croft r.index)
      let s := s.on (fun b => b.bump .ioFailed)
      if croft == 192 then .next (s.migrateFailed r.index)
      else
        let s := s.on (fun b => pages.foldl (fun b p => b.onPage p (fun e => { e with migrating := none })) b)
        let s := if pages.isEmpty then s else s.releaseWrites.on (·.settleBcasts)
        .next (s.tierStop croft r.index (s.readsOf (s.m.op croft r.index)))

/-! The cellar's channels (R290) -/

/-- I/O die of a channel (R287). -/
def channelDie (channel : Nat) : Nat := channel / 40

/-- Moves under way that have a tile on a channel are delayed by its calibration or retraining (R303): f gives the ns of each. -/
def Block.delayMoves (b : Block) (channel : Nat) (f : Move → Nat) : Block :=
  let queued := b.tiers.offload ++ b.tiers.prefetch
  { b with crofts := b.crofts.map (fun (c : Croft) => { c with moves := c.moves.map (fun (m : Move) =>
      if !queued.contains m && (moveReads m.op ++ b.opWrites m.op).any (fun r => !r.1 && b.onChannel channel r.2.1 r.2.2) then
        { m with delays := addDelay 1 (f m) m.delays } else m) }) }

/-- CELLAR_CALIBRATION (R290): 400 ns, at most one channel of an I/O die at once. -/
def execCellarCalibration (t channel : Nat) (s : State) : Host.Outcome State Fault Refusal :=
  .next (atTime t (fun b =>
    let live := b.tiers.calibrating.filter (fun (_, since) => b.span < since + 400)
    if 80 ≤ channel || live.any (fun (c, _) => channelDie c == channelDie channel) then { b with tiers := { b.tiers with calibrating := live } }
    else { b.delayMoves channel (fun _ => 400) with tiers := { b.tiers with calibrating := live ++ [(channel, b.span)] } }) s)

/-- CELLAR_RETRAIN (R290): the channel retrains, and accesses to it wait. -/
def execCellarRetrain (t channel : Nat) (s : State) : Host.Outcome State Fault Refusal := .next (atTime t (fun b => b.startRetrain channel) s)

/-- CELLAR_RETRAIN_DONE (R290): accesses resume; the moves that waited accrue PHY_RETRAIN (R303). -/
def execCellarRetrainDone (t channel : Nat) (s : State) : Host.Outcome State Fault Refusal :=
  .next (atTime t (fun b =>
    match b.tiers.retraining.find? (fun x => x.1 == channel) with
    | none => b
    | some x => { b.delayMoves channel (fun m => Nat.min (b.now - m.since) (b.span - x.2)) with tiers := { b.tiers with retraining := b.tiers.retraining.filter (fun x => x.1 != channel) } }) s).releaseWrites

/-- An uncorrectable error that a scrub finds in a croft store (R173, R539): class T where an uncommitted operation wrote the word, which is replayed; else class D. -/
def State.scrubStore (s : State) (croft a : Nat) : State :=
  match s.writerOf croft [(true, a / 8 * 8, 8)] with
  | some w => s.raiseErr { cls := .t, code := 0x25, at_ := 0, croft := some croft, entry := some w.2, writer := some w, croftSide := true, cause := 4 }
  | none => s.raiseErr { cls := .d, code := 0x25, at_ := 0, croft := some croft, croftSide := true, cause := 4 }

/-- SCRUB (R173, R286, R289, R292, R306, R539): a corrected error is logged, and the third of a cellar frame in 24 h retires it; an uncorrectable one retires a cellar
frame, fails a larder read, and is an error of a croft store, which `tier` 0 names with the croft as its frame. -/
def execScrub (t tier frame : Nat) (found : ScrubResult) (pass : Bool) (s : State) : Host.Outcome State Fault Refusal :=
  let s := s.on (fun b => (b.advanceTo t).bump .scrubPasses (b2n pass))
  match found with
  | .clean => .next s
  | .corrected offset code => .next (s.on (fun b => if tier == 2 then b.correctedBurst (65536 * frame + offset) code else b.raiseC 0x35 none 4))
  | .uncorrectable offset =>
    if tier == 0 then .next (s.scrubStore frame offset)
    else if tier == 2 then
      let p := cellarPackage (65536 * frame + offset)
      .next (s.on (fun b => (b.bump (cellarItem p 3)).retire frame p))
    else
      let s := s.on (fun b => (b.bump .retries 2).bump .ioFailed)
      match s.m.tiers.pages.find? (fun e => e.tier == tier && e.frame == frame) with
      | some e => .next (s.tierErr [(false, 65536 * e.page + offset, 1)])
      | none => .next (s.tierErr [])

end Sys2Proof.Machine
end

