-- ==== Sys2Proof/Machine/Stile.lean ====
section
/-! DEFINITION. Widening and narrowing by the stile (R70, R72, R147, R163). -/
namespace Sys2Proof.Machine

/-- One element through the stile: the target's code, and its counts in the output's tally (R70, R72). Widening is exact, and writes an escaped element as
code 0 (R147). Of narrowing no rule says what it writes there: the element stays escaped, its side record kept, where the target has MAGPIE, and else is written as 0 and
counted as zero (DESIGN CHOICE, log 108). -/
def stileElem (wide : Bool) (tout : Tensor) (r : Rnd) (el : El) : Enc :=
  match el.esc with
  | some _ => if wide || !tout.magpie then { code := 0, zero := true } else { code := (escapeCode tout.format).getD 0 }
  | none => encodeElem tout.format (if wide then .rne else r) el.v

/-- One output segment of a stile row: the elements that fall in it, over what the segment held, under the record, tag and side record of the source segment
of its first element (R72, R147, R163): where the two columns differ modulo 128 an output segment meets two source segments, and no rule says whose it keeps (DESIGN CHOICE,
log 108). From a scaled into an unscaled tensor the codes keep their values without the scales, and from an unscaled into a scaled one the
record is the source's, all zero: no rule speaks of either (DESIGN CHOICE, log 108). `els` pairs source and output columns. -/
def State.stileSeg (s : State) (croft : Nat) (op : BitVec 512) (wide : Bool) (ta tout : Tensor) (r ro sg : Nat) (els : List (Nat × Nat)) : SegOut × Counts :=
  let old := (readSeg s.mem croft tout ro sg).codes
  let src (c : Nat) : Seg := readSeg s.mem croft ta r (c / 128)
  let sr := (drainCtrl (opDrain op)).sr
  let out := els.map (fun (c, co) =>
    let g := src c
    let e := stileElem wide tout (if sr then .sr (draw s.m.job.key (opStream op) s.m.job.step (ro * tout.cols + co)) else .rne) (elemOf s.mem ta g (c % 128))
    (co % 128, e, scaleBad ta g, segReads ta g (c % 128 == 0 || some (c, co) == els.head?) [c % 128]))
  let g := src ((els.head?.map (·.1)).getD 0)
  ({ row := ro, sg := sg, record := g.scale, side := g.side,
     codes := ((List.range 128).zip old).map (fun (n, v) => some (match out.find? (fun x => x.1 == n) with
      | some x => x.2.1.code
      | none => if 128 * sg + n < tout.cols then v else 0)) },
   out.foldl (fun k (_, e, bad, reads) => mergeCounts k (countEnc tout.tag tout.format e ++ countDraw (sr && !wide) (opStream op) (!e.nonfin && !bad) ++ reads)) [])

/-- A stile operation that has issued (R163), over rows of K_BLOCKS blocks, as lane rows are (R175 names no field for it; DESIGN CHOICE, log 108): tags are compared (R68, R150), then every row is converted, written and counted, and it completes. -/
def State.runStile (s : State) (croft i : Nat) : State :=
  let op := s.m.op croft i
  let wide := opCode op == 0x0C
  let ta := (s.m.tensor (opA op).tensor).getD {}
  let tout := (s.m.tensor (opOut op).tensor).getD {}
  let a := opA op
  let o := opOut op
  let cols := (List.range (32 * opBlocks op)).filterMap (fun k => if a.col + k < ta.cols && o.col + k < tout.cols then some (a.col + k, o.col + k) else none)
  let rows := (List.range (opRows op)).filter (fun r => a.row + r < ta.rows && o.row + r < tout.rows)
  if rows.any (fun r => cols.any (fun (c, _) => c % 32 == 0 && tagBad s.mem ta (ta.seg (a.row + r) (c / 128)) (readSeg s.mem croft ta (a.row + r) (c / 128)))) then
    s.mismatch croft i ta.tag false (s.m.opReads op)
  else
    let sgs := (cols.map (fun x => x.2 / 128)).foldl (fun l x => insertNew x l) []
    let parts := (rows.map (fun r => sgs.map (fun sg => s.stileSeg croft op wide ta tout (a.row + r) (o.row + r) sg (cols.filter (fun x => x.2 / 128 == sg))))).flatten
    let s := s.on (fun b => b.onBank croft i (fun k => k.release (parts.foldl (fun c p => mergeCounts c p.2) [])))
    ((s.writeSegs croft i tout (parts.map (·.1))).clearSquares (croft, i) o.tensor tout o.row (opRows op) o.col (32 * opBlocks op)).opDone croft i

/-- Issue of a stile operation (R163, R173, R179, R180, R306). -/
def State.issueStile (s : State) (croft code : Nat) (acc : Access) : State :=
  match s.head croft .stile [code] with
  | .ready i =>
    if badStile s.m (s.m.op croft i) then s.reject croft i
    else
      let (s, ok) := (s.on (fun b => b.journalIssue croft i)).accessed croft i acc
      if ok then s.runStile croft i else s
  | h => s.on (fun b => b.noIssue croft .stile h)

/-- STILE_WIDEN (R163). -/
def execStileWiden (on_ : OnCroft) (s : State) : Host.Outcome State Fault Refusal := .next (s.issueStile on_.croft 0x0C on_.acc)
/-- STILE_NARROW (R163). -/
def execStileNarrow (on_ : OnCroft) (s : State) : Host.Outcome State Fault Refusal := .next (s.issueStile on_.croft 0x0D on_.acc)

end Sys2Proof.Machine
end

