-- ==== Sys2Proof/Machine/Control.lean ====
section
/-! DEFINITION. The operations that no unit runs: COMMIT, FENCE_CROFT, WAIT_TIME and NOP (R178), forced commits (R183, R471, R475), and the operations
issued again by a replay (R255, R476). -/
namespace Sys2Proof.Machine

/-- How an operation that no unit runs stands, once every earlier operation of the croft's stream has issued (R178, R180). -/
def Block.controlHead (b : Block) (croft code : Nat) : HeadState :=
  let c := b.croft croft
  if !b.issues croft || c.redo.any (fun x => x.2.replay || x.2.spanReplay) then .wait
  else match c.todo with
    | i :: _ =>
      let op := b.op croft i
      if opCode op != code then .wait
      else if b.skips op then .skip i
      else if !b.tokensSet croft op then .wait
      else .ready i
    | [] => .wait

/-- An operation that no unit runs is done: it leaves the queue and sets its token (R182), held back within an open span (R254), unless a reserved field rejects
it (R179). -/
def Block.passControl (b : Block) (croft i : Nat) : Block :=
  let op := b.op croft i
  if badControl op then b.rejectOp croft i
  else ((b.dequeue croft i).setToken croft (opSignal op) (opCode op != 0x18 && (b.croft croft).spanOpen)).settleStalls

/-- An operation that the schedule excludes is skipped in its place, and its token set (R180). -/
def Block.skipControl (b : Block) (croft i : Nat) : Block :=
  let op := b.op croft i
  ((b.dequeue croft i).setToken croft (opSignal op) false).settleStalls

/-- Has every operation before i of the croft completed (R178). -/
def Croft.quietBefore (c : Croft) (i : Nat) : Bool := c.inFlight.all (fun e => i < e.index)

/-- COMMIT (R178, R472): once every earlier operation has completed; it closes the span it ends (R254), whose slices then leave (log 25), and
the duplicated adders judge what the mill combines (R537). -/
def execCommit (croft : Nat) (adderOk : Bool) (s : State) : Host.Outcome State Fault Refusal :=
  match s.m.controlHead croft 0x18 with
  | .ready i =>
    if badControl (s.m.op croft i) then .next (s.reject croft i)
    else if !(s.m.croft croft).quietBefore i || (s.m.die (dieOf croft)).hold.isSome
        || s.m.flushFirst croft ((s.m.croft croft).todo.drop 1) then .next s
    else
      let t := s
      let s := (s.runExports croft true).on (·.closeSpan croft)
      .next (t.judged adderOk ((s.on (fun b => b.passControl croft i)).commitCroft croft))
  | .skip i => .next (s.on (·.skipControl croft i))
  | .wait => .next s

/-- FENCE_CROFT (R178, R449). -/
def execFenceCroft (croft : Nat) (s : State) : Host.Outcome State Fault Refusal :=
  match s.m.controlHead croft 0x19 with
  | .ready i => if (s.m.croft croft).quietBefore i then .next (s.on (fun b => b.passControl croft i)) else .next s
  | .skip i => .next (s.on (·.skipControl croft i))
  | .wait => .next s

/-- T of a WAIT_TIME (R174), with the epoch shift after a restore (R509, R525). -/
def Block.waitTime (b : Block) (op : BitVec 512) : Nat :=
  (fld op 191 128 + fld b.desc.snap 575 512) % 2 ^ 64

/-- WAIT_TIME (R178): a T already past passes at once. -/
def execWaitTime (croft : Nat) (s : State) : Host.Outcome State Fault Refusal :=
  match s.m.controlHead croft 0x1A with
  | .ready i =>
    if badControl (s.m.op croft i) || s.m.waitTime (s.m.op croft i) ≤ s.m.now then .next (s.on (fun b => b.passControl croft i))
    else .next (s.on (fun b => b.onCroft croft (fun c => { c with waitUntil := some (b.waitTime (b.op croft i)) })))
  | .skip i => .next (s.on (·.skipControl croft i))
  | .wait => .next s

/-- WAIT_TIME_EXPIRY (R178): the croft issues again, and the operation has passed, unless its step has ended meanwhile (R188). -/
def execWaitTimeExpiry (t croft : Nat) (s : State) : Host.Outcome State Fault Refusal :=
  let s := s.on (·.advanceTo t)
  match (s.m.croft croft).waitUntil with
  | some w =>
    if s.m.now < w then .next s
    else .next (s.on (fun b =>
      let b := b.onCroft croft (fun c => { c with waitUntil := none })
      match (b.croft croft).todo with
      | i :: _ => if opCode (b.op croft i) == 0x1A && b.waitTime (b.op croft i) == w then b.passControl croft i else b
      | [] => b))
  | none => .next s

/-- NOP (R178); one that the schedule excludes is skipped (R180). -/
def execAlmanacNop (croft : Nat) (s : State) : Host.Outcome State Fault Refusal :=
  match s.m.controlHead croft 0x1F with
  | .ready i => .next (s.on (fun b => b.passControl croft i))
  | .skip i => .next (s.on (·.skipControl croft i))
  | .wait => .next s

/-- A commit is forced (R183): issue stops, and once nothing is in flight but operations whose writes wait, the completed entries commit (R475). A span defers it
(R254). -/
def State.forceCommit (s : State) (croft : Nat) : State :=
  let c := s.m.croft croft
  if c.spanOpen || (!c.forcing && c.journal.all (fun e => e.state == .retained)) then s
  else
    let s := if c.forcing then s else s.on (fun b => (b.bump .forcedCommits).onCroft croft (fun c => { c with forcing := true }))
    if s.m.drained croft then s.commitCroft croft else s

/-- FORCED_COMMIT (R183, R471): 200 us after the last commit, or where a full journal has asked for one. -/
def execForcedCommit (t croft : Nat) (s : State) : Host.Outcome State Fault Refusal :=
  let s := s.on (·.advanceTo t)
  let c := s.m.croft croft
  if croft < 192 && (c.forcing || c.commitAt + 200000 ≤ s.m.now) then .next (s.forceCommit croft) else .next s

/-- Does a write held for 10 us wait on an uncommitted entry of the croft (R475)? -/
def State.holdsOn (s : State) (croft : Nat) : Bool :=
  s.m.tiers.heldWrites.any (fun w => w.since + 10000 ≤ s.m.now && !s.m.rewrites w.owner && s.readsRange croft w.address w.bytes.length w.owner)

/-- COMMIT_HOLD_LIMIT (R475): a hold of 10 us forces a commit on each croft whose uncommitted entry it waits on: every such croft, whichever the command names. -/
def execCommitHoldLimit (t : Nat) (_crofts : List Nat) (s : State) : Host.Outcome State Fault Refusal :=
  .next ((List.range 192).foldl (fun s c => if s.holdsOn c then s.forceCommit c else s) (s.on (·.advanceTo t)))

/-- An operation of the journal issues again (R255, R476), its accesses first; a touched patched square makes a cascade of it, as at issue (R251). -/
def State.reissue (s : State) (croft i : Nat) (a : Attempt) (acc : Access) : State :=
  let op := s.m.op croft i
  let (s, ok) := s.accessed croft i acc
  if !ok then s
  else if isArray op then s.beginArray croft i a
  else if opCode op == 8 then s.startLane croft i a
  else if opCode op == 0x10 then s.runMove croft i
  else s.runStile croft i

/-- SPAN_REPLAY (R255): the next operation of a discarded span issues again, from the pool pointers as they stand (R143). -/
def execSpanReplay (on_ : OnCroft) (s : State) : Host.Outcome State Fault Refusal :=
  let croft := on_.croft
  match s.m.nextRedo croft (fun a => a.spanReplay && !a.replay && !a.repeated && !a.cascade) with
  | some (i, a) =>
    let s := s.on (fun b => (b.takeRedo croft (i, a)).onCroft croft (fun c =>
      { c with journal := c.journal.map (fun e => if e.index == i then { e with pools := b.poolsOf croft e.op } else e) }))
    .next (s.reissue croft i a on_.acc)
  | none => .next s

end Sys2Proof.Machine
end

