-- ==== Sys2Proof/Machine/Boundary.lean ====
section
/-! DEFINITION. The step boundary (R35, R618): bank switch (R226), token clear (R182), the firmware's updates of action 2 (R138, R202, R215, R240, R260, R292,
R413, R508, R526), the end of a job (R443), the snapshot barrier (R509), and the first operations of the new step. -/
namespace Sys2Proof.Machine

/-! Action 1 -/

/-- A croft goes into the next step: no token of its own, no overflow pool, no RETAINED entry, and a WAIT_TIME still waiting goes on waiting (R35, R143, R182, R188,
R473). What the step's rejected operations and unfinished repeats left goes too, and the entries of its faults
(R478). -/
def Block.turnCroft (b : Block) (n : Nat) : Block :=
  let c := b.croft n
  let ws := (c.todo.filter (fun i => opCode (b.op n i) == 0x1A)).map (fun i => b.waitTime (b.op n i))
  b.onCroft n (fun c => { c with tokens := [], pools := [], waitUntil := (ws ++ c.waitUntil.toList).max?, todo := [], journal := [], rejected := [], replayAfter := none, moveHeld := none, faultEntry := none, domainEntry := none, interruptedAt := none,
                                 fa := { c.fa with later := [] }, ba := { c.ba with later := [] } })

/-- The record of the snapshots that the norm reduction of the ended step carried (R507). -/
def Block.takeSnapRecord (b : Block) : Block :=
  if !b.mill.scalarDone then b
  else
    let r := (assocGet (b.layers + 1) b.mill.scalar).getD 0
    let members := match b.normGroup with
      | some (_, d) => gMembers d
      | none => 1
    let b := if fld r 191 128 == members then
        { b with desc := { b.desc with snap := setFld (setFld b.desc.snap 447 384 (fld r 255 192)) 143 112 (fld r 31 0) } } else b
    if 0 < fld r 127 64 then { b with snap := { b.snap with jobAbandoned := some (fld r 255 192) } } else b

/-- The live bank becomes the frozen bank of the ended step (R226). -/
def Block.switchBanks (b : Block) : Block :=
  { b with tally := { b.tally with frozen := { b.tally.live with step := b.job.step }, live := {} } }

/-- The end of the step on the module: its tokens, the parts of its splits (R473), its norm (R200), its banks. -/
def Block.endStep (b : Block) : Block :=
  let b := (List.range b.crofts.length).foldl (fun b n => b.turnCroft n) b
  let b : Block := { b with tokens := {}, mill := { b.mill with parts := [] }, desc := if b.mill.scalarDone then { b.desc with norm := setFld b.desc.norm 31 0 b.job.norm.toNat } else b.desc }
  b.switchBanks

/-! Action 2 -/

/-- The schedule of the step that begins (R260, row 5). -/
def schedOf (storm : BitVec 128) : Nat :=
  match fld storm 19 18 with
  | 1 => 1
  | 2 => 2
  | _ => if flag storm 1 || 0 < fld storm 31 24 then 2 else 1

/-- ACTIVE_SCHED set (R260). -/
def Block.setSched (b : Block) : Block := { b with desc := { b.desc with storm := setFld b.desc.storm 17 16 (schedOf b.desc.storm) } }

/-- The fallback share of a step against its bound (R260). -/
def isStorm (share tiles fallbacks : Nat) : Bool := share * tiles < fallbacks * 65536

/-- A storm on the totals of step t (R260, R262): the window opens; a consecutive one counts, and the last of RECUR_LIMIT sets WIDENED. -/
def Block.openWindow (b : Block) (t : Nat) : Block :=
  let d := b.desc.storm
  let near := match b.tally.windowLast with
    | some l => decide (t ≤ l + fld d 47 40)
    | none => false
  let n := if near then Nat.min (fld d 35 32 + 1) 15 else 1
  let d := setFld (setFld (setFld d 31 24 (fld d 47 40)) 127 64 t) 35 32 n
  { b with desc := { b.desc with storm := if fld d 39 36 ≤ n then setFld d 1 1 1 else d } }

/-- The storm evaluation at the boundary that ends step s, after the shadows are applied (R260). -/
def Block.stormAt (b : Block) (s : Nat) (ranNarrow : Bool) : Block :=
  let left := fld b.desc.storm 31 24
  let b := if 0 < left then { b with desc := { b.desc with storm := setFld b.desc.storm 31 24 (left - 1) } } else b
  let d := b.desc.storm
  let judge := fld d 19 18 == 0 && !flag d 1 && fld d 31 24 == 0 && b.tally.jobTotals && b.tally.jobNarrow && ranNarrow
  let storm := judge && isStorm (fld d 63 48) b.tally.jobTiles b.tally.jobFallbacks
  let b := if storm then b.openWindow (s - 1) else b
  let b := b.setSched
  { b with tally := { b.tally with jobTotals := false, live := { b.tally.live with stormAt := storm } } }

/-- The owl's mean of a tag from ACC and CNT (R240). -/
def owlUpdate (o : Owl) (acc cnt : Nat) (reseed : Bool) : Owl :=
  let s := toF32 (divExt (.fin false acc (-149)) (Ext.ofInt cnt))
  if !o.valid || reseed then { mean := s, valid := true } else { o with mean := f32Fma (f32Sub s o.mean) 0x3D800000#32 o.mean }

/-- Every tag with CNT above 0 is updated, and ACC and CNT are cleared (R240, R261). -/
def Block.owlAt (b : Block) (reseed : Bool) : Block :=
  let owl := b.tally.frozen.owlAcc.foldl (fun (l : List (Nat × Owl)) ((tag, acc, cnt) : Nat × Nat × Nat) =>
    if cnt = 0 then l else assocSet tag (owlUpdate ((assocGet tag l).getD {}) acc cnt reseed) l) b.tally.owl
  { b with tally := { b.tally with owl := owl, frozen := { b.tally.frozen with owlAcc := [] } } }

/-- THRESH of one AUTO tag (R138). -/
def autoThresh (d : BitVec 64) (maxAbs : F32) : BitVec 64 :=
  if !flag d 8 || f32Zero maxAbs || !isFin maxAbs then d
  else setFld d 63 32 (toF32 ((f32 maxAbs).scale (-(fld d 7 4 : Int)))).toNat

/-- THRESH of every AUTO tag (R138). -/
def Block.magpieAt (b : Block) : Block :=
  { b with desc := { b.desc with magpie := b.desc.magpie.map (fun ((tag, d) : Nat × BitVec 64) => (tag, autoThresh d ((assocGet tag b.tally.frozen.maxAbs).getD 0))) } }

/-- The next NORM_ANCHOR (R202). -/
def nextAnchor (g : F32) (sat : Bool) (old : Int) : Int :=
  let base := match f32 g with
    | .fin _ m e => if m = 0 then old else 2 * floorLog2 m e - 80
    | _ => old
  max (-2048) (min 2047 (if sat then max base (old + 40) else base))

/-- NORM_ANCHOR is set for the step that begins (R202). -/
def Block.anchorAt (b : Block) (done : Bool) : Block :=
  let g : F32 := if done then b.job.norm else 0
  { b with desc := { b.desc with norm := setFld b.desc.norm 111 100 (unsigned 12 (nextAnchor g b.tally.normSat b.normAnchor)) },
           tally := { b.tally with normSat := false } }

/-- The change of E_L by the first row of R215 that applies. -/
def expStep (c : LayerCounts) (bound : Nat) : Int :=
  if 0 < c.sat || 2 ^ 30 < c.wmax then 1
  else if 0 < c.nz && bound * c.nz < c.van * 65536 && c.wmax ≤ 2 ^ 29 then -1
  else 0

/-- E_L of one layer (R215, R216): a change out of range is not made and is counted. -/
def Block.layerExpAt (b : Block) (l : Nat) (c : LayerCounts) : Block :=
  let d := b.layer l
  let x := layerExp d + expStep c (fld d 107 92)
  if !flag d 55 || expStep c (fld d 107 92) == 0 then b
  else if x < -512 || 511 < x then b.bump .expLimits
  else { b with desc := { b.desc with layer := modAt l (fun d => setFld d 67 58 (unsigned 10 x)) b.desc.layer } }

/-- E_L of every layer from the counts that the ended step's reduction carried (R214 to R216). -/
def Block.expAt (b : Block) : Block := b.tally.layerReduced.foldl (fun b ((l, c) : Nat × LayerCounts) => b.layerExpAt l c) b

/-! Sequence grants (R413 to R416) -/

/-- A slot while pages are granted: its entry, the units of its pages, and how many it had before. -/
structure Seat where
  slot : Nat
  entry : BitVec 128
  units : List Nat
  before : Nat
  dropped : Bool := false
deriving DecidableEq, Repr

/-- The slots, and what R418 counts. -/
structure Grants where
  seats : List Seat
  alloc : Nat := 0
  drops : Nat := 0
  droppedPages : Nat := 0
  limit : Nat := 0
  full : Nat := 0
deriving DecidableEq, Repr

/-- PRIORITY of a sequence entry. -/
def seqPriority (e : BitVec 128) : Nat := fld e 79 72

/-- STATE and STATUS of an entry, with LAST_STEP where either changes (R411). -/
def seqMark (e : BitVec 128) (state status step : Nat) : BitVec 128 :=
  if seqState e == state && fld e 71 64 == status then e else setFld (setFld (setFld e 43 40 state) 71 64 status) 31 0 step

/-- A seat changed. -/
def Grants.put (g : Grants) (x : Seat) : Grants := { g with seats := g.seats.map (fun (y : Seat) => if y.slot == x.slot then x else y) }

/-- The units in use: first unit and length of every page held (R406). -/
def Grants.used (c : CacheDesc) (g : Grants) : List (Nat × Nat) :=
  (g.seats.map (fun x => ((List.range x.units.length).zip x.units).map (fun ((i, a) : Nat × Nat) => (a, 2 ^ Nat.min i c.k)))).flatten

/-- The lowest aligned run of n units that are all free (R406). -/
def firstFree (used : List (Nat × Nat)) (units n : Nat) : Option Nat :=
  ((List.range (units / n)).map (· * n)).find? (fun a => used.all (fun ((s, l) : Nat × Nat) => a + n ≤ s || s + l ≤ a))

/-- Pages from number i up to `need` in page order; none where one does not fit (R413). -/
def allocate (c : CacheDesc) (used : List (Nat × Nat)) (units : List Nat) : Nat → Option (List Nat)
  | 0 => some units
  | n + 1 =>
    let len := 2 ^ Nat.min units.length c.k
    match firstFree used c.units len with
    | some a => allocate c ((a, len) :: used) (units ++ [a]) n
    | none => none

/-- Pages that the positions up to TOKENS + APPEND need (R404, R413). -/
def pagesNeeded (c : CacheDesc) (e : BitVec 128) : Nat := if seqAppend e = 0 then 0 else (c.pageOf (seqTokens e + seqAppend e - 1)).1 + 1

/-- The slot that makes room for one of a priority (R415): the lowest priority below it, and among equals the highest slot number. -/
def Grants.victim (g : Grants) (prio : Nat) : Option Seat :=
  let ds := g.seats.filter (fun x => (seqState x.entry == 1 || seqState x.entry == 2) && !x.units.isEmpty && seqPriority x.entry < prio)
  let low := (ds.map (fun x => seqPriority x.entry)).min?
  (ds.filter (fun x => some (seqPriority x.entry) == low)).getLast?

/-- One slot is served (R413 to R416). -/
def Grants.serve (c : CacheDesc) (step slot : Nat) : Nat → Grants → Grants
  | 0, g => g
  | k + 1, g =>
    match g.seats.find? (fun x => x.slot == slot) with
    | none => g
    | some x =>
      let e := x.entry
      if seqState e != 1 && seqState e != 2 then g
      else if c.maxTokens < seqTokens e + seqAppend e then { g.put { x with entry := seqMark e 2 0x2F step } with limit := g.limit + 1 }
      else match allocate c (g.used c) x.units (pagesNeeded c e - x.units.length) with
        | some us =>
          { g.put { x with entry := setFld (setFld (seqMark e 1 0 step) 127 96 (seqTokens e + seqAppend e)) 63 48 us.length, units := us } with
              alloc := g.alloc + (us.length - x.units.length) }
        | none =>
          match g.victim (seqPriority e) with
          | some v => Grants.serve c step slot k
              { g.put { v with entry := setFld (seqMark v.entry 3 0x2E step) 63 48 0, units := [], dropped := true } with
                  drops := g.drops + 1, droppedPages := g.droppedPages + v.units.length }
          | none => { g.put { x with entry := seqMark e 2 0x2D step } with full := g.full + 1 }

/-- Every slot, by decreasing PRIORITY and increasing slot number (R413). -/
def Grants.all (c : CacheDesc) (step : Nat) (g : Grants) : Grants :=
  let order := ((List.range 256).reverse.map (fun p => (g.seats.filter (fun x => seqPriority x.entry == p)).map (·.slot))).flatten
  order.foldl (fun g slot => g.serve c step slot (g.seats.length + 1)) g

/-- The sequence grants of the boundary that begins a step: entries and page tables are written back, dropped slots keep nothing (R411 to R416). -/
def State.grantAt (s : State) (step : Nat) : State :=
  let c := s.m.cacheD
  if !c.valid then s
  else
    let seat (n : Nat) : Seat :=
      let e := s.m.seq n
      { slot := n, entry := e, before := seqPages e, units := (List.range (seqPages e)).map (fun i => s.ownNat (c.ptAddr n i) 4) }
    let g := Grants.all c step { seats := (List.range c.slots).map seat }
    let s := g.seats.foldl (fun s x =>
      if x.entry == s.m.seq x.slot then s
      else
        let s := s.on (fun b => { b with desc := { b.desc with seqs := assocSet x.slot x.entry b.desc.seqs } })
        let s := if x.dropped then s.on (fun b => b.forgetSlot x.slot) else s
        let s := if x.units.length == x.before && !x.dropped then s else s.writePageTable x.slot x.units x.before
        s.writeSeqEntry x.slot) s
    s.on (fun b => ((((b.bump .pagesAlloc g.alloc).bump .drops g.drops).bump .droppedPages g.droppedPages).bump .limitStalls g.limit).bump .fullStalls g.full)

/-! The rest of action 2 -/

/-- DATA_POS and DRAW_COUNT of every stream for the ended step (R526). -/
def State.streamsAt (s : State) : State :=
  (List.range s.m.streamTable.2).foldl (fun s i =>
    let e := s.streamEntry i
    s.writeStream i (e.draws + s.m.tally.frozen.get e.stream 0 .draws) (e.pos + e.perStep)) s

/-- FAIL_COUNT at a boundary's time (R505). -/
def failCount (h : List Nat) (time : Nat) : Nat := (h.filter (fun ta => ta != 0 && time < ta + 1209600000000000)).length

/-- INTERVAL_NS (R508). -/
def interval (fails cost : Nat) : Nat :=
  Nat.max 60000000000 (Nat.min 21600000000000 (isqrt (2 * cost * (1209600000000000 / Nat.max fails 1))))

/-- FAIL_COUNT and INTERVAL_NS of a boundary (R505, R508). -/
def Block.intervalAt (b : Block) (time : Nat) : Block :=
  let n := failCount b.desc.history time
  { b with desc := { b.desc with snap := setFld (setFld b.desc.snap 89 83 n) 639 576 (interval n (fld b.desc.snap 143 112)) } }

/-- The pages of retired frames migrate, or are skipped (R292). -/
def Block.migrateRetired (b : Block) : Block :=
  (b.tiers.pages.map (·.page)).foldl (fun b p => b.tryRetired p 0) b

/-- STEP writes are applied, and their commands complete with the number of the step that begins (R436); PARTIAL is for writes that a bell discards (R438). -/
def State.shadowsAt (s : State) (step : Nat) : State :=
  s.applyShadows.m.path.waits.foldl (fun s w => match w.wait with
    | .stepWrite superseded _ => s.endWait w 0 (setFld (0 : BitVec 128) 63 0 step) 0 superseded
    | _ => s) s.applyShadows

/-! Actions 3 and 4 -/

/-- Is a barrier taken at the boundary that begins step s (R37, R509)? -/
def Block.barrierDue (b : Block) (step time : Nat) (first : Bool) : Bool :=
  let d := b.desc.snap
  flag d 2 && !(b.dev.bellPending && b.dev.bellTa ≤ time)
    && (fld d 767 704 == step
      || (!first && fld d 703 640 + fld d 639 576 ≤ time
        && (!b.snap.anyBarrier || (match b.snap.lastId with
          | some l => fld d 447 384 == l || b.snap.jobAbandoned == some l
          | none => false))))

/-- The record of R507 as of the boundary that begins a step. -/
def Block.snapRecord (b : Block) : Nat :=
  match b.snap.lastId with
  | some l => putBits (putBits (putBits (putBits 0 255 192 l) 191 128 (b2n b.snap.done)) 127 64 (b2n b.snap.abandoned)) 31 0 b.snap.lastCost
  | none => 0

/-- The values of OPCODE (R178). -/
def opKnown (code : Nat) : Bool := [1, 2, 3, 8, 0xC, 0xD, 0x10, 0x18, 0x19, 0x1A, 0x1F].contains code

/-- The step of a number begins: its period (R618), every stream's operations in order, the snapshot record, the schedule of its bank. An operation of a reserved
opcode has no queue: it is rejected at once (R178, R179). -/
def Block.beginStep (b : Block) (step time : Nat) : Block :=
  let sched := fld b.desc.storm 17 16
  let period := match b.job.almanac with
    | some a => if sched == 2 then a.wideNs else a.narrowNs
    | none => 0
  let ops (n : Nat) (known : Bool) : List Nat := match b.job.almanac with
    | some a => (List.range ((a.streams[n]?).getD []).length).filter (fun i => opKnown (opCode (b.op n i)) == known)
    | none => []
  { b with job := { b.job with step := step, begun := true, boundaryAt := time + period, mbStart := [] },
           crofts := ((List.range b.crofts.length).zip b.crofts).map (fun ((n, c) : Nat × Croft) => { c with todo := ops n true, rejected := ops n false, commitAt := b.now, beats := [] }),
           tally := { b.tally with live := { b.tally.live with step := step, sched := sched, widened := flag b.desc.storm 1 } } }

/-- Actions 3 and 4 (R35). A barrier abandons an image still draining (R509). The record of R507 is that of the boundary before its barrier, with what that barrier has abandoned: so every
member reports on one snapshot (DEDUCED from R509, log 33). -/
def State.intoStep (s : State) (step time : Nat) (first : Bool) : State :=
  let due := s.m.barrierDue step time first
  let s := (if due then s.abandonImage 6 else s).on (fun b => { b with snap := { b.snap with atBoundary := b.snapRecord } })
  let s := if due then s.takeBarrier step time else s
  s.on (fun b => (b.beginStep step time).settleStalls)

/-- The first boundary of a job, at T_START (R443, R618): JOB_START completes there. No step has ended, so nothing that rests on one is done, and a restored
job takes what its barrier recorded (R35). -/
def State.firstBoundary (s : State) : State :=
  let step := s.m.job.firstStep
  let time := s.m.job.tStart
  let s := s.shadowsAt step
  let s := s.on (fun b => b.firstTokens.setSched.migrateRetired)
  let s := match s.m.job.restored with
    | .done .. => s
    | _ => s.grantAt step
  let s := (s.on (fun b => ({ b with job := { b.job with restored := .none } } : Block).intervalAt time)).intoStep step time true
  s.m.path.waits.foldl (fun s w => match w.wait with
    | .jobStart ts => s.endWait w 0 (setFld (0 : BitVec 128) 63 0 ts)
    | _ => s) s

/-- The job ends at the boundary that ends step s (R443): of action 2 its shadows alone. The layer counts of the step wait for the norm reduction that follows it, if a run
begun here goes on (R214). -/
def State.stopAt (s : State) (step : Nat) : State :=
  let s := (s.on (·.endStep)).writeTallySlot.shadowsAt (step + 1)
  let s := s.on (fun b =>
    let b := b.millBoundary.idle
    { b with dev := { b.dev with state := 3 }, job := { b.job with stops := [] }, tally := { b.tally with normSat := false, layerLast := b.tally.layerNow, layerNow := [], layerReduced := [] } })
  s.m.path.waits.foldl (fun s w => match w.wait with
    | .jobStop => s.endWait w 0 (setFld (0 : BitVec 128) 63 0 step)
    | _ => s) s

/-- The boundary that ends step s and begins the next (R35), in its order; every action carries its placed time. Where it is reached before the step's norm result, NORM_ANCHOR, LAST_NORM
and every E_L stay as they are (DESIGN CHOICE, log 110). -/
def State.turnStep (s : State) (step time : Nat) : State :=
  let done := s.m.mill.scalarDone
  let ranNarrow := s.m.tally.live.sched == 1
  let reseed := !ranNarrow && s.m.tally.lastNarrow
  let s := s.on (fun b =>
    let b := b.endStep.takeSnapRecord
    { b with tally := { b.tally with windowLast := if 0 < fld b.desc.storm 31 24 then some step else b.tally.windowLast } })
  let s := s.shadowsAt (step + 1)
  let wasWide := flag s.m.desc.storm 1
  let s := s.on (fun b =>
    let b := (((b.stormAt step ranNarrow).owlAt reseed).magpieAt).anchorAt done
    let b := if done then b.expAt else b
    let b := b.bandTokens.millBoundary
    { b with tally := { b.tally with lastTiles := b.tally.frozen.modTiles, lastFallbacks := b.tally.frozen.modFallbacks, lastNarrow := ranNarrow,
                                     layerLast := b.tally.layerNow, layerNow := [], layerReduced := [] } })
  let s := if flag s.m.desc.storm 1 && !wasWide then
      s.postEvent { code := 0x10, result := eventResult time s.m.moduleId 7 ((step + 1) % 2 ^ 32) } else s
  let s := (s.grantAt (step + 1)).streamsAt
  let s := s.on (fun b => (b.intervalAt time).migrateRetired)
  s.writeTallySlot.intoStep (step + 1) time false

/-- STEP_BOUNDARY (R35, R618): at the placed time, or once the last commit has completed; not past the abort time of a bell (R36, R497), which also decides over a
JOB_STOP (R457). -/
def execStepBoundary (t : Nat) (s : State) : Host.Outcome State Fault Refusal :=
  let s := s.on (·.advanceTo t)
  let b := s.m
  if !b.jobRuns || b.dev.bellDone then .next s
  else if !b.job.begun then
    if b.now < b.job.tStart || (b.dev.bellPending && b.dev.bellTa ≤ b.job.tStart) then .next s else .next s.firstBoundary
  else if b.now < b.job.boundaryAt || !b.stepDone || (b.dev.bellPending && b.dev.bellTa ≤ b.job.boundaryAt) then .next s
  else if !b.dev.bellPending && b.job.stops.any (· ≤ b.job.step) then .next (s.stopAt b.job.step)
  else .next (s.turnStep b.job.step b.job.boundaryAt)

end Sys2Proof.Machine
end

