-- ==== Sys2Proof/Machine/Nodes.lean ====
section
/-! DEFINITION. What arrives at a mill: contributions, results, raises and broadcasts (R365 to R374, R378, R383 to R387), deadlines, group fences
(R450), and the comparison of digests (R390). -/
namespace Sys2Proof.Machine

/-- Fields of a mill packet (R371). -/
structure MillPkt where
  g : Nat
  mb : Nat
  part : Nat
  twin : Bool
  sub : Bool
  info : Nat
  slice : Nat
deriving DecidableEq, Repr

/-- The fields of a MILL_CONTRIB or MILL_RESULT packet (R371). -/
def millPkt (p : Pkt) : MillPkt :=
  { g := bitsOf p.param 31 16, mb := bitsOf p.param 15 8, part := bitsOf p.param 7 5, twin := bitsOf p.param 4 4 == 1, sub := bitsOf p.param 3 3 == 1,
    info := bitsOf p.ext 47 28, slice := bitsOf p.ext 27 0 }

/-- h of a packet that came (R389). -/
def hashOf (p : Pkt) : BitVec 64 := millHash p.typ p.param p.jobId p.ext p.payload

/-- Is an operand that of a part from a rank. -/
def Operand.is (o : Operand) (g slice mb part rank : Nat) : Bool :=
  o.group == g && o.slice == slice && o.mb == mb && o.part == part && o.from_ == rank

/-- An operand at a node replaced. -/
def Block.setOperand (b : Block) (old new : Operand) : Block :=
  { b with mill := { b.mill with nodes := b.mill.nodes.map (fun (x : Operand) => if x == old then new else x) } }

/-- An operand is taken (R386, R387): it enters RECV, a wait for it ends, and its part goes on; adders that disagree raise MILL_MISMATCH (R537). -/
def State.takeOperand (s : State) (o : Operand) (adderOk : Bool) : State :=
  let s := s.on (fun b =>
    let b := match b.mill.waits.find? (fun w => w.group == o.group && w.slice == o.slice && w.mb == o.mb && w.part == o.part && w.from_ == o.from_) with
      | some w => ({ b with mill := { b.mill with waits := b.mill.waits.erase w } } : Block).bump .waitNs (b.now - w.since)
      | none => b
    (b.setOperand o { o with taken := true }).digestAt o.group o.step false o.hash)
  if !adderOk && o.slice != fenceSlice then (s.on (·.bump .millDupMismatches)).millErr 0x2C 7
  else (s.progress o.group o.slice o.mb o.part).maybeScalars

/-- The level of the link to a rank below this module (R367). -/
def levelOf (hops : List Hop) (rank : Nat) : Option Nat := (hops.find? (fun h => !h.up && h.rank == rank)).map (·.level)

/-- Has the deadline of an operand passed (R383)? That of an operand of a later step is still undefined. -/
def State.pastDeadline (s : State) (d : BitVec 512) (o : Operand) : Bool :=
  if o.step != s.m.job.step then false else match levelOf (s.hops o.group d o.slice o.part) o.from_ with
  | some l => (match s.m.millDeadline d o.group o.slice o.mb o.part l with
    | some t => t ≤ s.m.now
    | none => false)
  | none => false

/-- What of an operand is compared with its other copy (R386): all of it, but for the record of R507 in the scalar reduction: a twin contributes nothing to it, so its copy cannot
equal the partner's there (DEDUCED, log 101). -/
def Block.mirrored (b : Block) (o : Operand) : List Int × Nat × Option (BitVec 64) :=
  let k := b.layers + 1
  if o.part == 7 && b.normGroup.any (fun x => x.1 == o.group) && o.slice ≤ k && k < o.slice + 16 then (o.elems.set (k - o.slice) 0, o.info, none)
  else (o.elems, o.info, some o.hash)

/-- The second copy of a mirrored operand (R386): compared, counted and discarded; the partner's is the one taken where neither was yet. Copies that differ raise
TWIN_MISMATCH, naming both modules, and the root never releases the partial (R392). -/
def State.secondCopy (s : State) (first : Operand) (second : Operand) (adderOk : Bool) : State :=
  let both := { (if first.taken then first else second) with gotPartner := true, gotTwin := true, taken := first.taken, arrivedAt := first.arrivedAt, step := first.step }
  let s := s.on (fun b => (b.setOperand first both).bump .twinCompares)
  let s :=
    if s.m.mirrored first == s.m.mirrored second then s
    else
      let both := (s.m.group first.group).map (fun d => s.rankEntry d first.from_)
      (s.on (fun b => { b with mill := { b.mill with unequal := both, barred := insertNew (first.group, first.slice, first.mb, first.part == 7) b.mill.barred } })).raiseErr
        { cls := .j, code := 0x29, at_ := 0, cause := 8, named := both.map (·.1) }
  if first.taken then s else s.takeOperand both adderOk

/-- A MILL_CONTRIB packet reaches its node (R369, R385, R386): the partner's copy, or any copy of an untwinned member, is taken at once; a twin's is held until the
deadline, and taken at once when that has passed. Operands of a later step wait in their own place (R369). -/
def State.millArrive (s : State) (p : Pkt) (adderOk : Bool) : State :=
  let m := millPkt p
  match s.m.group m.g with
  | none => s
  | some d =>
    match s.rankOf d p.srcModule with
    | none => s
    | some r =>
      if m.slice == fenceSlice && s.m.mill.deadFences.contains (m.g, m.mb) then s
      else
        let twinned := (s.rankEntry d r).2 != 0x3FFF
        let same := s.m.mill.nodes.filter (fun o => o.is m.g m.slice m.mb m.part r)
        let o : Operand := { group := m.g, slice := m.slice, mb := m.mb, part := m.part, from_ := r, step := s.m.job.step, elems := partElems d m.part p.payload,
                             info := m.info, sub := m.sub, gotPartner := !m.twin || !twinned, gotTwin := m.twin || !twinned, hash := hashOf p, arrivedAt := s.m.now }
        match same.find? (fun x => if m.twin then !x.gotTwin else !x.gotPartner) with
        | some x => s.secondCopy x o adderOk
        | none =>
          let o := { o with step := same.foldl (fun n x => Nat.max n (x.step + 1)) o.step }
          let s := s.on (fun b => { b with mill := { b.mill with nodes := b.mill.nodes ++ [o] } }.countGrad m.g m.slice .sat (partSats d m.part p.payload))
          if !m.twin || !twinned then s.takeOperand o adderOk
          else if s.pastDeadline d o then
            (s.on (fun b => b.setOperand o { o with sub := true })).takeOperand { o with sub := true } adderOk
          else s

/-- Is a module a member or twin of a group. -/
def State.inGroup (s : State) (d : BitVec 512) (module : Nat) : Bool := (s.rankOf d module).isSome

/-- The digest of a group and step: 0 where no packet entered it (R389). -/
def Block.digestOf (b : Block) (g step : Nat) : Digest :=
  (b.mill.digests.find? (fun y => y.group == g && y.step == step)).getD { group := g, step := step }

/-- The digests of the last two completed steps of a group (R390). -/
def Block.lastDigests (b : Block) (g : Nat) : List Digest := match b.mill.lastStep with
  | some 0 => [b.digestOf g 0]
  | some t => [b.digestOf g (t - 1), b.digestOf g t]
  | none => []

/-- SLICE_ID of the packets that carry digests to another module: the manual gives them no form (DESIGN CHOICE, log 30). -/
def digestSlice : Nat := 0xFFFFFFD

/-- Digests as records of a packet: step, SEND and RECV (DESIGN CHOICE, log 30). -/
def digestRecord (y : Digest) : List Byte := leBytes 32 (putBits (putBits (putBits 0 255 192 y.step) 191 128 y.send.toNat) 127 64 y.recv.toNat)

/-- A module sends the digests of the last two completed steps of a group to another (R390): a MILL_RESULT of part 7, counted as every mill packet (R391) and in no digest. -/
def State.sendDigests (s : State) (g : Nat) (d : BitVec 512) (dest : Nat) : State :=
  let ys := s.m.lastDigests g
  if ys.isEmpty then s
  else s.on (fun b => (b.send (mkPkt dest 16 b.moduleId 16 false 9 0 (millParam g 0 7 (s.amTwin d) false) b.job.id (millExt 0 digestSlice) ((ys.map digestRecord).flatten)) (s.edgeOf d dest)).bump .contribsSent)

/-- Rank 0 compares the digests of a step once it has every member's, and has done with them (R390, R492). -/
def State.compareStep (s : State) (g : Nat) (d : BitVec 512) (step : Nat) : State :=
  let all := s.m.mill.rank0.filter (fun (_, z) => z.group == g && z.step == step)
  if all.length < gMembers d then s
  else
    let s := s.on (fun b => { b with mill := { b.mill with rank0 := b.mill.rank0.filter (fun (_, z) => !(z.group == g && z.step == step)) } })
    if all.foldl (fun n (_, z) => n + z.send) (0 : BitVec 64) == all.foldl (fun n (_, z) => n + z.recv) (0 : BitVec 64) then s else s.millErr 0x2B 8

/-- A member's digests have come to rank 0, its own among them. -/
def State.takeDigests (s : State) (g : Nat) (d : BitVec 512) (rank : Nat) (ys : List Digest) : State :=
  let s := s.on (fun b => { b with mill := { b.mill with rank0 := b.mill.rank0.filter (fun (r, z) => !(r == rank && z.group == g)) ++ ys.map (fun y => (rank, y)) } })
  ys.foldl (fun s y => s.compareStep g d y.step) s

/-- A partner compares the digests that its twin has sent with its own of the steps it has completed; one of a step that it has not waits for the step's end, and one of a step it no
longer keeps says nothing (R390; log 30). -/
def State.compareTwins (s : State) : State :=
  match s.m.mill.lastStep with
  | none => s
  | some t =>
    let (due, later) := s.m.mill.twinDigests.partition (fun y => y.step ≤ t)
    due.foldl (fun s y => if y.step + 4 ≤ t || s.m.digestOf y.group y.step == y then s else s.millErr 0x2B 8)
      (s.on (fun b => { b with mill := { b.mill with twinDigests := later } }))

/-- Digests of a group have come (R390): a member's to rank 0, a twin's to its partner. -/
def State.digestsArrive (s : State) (p : Pkt) : State :=
  let m := millPkt p
  match s.m.group m.g with
  | none => s
  | some d =>
    let ys := (List.range (p.payload.length / 32)).map (fun i =>
      let v := leAt p.payload (32 * i) 32
      ({ group := m.g, step := bitsOf v 255 192, send := BitVec.ofNat 64 (bitsOf v 191 128), recv := BitVec.ofNat 64 (bitsOf v 127 64) } : Digest))
    if s.amTwin d then s
    else if (s.rankEntry d (gRank d)).2 == p.srcModule then (s.on (fun b => { b with mill := { b.mill with twinDigests := b.mill.twinDigests ++ ys } })).compareTwins
    else match (s.members d).idxOf? p.srcModule with
      | some r => if gRank d == 0 then s.takeDigests m.g d r ys else s
      | none => s

/-- After a suspicion whose origin belongs to a group, the digests of the last two completed steps are sent: a working member's to rank 0, which takes its own, a twin's to its
partner (R390). -/
def State.compareDigests (s : State) (origin : Nat) : State :=
  s.m.desc.groups.foldl (fun s x =>
    match s.m.group x.index with
    | none => s
    | some d =>
      if !s.inGroup d origin then s
      else if s.amTwin d then s.sendDigests x.index d (s.rankEntry d (gRank d)).1
      else if gRank d != 0 then s.sendDigests x.index d (s.rankEntry d 0).1
      else s.takeDigests x.index d 0 (s.m.lastDigests x.index)) s

/-- Scalar records, a fence's end, a twin's restore digest, digests to compare or a raise comes down the tree (R368, R378, R381, R450, R523). A copy of one already had is
discarded. -/
def State.resultArrive (s : State) (p : Pkt) (_adderOk : Bool) : State :=
  let m := millPkt p
  if m.part == 7 && m.slice == 0xFFFFFFE then
    let v := leAt p.payload 0 32
    s.twinDigest p.srcModule (bitsOf v 255 192) (BitVec.ofNat 64 (bitsOf v 63 0))
  else if m.part == 7 && m.slice == digestSlice then s.digestsArrive p
  else match s.m.group m.g with
  | none => s
  | some d =>
    let hops := s.hops m.g d m.slice m.part
    let down (s : State) (elems : List Byte) : State :=
      (s.on (fun b => b.digest m.g false (hashOf p))).sendDown m.g d hops 9 (millParam m.g m.mb m.part (s.amTwin d) false) (millExt m.info m.slice)
        (millDie m.slice m.part) elems s.m.job.step
    if m.part == 6 then
      if s.m.mill.requests.any (fun (g, sl, mb, _) => g == m.g && sl == m.slice && mb == m.mb) then s
      else
        let s := (down s []).on (fun b => { b with mill := { b.mill with requests := b.mill.requests ++ [(m.g, m.slice, m.mb, b.now)] } })
        s.answerRaise m.g d m.slice m.mb
    else if m.part != 7 then s
    else if m.slice == fenceSlice then
      if s.m.mill.sent.contains (m.g, fenceSlice, m.mb, 7) && !s.m.mill.deadFences.contains (m.g, m.mb) then (down s []).endFence m.g m.mb else s
    else if s.m.mill.scalar.any (fun x => x.1 == m.slice) then s
    else (down s p.payload).on (·.addScalar m.slice (partElems d 7 p.payload))

/-- A BROADCAST packet (R374): its payload is written at its address and passed down, once; with the last byte the token is set, and held exports whose exponent
entry came leave (R377). Chunks of a broadcast begun in the step before go first to it (log 29); they
are pre-barrier writes where the barrier came after it began (R511). -/
def State.bcastArrive (s : State) (p : Pkt) : State :=
  let idx := p.param % 65536
  match s.m.bcasts[idx]?, s.m.group (bitsOf p.param 31 16) with
  | some e, some d =>
    let a := 16 * p.ext
    let key := (p.srcModule, (a - e.base) / 512)
    let fits (r : BcastRx) : Bool := r.entry == idx && !r.chunks.contains key
    let r := ((s.m.mill.broadcasts.find? (fun r => fits r && r.old)).or (s.m.mill.broadcasts.find? (fun r => fits r && !r.old))).getD { entry := idx }
    let seen := r.chunks.any (fun c => c.2 == key.2)
    let s := s.on (fun b => { b with mill := { b.mill with broadcasts := b.mill.broadcasts.erase r ++ [{ r with chunks := r.chunks ++ [key] }] } })
    if seen then s
    else
      let step := if r.old then s.m.job.step - 1 else s.m.job.step
      let s := s.on (fun b => b.digestAt e.group step false (hashOf p))
      let s := (s.devWrite a p.payload none (!r.pre) (s.m.elemsAt a)).sendDown e.group d (treeOf (s.members d) e.owner (gRank d)) 0x0A p.param p.ext 16 p.payload step
      let s := s.on (fun b => b.settleBcasts.settleStalls)
      (List.range s.m.crofts.length).foldl (fun s c => if (s.m.croft c).exports.isEmpty then s else s.runExports c) s
  | _, _ => s

/-- MILL_DEADLINE (R383, R386, R387): at a node's deadline a twin's held copy is taken, which an adder may judge (R537), or the wait past it begins to count. -/
def execMillDeadline (t group slice mb part level : Nat) (adderOk : Bool) (s : State) : Host.Outcome State Fault Refusal :=
  let s := s.on (·.advanceTo t)
  match s.m.group group with
  | none => .next s
  | some d =>
    match (s.hops group d slice part).find? (fun h => !h.up && h.level == level), s.m.millDeadline d group slice mb part level with
    | some h, some t' =>
      if s.m.now < t' then .next s
      else match s.m.mill.nodes.find? (fun o => o.is group slice mb part h.rank && o.step == s.m.job.step) with
        | some o =>
          if o.taken then .next s
          else
            let n := { o with sub := true }
            .next ((s.on (fun b => (b.setOperand o n).bump .substitutions)).takeOperand n adderOk)
        | none =>
          .next (s.on (fun b =>
            let w : MillWait := { group := group, slice := slice, mb := mb, part := part, from_ := h.rank, since := t' }
            if b.mill.waits.contains w then b else ({ b with mill := { b.mill with waits := b.mill.waits ++ [w] } } : Block).bump .waits))
    | _, _ => .next s

/-- FENCE_GROUP_TIMEOUT (R450): the fence completes with TIMEOUT, and later markers of its FENCE_ID are discarded here. -/
def execFenceGroupTimeout (t group fenceId : Nat) (s : State) : Host.Outcome State Fault Refusal :=
  let s := s.on (·.advanceTo t)
  match s.m.path.waits.find? (fun w => match w.wait with
    | .fenceGroup g i due _ _ => g == group && i == fenceId && due ≤ s.m.span
    | _ => false) with
  | some w =>
    .next ((s.endWait w 0x0A).on (fun b => { b with mill := { b.mill with deadFences := insertNew (group, fenceId) b.mill.deadFences,
                                                                           nodes := b.mill.nodes.filter (fun o => !(o.group == group && o.slice == fenceSlice && o.mb == fenceId)),
                                                                           sent := b.mill.sent.filter (· != (group, fenceSlice, fenceId, 7)) } }))
  | none => .next s

/-- The marker of a fence goes up from this module (R450), once acknowledgements cover every packet sent to the group before it. -/
def State.sendMarkers (s : State) : State :=
  s.m.path.waits.foldl (fun s w => match w.wait with
    | .fenceGroup g i due acks false =>
      if acks.any (fun (k, q) => s.m.fab.lost.contains (k, q) || s.m.fab.e2e.any (fun e => e.flow == k && e.seq == q) || s.m.fab.backlog.any (fun x => x.pkt.flow == k && x.pkt.seq == q)) then s
      else match s.m.group g with
        | none => s
        | some d =>
          let s := s.on (fun b => { b with path := { b.path with waits := b.path.waits.map (fun (x : Wait) =>
            if x == w then { x with wait := WaitFor.fenceGroup g i due acks true } else x) } })
          (s.on (fun b => b.addLeaf d g fenceSlice i 7 [] 0)).progress g fenceSlice i 7
    | _ => s) s

/-- The comparisons that suspicions, from elsewhere or raised here, have asked for (R390). -/
def State.compareAll (s : State) : State := s.m.faults.compare.foldl State.compareDigests (s.on (fun b => { b with faults := { b.faults with compare := [] } }))

end Sys2Proof.Machine
end

