-- ==== Sys2Proof/Machine/Packets.lean ====
section
/-! DEFINITION. Packets (R322, R329 to R333): routing, the checks at the destination, flows, acknowledgement and sending again, and what each type's delivery does;
CRIER (R488 to R492) and BELL (R495) packets. -/
namespace Sys2Proof.Machine

/-- CLASS of a TYPE: is it URGENT; none for a reserved TYPE (R330). -/
def typeClass : Nat → Option Bool
  | 1 => some false | 2 => some false | 3 => some false | 4 => some true | 8 => some false | 9 => some false | 0x0A => some false | 0x10 => some true
  | 0x11 => some true | _ => none

/-- Does a WRITE store bytes of an image in the receive parcel (R503, R519)? -/
def Block.imageArrives (b : Block) (p : Pkt) : Bool :=
  let base := fld b.desc.snap 331 280
  p.typ == 1 && base != 0 && Nat.ble base p.address && Nat.blt p.address (base + 2 * 65536 * fld b.desc.snap 175 144)

/-- Is a MILL_RESULT a twin's digest that a RESTORE waits for (R523)? -/
def Block.digestAwaited (b : Block) (p : Pkt) : Bool :=
  p.typ == 9 && b.path.waits.any (fun w => match w.wait with
    | .restore .. => true
    | _ => false)

/-- Does the destination discard a packet at delivery (R330, R342, R497)? After Ta and until the job is unloaded or restored it accepts only CRIER and BELL packets of the job, and what a
drain that goes on (R37, R528) and a RESTORE that waits (R523) need: image WRITEs and the twin's digest (DEDUCED, log 64). -/
def Block.rejects (b : Block) (p : Pkt) : Bool :=
  typeClass p.typ != some p.urgent || (p.jobId != 0xFFFF && p.jobId != b.job.id) || 19 ≤ p.dstDie || 19 ≤ p.srcDie
    || (b.job.postAbort && !((p.typ == 0x10 || p.typ == 0x11) && p.jobId == b.job.id) && !b.imageArrives p && !b.digestAwaited p)

/-- A CRIER packet is handed over (R488 to R492). -/
def State.crierArrive (s : State) (port : Nat) (p : Pkt) : State :=
  let r := reportOf p
  if r.kind == 3 then
    s.on (fun b => { b with ports := b.ports.map (fun (q : Port) => if q.peerModule == r.origin then { q with peerMask := some r.mask } else q) })
  else
    let stale := r.epoch ≤ s.m.lastEpoch r.origin
    let s := s.takeReport r (some port)
    let s := s.compareAll
    if r.kind == 0 && r.origin == s.m.moduleId && !stale then s.answerSuspect r.epoch else s

/-- A BELL packet is handed over (R493, R495): a bell first learnt after its Ta counts in LATE_BELLS and aborts at once. After an abort it is only forwarded. -/
def State.bellArrive (s : State) (port : Nat) (p : Pkt) : State :=
  let v := leNat p.payload
  let origin := bitsOf p.ext 47 34
  let ta := bitsOf v 63 0
  let known := s.m.faults.bells.any (fun r => r.origin == origin && r.epoch == p.param)
  let past := !s.m.jobRuns || s.m.dev.bellDone
  let dev := s.m.dev
  let s := s.takeBell origin p.param (bitsOf p.ext 33 26) (bitsOf p.ext 25 12) (bitsOf p.ext 11 11 == 1) (bitsOf v 127 96) (bitsOf v 95 64) ta (some port)
  let s := if !known && ta < s.m.now then s.on (·.bump .lateBells) else s
  if past then s.on (fun b => { b with dev := { b.dev with bellPending := dev.bellPending, bellPassed := dev.bellPassed, bellDone := dev.bellDone } })
  else if s.m.dev.bellPending && s.m.dev.bellTa ≤ s.m.now then s.abortNow
  else s

/-- A packet is delivered (R331): a WRITE is visible, any other type is handed to its consumer; or it is discarded and counted (R330). -/
def State.deliverPkt (s : State) (port : Nat) (p : Pkt) (adderOk : Bool) : State :=
  if s.m.rejects p then s.on (·.bump .pktReject)
  else match p.typ with
    | 1 => s.devWrite p.address p.payload none true (s.m.elemsAt p.address)
    | 8 => s.millArrive p adderOk
    | 9 => s.resultArrive p adderOk
    | 0x0A => s.bcastArrive p
    | 0x10 => s.crierArrive port p
    | 0x11 => s.bellArrive port p
    | _ => s.on (fun b => { b with fab := { b.fab with delivered := b.fab.delivered ++ [p] } })

/-- A packet in its turn, and those held behind it (R331): a discarded one takes its place in the flow too (log 27). -/
def State.deliverTurn (s : State) (port : Nat) (p : Pkt) (adderOk : Bool) : Nat → State
  | 0 => s
  | n + 1 =>
    let f := s.m.rxFlow p.flow
    let next := (f.next + 1) % 65536
    let f := { f with next := next, sinceAck := f.sinceAck + 1, firstUnacked := some (f.firstUnacked.getD s.m.span) }
    let behind := f.held.find? (fun x => x.1 == next)
    let s := (s.on (fun b => b.setRx { f with held := f.held.filter (fun x => x.1 != next) })).deliverPkt port p adderOk
    match behind with
    | some (_, q) => State.deliverTurn s port q adderOk n
    | none => s

/-- Where a packet stands in its flow (R331). -/
inductive Turn where
  | now | dup | full | held | early
deriving DecidableEq, Repr

/-- The place of a packet in its flow. -/
def RxFlow.turn (f : RxFlow) (seq : Nat) : Turn :=
  let ahead := (seq + 65536 - f.next) % 65536
  if ahead == 0 then .now
  else if 32768 ≤ ahead then .dup
  else if f.held.any (fun x => x.1 == seq) then .held
  else if 64 ≤ f.held.length then .full
  else .early

/-- Does PKT_CRC hold (R332). -/
def pktIntact (p : Pkt) : Bool := p.fld 255 224 == (crc32c p.crcBytes).toNat

/-- Entries in the mill buffer of a module-mill stage (R357, R358, R370): operands that wait for partners, and results that wait for their other half, their quarters or
their turn. One entry holds the 512 bytes of a part (log 101). -/
def Block.millUsed (b : Block) (stage : Nat) : Nat :=
  (b.mill.nodes.filter (fun o => o.part < 7 && millDie o.slice o.part == 16 + stage && !b.mill.sent.contains (o.group, o.slice, o.mb, o.part))).length
    + (b.mill.ready.filter (fun r => r.slice % 2 == stage)).foldl (fun n r => n + b2n r.lo.isSome + b2n r.hi.isSome + r.quarters.length) 0

/-- Has the mill buffer of 8 MiB no room for a contribution (R358)? One whose partner waits at the node goes through it. -/
def Block.millFull (b : Block) (p : Pkt) : Bool :=
  let m := millPkt p
  p.typ == 8 && m.part != 7 && 16384 ≤ b.millUsed (m.slice % 2)
    && !b.mill.nodes.any (fun o => o.group == m.g && o.slice == m.slice && o.mb == m.mb && o.part == m.part && !b.mill.sent.contains (o.group, o.slice, o.mb, o.part))

/-- The die that a packet comes in at: the I/O die of its port (R314), or the die at that end of a die-to-die link (R343). -/
def entryDie (port : Nat) : Nat :=
  let (x, y) := linkDies ((port - 32) / 2)
  if port < 32 then 16 + ioDieOf port else if port % 2 == 0 then x else y

/-- Is a packet taken from a port: job traffic uses SP0 only while it stands in for another port (R42). -/
def Block.takesFrom (b : Block) (port : Nat) (p : Pkt) : Bool :=
  b.carries port && !(port == 17 && (b.port 17).standsFor == 0x1F && p.jobId != 0xFFFF)

/-- Does a packet for this module wait at the die it came in at: for a link on its way that is not in service (R343), or for room in the mill buffer (R358)? -/
def Block.waitsAt (b : Block) (port : Nat) (p : Pkt) : Bool :=
  b.takesFrom port p && p.dstModule == b.moduleId && (!b.reaches (entryDie port) p.dstDie || b.millFull p)

/-- Is packet number x covered by an acknowledgement of a, of numbers mod 65,536. -/
def covers (a x : Nat) : Bool := (a + 65536 - x) % 65536 < 32768

/-- The packets of a flow that an acknowledgement covers leave the end-to-end buffer, those that wait for room leave (R333), and a group fence that waited for them goes on
(R450). -/
def State.acknowledge (s : State) (flow : FlowKey) (seq : Nat) : State :=
  (s.on (fun b =>
    let e2e := b.fab.e2e.filter (fun e => !(e.flow == flow && covers seq e.seq))
    let lost := b.fab.lost.filter (fun x => !(x.1 == flow && covers seq x.2))
    ({ b with fab := { b.fab with e2e := e2e, lost := lost } } : Block).drainBacklog.fabricTraffic.completeImage)).sendMarkers

/-- The flow that an E2E_ACK packet acknowledges: it comes from the flow's destination (R332). -/
def ackedFlow (p : Pkt) : FlowKey :=
  { srcModule := p.dstModule, srcDie := p.dstDie, dstModule := p.srcModule, dstDie := p.srcDie, urgent := (Config.ackSays p.param p.ext).1 }

/-- A packet arrives on a port, or at an end of a die-to-die link, which is no router hop (R322, R331, R332, R343), and moves on to its die (R24). An E2E_ACK stands in
no flow (log 8). -/
def State.receive (s : State) (port : Nat) (p : Pkt) (adderOk : Bool) : State :=
  if !s.m.takesFrom port p then s
  else if p.dstModule != s.m.moduleId then s.on (fun b => b.forward (if port < 32 then crossed p port else p) (entryDie port))
  else if !pktIntact p then s.on (·.bump .pktCrcErr)
  else if p.typ == 4 then (if s.m.rejects p then s.on (·.bump .pktReject) else s.acknowledge (ackedFlow p) (Config.ackSays p.param p.ext).2)
  else
    let f := s.m.rxFlow p.flow
    match f.turn p.seq with
    | .now => s.deliverTurn port p adderOk 65
    | .dup => s.on (·.bump .e2eDup)
    | .held => s
    | .full => s.on (·.bump .e2eOverflow)
    | .early => s.on (fun b => b.setRx { f with held := f.held ++ [(p.seq, p)] })

/-- The channel that a packet came by: of its port (R324), or of the link of its way that ends there (R343; log 89). -/
def arrivalChannel (port : Nat) (p : Pkt) : Nat :=
  if port < 32 then pktChannel p else dieChannel (((wayEnds p.srcDie (diePath p.srcDie p.dstDie)).findIdx? (fun e => e.2 == port)).getD 0) p

/-- The slots of a packet received on a port are free again once it has moved on, and are returned to the peer (R324, R326). -/
def Block.oweCredit (b : Block) (port : Nat) (p : Pkt) : Block :=
  let c := arrivalChannel port p
  if b.carries port then b.onPort port (fun q => { q with owed := assocSet c ((assocGet c q.owed).getD 0 + slotsOf p) q.owed }) else b

/-- A packet that has come by a port is taken, unless it waits at the I/O die, holding its credits (R324, R358). `since` says since when it has waited: what stalls on
the fabric accrue that as QUEUE, and the wait for a full buffer is such a stall itself (R303, R358). -/
def State.arrive (s : State) (x : Crossing) : State :=
  if s.m.waitsAt x.port x.pkt then s.on (fun b => { b with fab := { b.fab with crossing := b.fab.crossing ++ [{ x with full := x.full || b.millFull x.pkt }] } })
  else ((if x.since < s.m.span then s.on (fun b =>
      let b := b.fabricDelay 0 x.since
      if x.full then (b.bump (.stallNs 3 0) (b.span - x.since)).bump (.stallEvents 3 0) else b) else s).on (fun b =>
    let b := b.oweCredit x.port x.pkt
    if b.takesFrom x.port x.pkt && x.pkt.dstModule == b.moduleId && x.pkt.dstDie < 19 then b.carry x.pkt (entryDie x.port) x.pkt.dstDie else b)).receive x.port x.pkt x.adderOk

/-- The packets that waited at the I/O dies move on once they may (R343, R358). -/
def State.cross (s : State) : State :=
  let s := s.contributeAll.compareAll
  (s.m.fab.crossing.foldl State.arrive (s.on (fun b => { b with fab := { b.fab with crossing := [] } }))).maybeScalars

/-- A packet row: what arrives when it is of the row's kind. -/
def packetRow (t port : Nat) (p : Pkt) (adderOk mine : Bool) (s : State) : State :=
  let s := s.on (·.advanceTo t)
  if mine then s.arrive { port := port, pkt := p, adderOk := adderOk, since := s.m.span } else s

/-- Bytes that the packet which begins in some bytes takes: its header of 32 and LEN slots of 16 (R329). -/
def pktBytes (bytes : List Byte) : Nat := 32 + 16 * bitsOf (leNat (slice bytes 0 32)) 157 152

/-- One slot of a DATA flit (R325, R326, R329): at a START bit a packet begins, and what came before it unfinished is dropped; a slot that follows no unfinished packet says
nothing. The packet whose last slot it is arrives. -/
def State.takeSlot (s : State) (port : Nat) (start : Bool) (bytes : List Byte) (adderOk : Bool) : State :=
  let part := (s.m.port port).rxPart
  if !start && part.isEmpty then s
  else
    let part := if start then bytes else part ++ bytes
    if 32 ≤ part.length && pktBytes part ≤ part.length then
      let p : Pkt := { head := BitVec.ofNat 256 (leNat (slice part 0 32)), payload := part.drop 32 }
      (s.on (fun b => b.onPort port (fun q => { q with rxPart := [] }))).arrive { port := port, pkt := p, adderOk := adderOk, since := s.m.span }
    else s.on (fun b => b.onPort port (fun q => { q with rxPart := part }))

/-- The slots of a DATA flit in order. -/
def State.takeSlots (s : State) (port : Nat) (f : Flit) (adderOk : Bool) : State :=
  (List.range 15).foldl (fun s i => s.takeSlot port (flag f.head i) (slice f.payload (16 * i) 16) adderOk) s

/-- DATA_FLIT (R326 to R328): checked by CRC and sequence, NAKed or accepted; the packets whose slots it completes arrive. A packet row stands for a packet whose flits no
command shows; of one that both bring, the second is a duplicate in its flow (log 106). At an end of a die-to-die link it brings packets of the package (R24, R343). -/
def execDataFlit (t port : Nat) (f : Flit) (adderOk : Bool) (s : State) : Host.Outcome State Fault Refusal :=
  let s := s.on (·.advanceTo t)
  .next (if s.m.carries port then s.flitRow port 1 f (fun s => s.sequenced port f (fun s => s.takeSlots port f adderOk)) else s)

/-- WRITE (R331, R512), and a packet of a reserved TYPE (R330). Bytes for a page that is not mapped, a reserved address or a tier window reach no frame: nobody reads them,
and R266 keeps the windows to the firmware, the bear and the self-test (DEDUCED, log 27); the packet takes its place in its flow all the same. -/
def execWrite (t port : Nat) (p : Pkt) (s : State) : Host.Outcome State Fault Refusal :=
  .next (packetRow t port p true (p.typ == 1 || typeClass p.typ == none) s)

/-- READ_REQ (R330, R331): handed to its consumer. -/
def execReadReq (t port : Nat) (p : Pkt) (s : State) : Host.Outcome State Fault Refusal := .next (packetRow t port p true (p.typ == 2) s)
/-- READ_RESP (R330, R331): handed to its consumer. -/
def execReadResp (t port : Nat) (p : Pkt) (s : State) : Host.Outcome State Fault Refusal := .next (packetRow t port p true (p.typ == 3) s)
/-- MILL_CONTRIB (R369) but an excess quarter. -/
def execMillContrib (t port : Nat) (p : Pkt) (adderOk : Bool) (s : State) : Host.Outcome State Fault Refusal :=
  .next (packetRow t port p adderOk (p.typ == 8 && !(2 ≤ (millPkt p).part && (millPkt p).part < 6)) s)
/-- EXCESS_QUARTER (R378, R379). -/
def execExcessQuarter (t port : Nat) (p : Pkt) (adderOk : Bool) (s : State) : Host.Outcome State Fault Refusal :=
  .next (packetRow t port p adderOk (p.typ == 8 && 2 ≤ (millPkt p).part && (millPkt p).part < 6) s)
/-- MILL_RESULT (R368, R381, R450, R523). -/
def execMillResult (t port : Nat) (p : Pkt) (s : State) : Host.Outcome State Fault Refusal :=
  .next (packetRow t port p true (p.typ == 9 && (millPkt p).part != 6) s)
/-- RAISED_EXPONENT (R378): passed down, and answered with this module's excess quarters. -/
def execRaisedExponent (t port : Nat) (p : Pkt) (s : State) : Host.Outcome State Fault Refusal :=
  .next (packetRow t port p true (p.typ == 9 && (millPkt p).part == 6) s)
/-- BROADCAST (R374): exponent entries that it brings let held exports leave, which the adders judge (R377, R537). -/
def execBroadcast (t port : Nat) (p : Pkt) (adderOk : Bool) (s : State) : Host.Outcome State Fault Refusal :=
  .next (s.judged adderOk (packetRow t port p true (p.typ == 0x0A) s))
/-- SUSPECT (R489 to R492). -/
def execSuspect (t port : Nat) (p : Pkt) (s : State) : Host.Outcome State Fault Refusal :=
  .next (packetRow t port p true (p.typ == 0x10 && (reportOf p).kind == 0) s)
/-- CONFIRM (R489, R490). -/
def execConfirm (t port : Nat) (p : Pkt) (s : State) : Host.Outcome State Fault Refusal :=
  .next (packetRow t port p true (p.typ == 0x10 && (reportOf p).kind == 1) s)
/-- CLEAR (R485, R489, R491). -/
def execClear (t port : Nat) (p : Pkt) (s : State) : Host.Outcome State Fault Refusal :=
  .next (packetRow t port p true (p.typ == 0x10 && (reportOf p).kind == 2) s)
/-- NEIGHBOURS (R488): each peer keeps the latest mask. -/
def execNeighbours (t port : Nat) (p : Pkt) (s : State) : Host.Outcome State Fault Refusal :=
  .next (packetRow t port p true (p.typ == 0x10 && (reportOf p).kind == 3) s)
/-- BELL (R495). -/
def execBell (t port : Nat) (p : Pkt) (s : State) : Host.Outcome State Fault Refusal := .next (packetRow t port p true (p.typ == 0x11) s)

/-! Acknowledgement (R332, R333) -/

/-- E2E_ACK (R333): an acknowledgement of a flow of this module up to a number. -/
def execE2eAck (t : Nat) (flow : FlowKey) (seq : BitVec 16) (s : State) : Host.Outcome State Fault Refusal :=
  .next ((s.on (·.advanceTo t)).acknowledge flow seq.toNat)

/-- The E2E_ACK packet of a receiving flow: to its source, URGENT, with the highest FLOW_SEQ delivered in order (R332). It takes no FLOW_SEQ itself, is not kept and not
acknowledged (DESIGN CHOICE: R333 names every packet, and an acknowledgement of acknowledgements would never end; log 8). -/
def Block.ackPkt (b : Block) (f : RxFlow) : Pkt :=
  let w := Config.ackWords f.key.urgent ((f.next + 65535) % 65536)
  (mkPkt f.key.srcModule f.key.srcDie b.moduleId f.key.dstDie true 4 0 w.1 b.job.id w.2 []).seal

/-- Is an acknowledgement of a flow due: 64 packets delivered, or 2 us since the first that is not acknowledged (R332)? -/
def RxFlow.ackDue (f : RxFlow) (now : Nat) : Bool :=
  64 ≤ f.sinceAck || (match f.firstUnacked with
    | some t0 => t0 + 2000 ≤ now
    | none => false)

/-- E2E_ACK_SEND (R332): after 64 packets delivered, or 2 us after the first unacknowledged one. -/
def execE2eAckSend (t : Nat) (flow : FlowKey) (s : State) : Host.Outcome State Fault Refusal :=
  .next (atTime t (fun b =>
    match b.fab.rx.find? (fun f => f.key == flow) with
    | none => b
    | some f => if f.ackDue b.span then (b.setRx { f with sinceAck := 0, firstUnacked := none }).forward (b.ackPkt f) f.key.dstDie else b) s)

/-- E2E_RETRANSMIT (R333): a packet 20 us unacknowledged is sent again as it left the first time, and after the fourth sending its destination is UNREACHABLE, class J, or the
image is abandoned with ABANDONED_DEST (R520). -/
def execE2eRetransmit (t : Nat) (flow : FlowKey) (seq : BitVec 16) (s : State) : Host.Outcome State Fault Refusal :=
  let s := s.on (·.advanceTo t)
  match s.m.fab.e2e.find? (fun e => e.flow == flow && e.seq == seq.toNat) with
  | none => .next s
  | some e =>
    if s.m.span < e.sentAt + 20000 then .next s
    else if e.sends < 4 then
      let again : E2e := { e with sentAt := s.m.span, sends := e.sends + 1 }
      .next (s.on (fun b =>
        (({ b with fab := { b.fab with e2e := b.fab.e2e.map (fun (x : E2e) => if x == e then again else x) } } : Block).bump .e2eRetx).depart e.pkt e.edge e.port))
    else
      let s := s.on (fun b =>
        ({ b with fab := { b.fab with e2e := b.fab.e2e.erase e, lost := b.fab.lost ++ [(e.flow, e.seq)] } } : Block).drainBacklog)
      let s := if s.m.imageWrite e.pkt then s.abandonImage 4 else s
      .next (s.raiseErr { cls := .j, code := 0x30, at_ := 0, named := some e.pkt.dstModule })

end Sys2Proof.Machine
end

