-- ==== Sys2Proof/Machine/Badger.lean ====
section
/-! DEFINITION. The badger, the handler of pair 2, the reset ladder, remaps and replay (R458 to R484). -/
namespace Sys2Proof.Machine

/-! The badger (R464 to R466) -/

/-- The issued operation that a unit of a croft works on, or is to take next: a tile, a lane run, an operation of the stile or of the movement queue, or a repeat that
waits for the unit. One that waits to be replayed has not issued again, and one that waits for a cellar channel, for the squirrel or for the page or the
readers of its writes, or for the exponent entry of its slices, makes no progress of the unit's own (R464, R465; log 104). -/
def State.working (s : State) (croft : Nat) (u : CroftUnit) : Option Nat :=
  let b := s.m
  let c := b.croft croft
  let now : Option Nat := match u with
    | .fa => c.fa.tile.map (·.index)
    | .ba => c.ba.tile.map (·.index)
    | .lane => c.lane.map (·.index)
    | u => (c.inFlight.find? (fun e => unitOf (opCode e.op) == some u && !c.redo.any (fun x => x.1 == e.index)
        && !(opCode e.op == 0x10 && 2 ≤ moveKind e.op) && !b.tiers.heldWrites.any (fun w => w.owner == some (croft, e.index)))).map (·.index)
  let next := (c.redo.find? (fun x => b.redoUnit croft x == u && !x.2.replay && !x.2.spanReplay)).map (·.1)
  (if now.isSome then now else next).filter (fun i => !s.waitsOnTier croft (b.op croft i))

/-- CROFT_WATCHDOG (R464, R465, R478): 20 us without a progress beat of an issued operation; class T, a croft-side fault. `counted` is since when the timer counts: the last beat
or the end of a time that does not count, where no command shows it (the end of an array pass, a tile moved, a wait for a tier read or for a
Tlayn or PCIe credit). -/
def execCroftWatchdog (t croft : Nat) (u : CroftUnit) (counted : Nat) (s : State) : Host.Outcome State Fault Refusal :=
  let s := s.on (·.advanceTo t)
  let c := s.m.croft croft
  match s.working croft u with
  | none => .next s
  | some i =>
    if c.stopped || s.m.now < Nat.max ((assocGet u c.beats).getD s.m.now) counted + 20000 then .next s
    else .next ((s.on (·.bump .badgerFires)).stopCroft croft i { cls := .t, code := 0x0A, at_ := 0, croftSide := true, cause := 12 })

/-- LOCAL_STALL_LIMIT (R464): 10 ms of stall on the larder, the cellar or the host tier is class D. -/
def execLocalStallLimit (t croft : Nat) (u : CroftUnit) (s : State) : Host.Outcome State Fault Refusal :=
  let s := s.on (·.advanceTo t)
  match (s.m.croft croft).stalls.find? (fun x => x.unit == u && x.tier != 3) with
  | none => .next s
  | some x =>
    if s.m.now < x.since + 10000000 then .next s
    else .next ((s.on (fun b => (b.bump .badgerFires).endStall croft u)).raiseErr { cls := .d, code := 0x0A, at_ := 0, croft := some croft, cause := 12 })

/-- The module that owns a broadcast range whose token holds the head of a unit's queue (R466). -/
def State.stallProducer (s : State) (croft : Nat) (u : CroftUnit) : Option Nat :=
  match s.m.headOf croft u with
  | none => none
  | some i =>
    let late := (opWaits (s.m.op croft i)).filter (fun t => !(s.m.croft croft).tokens.contains t && !s.m.tokens.shared.contains t)
    match s.m.bcasts.find? (fun e => late.contains e.token) with
    | some e => (s.m.group e.group).map (fun d => (s.rankEntry d e.owner).1)
    | none => none

/-- The waits on other modules, each with its producer and since when (R464, R466): stalls on the fabric, operands past a deadline, and exports held for their
exponent entry. -/
def State.remoteWaits (s : State) : List (Nat × Nat) :=
  let stalls := ((List.range s.m.crofts.length).map (fun n => ((s.m.croft n).stalls.filter (·.tier == 3)).filterMap (fun x =>
    (s.stallProducer n x.unit).map (fun p => (p, x.since))))).flatten
  let mills := s.m.mill.waits.filterMap (fun w => (s.m.group w.group).map (fun d => ((s.rankEntry d w.from_).1, w.since)))
  let holds := ((s.m.crofts.map (·.exports)).flatten.filter (·.counted)).filterMap (fun x =>
    (s.m.group x.group).map (fun d => ((s.rankEntry d (s.m.ownerOf x.group d x.slice)).1, x.heldAt)))
  stalls ++ mills ++ holds

/-- Since when a producer is waited for, at the earliest. -/
def State.waitSince (s : State) (producer : Nat) : Option Nat := ((s.remoteWaits.filter (·.1 == producer)).map (·.2)).min?

/-- May a wait whose suspicion a CLEAR closed raise another (R491)? 5 ms after the CLEAR it may; while the suspicion is open, or no CLEAR has come, it may not. -/
def Block.maySuspect (b : Block) (producer since : Nat) : Bool :=
  let cleared := assocGet producer b.faults.clears
  (match cleared with | some c => decide (c + 5000000 ≤ b.now) | none => true)
    && !(b.faults.watches.any (fun w => w.producer == producer && w.since == since) && ((b.suspicion producer).isSome || cleared.isNone || b.dev.bellPending))

/-- REMOTE_WATCH (R464, R491): a remote wait of 5 ms sends a SUSPECT with CAUSE LATE that names the producer, once, and again 5 ms after a CLEAR. -/
def execRemoteWatch (t producer : Nat) (s : State) : Host.Outcome State Fault Refusal :=
  let s := s.on (·.advanceTo t)
  match s.waitSince producer with
  | none => .next s
  | some since =>
    if s.m.now < since + 5000000 || !s.m.jobRuns || !s.m.maySuspect producer since then .next s
    else
      let bound := s.m.faults.watches.any (fun w => w.producer == producer && w.since == since && w.bound)
      let s := s.on (fun b => { b.bump .badgerFires with faults := { b.faults with watches :=
                                                                                   b.faults.watches.filter (fun w => w.producer != producer) ++ [{ producer := producer, since := since, bound := bound }] } })
      .next (s.raiseSuspect producer 2 0x1F 0)

/-- REMOTE_BOUND (R464): the same wait of 100 ms is class J. -/
def execRemoteBound (t producer : Nat) (s : State) : Host.Outcome State Fault Refusal :=
  let s := s.on (·.advanceTo t)
  match s.waitSince producer with
  | none => .next s
  | some since =>
    if s.m.now < since + 100000000 || !s.m.jobRuns || s.m.faults.watches.any (fun w => w.producer == producer && w.since == since && w.bound) then .next s
    else
      let s := s.on (fun b => { b.bump .badgerFires with faults := { b.faults with watches :=
                                                                                   b.faults.watches.filter (fun w => w.producer != producer) ++ [{ producer := producer, since := since, bound := true }] } })
      .next (s.raiseErr { cls := .j, code := 0x0A, at_ := 0, cause := 12 })

/-! Domains and the handler's queue (R461, R462, R467) -/

/-- Severity (R461). -/
def Class_.severity : Class_ → Nat
  | .c => 0 | .t => 1 | .d => 2 | .m => 3 | .j => 4

/-- Does a reset domain contain the croft or die an error names (R462, R467)? The module contains everything. -/
def Domain.holds (d : Domain) (e : ErrorRec) : Bool :=
  match d with
  | .croft n => e.croft == some n
  | .die k => e.die == some k || (match e.croft with | some c => dieOf c == k | none => false)
  | .compute => e.croft.isSome || e.die.isSome
  | .module => true

/-- The crofts of a domain. -/
def Domain.crofts : Domain → List Nat
  | .croft n => [n]
  | .die k => (List.range 12).map (12 * k + ·)
  | _ => List.range 192

/-- The reset an error requires (R477): none for a mismatch, a tier read or an excursion of class T. -/
def ErrorRec.domain (e : ErrorRec) : Option Domain :=
  match e.cls with
  | .t => if e.croftSide then e.croft.map Domain.croft else none
  | .d => some .compute
  | .m => some .module
  | _ => none

/-- How long a reset may take (R464, R467). -/
def Domain.timeout : Domain → Option Nat
  | .croft _ => some 20000
  | .die _ => some 80000
  | .compute => some 400000
  | .module => none

/-- A reset is counted (R498, R552); a module reset where boot begins (R456). -/
def Block.countReset (b : Block) : Domain → Block
  | .croft _ => (b.bump .croftResets).bump (.life 7 5)
  | .die _ => (b.bump .dieResets).bump (.life 7 6)
  | .compute => (b.bump .domainResets).bump (.life 7 7)
  | .module => b

/-- The standby record of compute-domain and module resets, of the last 24 hours (R484). -/
def Block.recordReset (b : Block) : Block :=
  { b with faults := { b.faults with record := b.faults.record.filter (fun x => b.clk.own ≤ x + 86400000000000) ++ [b.clk.own] } }

/-- The reason for OUT_OF_SERVICE that the record gives, the windows ending with the last reset recorded; 0 for none (R484). -/
def oosReasonOf (record : List Nat) : Nat :=
  let now := record.getLastD 0
  if 3 ≤ (record.filter (fun x => now ≤ x + 600000000000)).length then 1
  else if 8 ≤ (record.filter (fun x => now ≤ x + 86400000000000)).length then 2
  else 0

/-! Replay (R476, R477) -/

/-- An entry of the journal set to be replayed (R470, R476): its counts stand where its released attempt made them (R224), and what that attempt wrote is written. It starts from what its
first attempt started from, on the same anchors, whatever a reset has emptied: the replays of its forerunners leave the same bits, and the result does not depend on replay (R108, R109). -/
def JEntry.again (e : JEntry) (handed : Bool) : JEntry :=
  { e with state := .issued, attempts := Nat.min (e.attempts + 1) 3, counted := e.counted || e.state != .issued || handed,
           wrote := e.wrote || e.state != .issued }

/-- The attempt a replay begins with. -/
def JEntry.replayAttempt (e : JEntry) : Attempt := { e.attempt with replay := true }

/-- A croft's entries wait to be replayed in journal order: all of them where a reset has destroyed the outputs, else the uncommitted ones (R476, R477). The parts of
splits that they gave are given anew (R108). -/
def Block.planReplay (b : Block) (croft : Nat) (lost : Bool) : Block :=
  let c := b.croft croft
  let es := c.journal.filter (fun e => lost || e.state != .retained)
  let handed (i : Nat) : Bool := c.exports.any (fun x => x.index == i)
  let b := { b with mill := { b.mill with parts := b.mill.parts.filter (fun p => !(p.croft == croft && es.any (fun e => e.index == p.tile.index))) } }
  (b.dropHeld croft (fun i => es.any (fun e => e.index == i))).onCroft croft (fun c =>
    let c := c.dropStat
    { c with redo := es.map (fun e => (e.index, e.replayAttempt)), exports := c.exports.filter (fun x => !es.any (fun e => e.index == x.index)),
             journal := c.journal.map (fun e => if lost || e.state != .retained then e.again (handed e.index) else e) })

/-- One entry waits to be replayed. -/
def Block.planOne (b : Block) (croft i : Nat) : Block :=
  match (b.croft croft).entry i with
  | none => b
  | some e =>
    let b := { b with mill := { b.mill with parts := b.mill.parts.filter (fun p => !(p.croft == croft && p.tile.index == i)) } }
    (b.dropHeld croft (· == i)).onCroft croft (fun c =>
      let c := c.dropStat
      { c with redo := c.redo.filter (·.1 != i) ++ [(i, e.replayAttempt)],
               journal := c.journal.map (fun e => if e.index == i then e.again (c.exports.any (fun x => x.index == i)) else e) })

/-- A croft stops and its attempts in flight are discarded (R476 step 1); moves of it that wait or run are among them, and parts of splits not yet combined. -/
def Block.haltCroft (b : Block) (n faultAt : Nat) : Block :=
  let b := b.onCroft n (fun c =>
    { c with stopped := true, redo := [], fa := { c.fa with tile := none }, ba := { c.ba with tile := none }, lane := none, moves := [], moveHeld := none, stalls := [], forcing := false,
             beats := [], interruptedAt := some (c.interruptedAt.getD faultAt) })
  { b with tiers := { b.tiers with offload := b.tiers.offload.filter (·.croft != n), prefetch := b.tiers.prefetch.filter (·.croft != n),
                                   reads := b.tiers.reads.filter (·.croft != n) },
           mill := { b.mill with parts := b.mill.parts.filter (fun p => p.croft != n || p.released) } }

/-- A croft slot is reset (R467): arrays, stationary registers and croft store are empty. What the stile held is noted in the journal until it is planned. -/
def State.wipeCroft (s : State) (n : Nat) : State :=
  (s.on (fun b => b.onCroft n (fun c => { c with fa := {}, ba := {}, lane := none }))).loseStore n

/-! The handler (R461 to R463, R478) -/

/-- The step of R478 that a croft-side fault reaches: class T, D or J, and whether the croft is suspect. A self-test slot (cause 2) makes it suspect at once (R535), and is a croft-side fault
too, being a CHECKSUM_MISMATCH. -/
def State.grade (s : State) (e : ErrorRec) : State × ErrorRec :=
  match e.croftSide, e.croft with
  | true, some n =>
    let c := s.m.croft n
    let now := s.m.span
    let near := match c.lastFault with
      | some l => Nat.ble now (l + 10000000000)
      | none => false
    let put (f : Croft → Croft) : State := s.on (fun b => b.onCroft n (fun c => f { c with lastFault := some now, faultEntry := e.entry }))
    if e.cause == 2 then (put (fun c => { c with suspect := true, suspectCode := e.code }), e)
    else if near && e.entry.isSome && c.domainEntry == e.entry then (put id, { e with cls := .j })
    else if e.cls != .t then (put id, e)
    else if !near then (put (fun c => { c with faultStep := 1, domainEntry := none }), e)
    else
      let replayed := match e.entry.bind c.entry with
        | some j => 0 < j.attempts
        | none => false
      if c.faultStep == 2 && replayed then (put (fun c => { c with faultStep := 1 }), { e with cls := .d })
      else (put (fun c => { c with suspect := true, suspectCode := e.code }), e)
  | _, _ => (s, e)

/-- The die-to-die links that a reset of a domain reaches (R467): those of its compute dies. -/
def Domain.links : Domain → List Nat
  | .croft _ => []
  | .die d => (List.range 32).filter (fun k => (linkDies k).1 == d || (linkDies k).2 == d)
  | _ => List.range 32

/-- The links of a domain while it resets, and retrained when the reset is complete (R467). -/
def Block.setLinks (b : Block) (d : Domain) (state : Nat) : Block :=
  d.links.foldl (fun b k => (b.onPort (32 + 2 * k) (fun _ => { linkState := state })).onPort (33 + 2 * k) (fun _ => { linkState := state })) b

/-- Does a domain hold the die mill of a die (R467)? -/
def Domain.hasMill : Domain → Nat → Bool
  | .croft _, _ => false
  | .die d, k => d == k
  | _, _ => true

/-- A reset begins (R467, R476): queued errors that it contains are handled by it (R462, R499), its crofts stop and are wiped. A module reset raises the bell where a
job runs and asserts the fault line (R494, R541). -/
def State.beginReset (s : State) (d : Domain) (e : ErrorRec) : State :=
  let s := s.on (fun b =>
    let b := b.countReset d
    let b := { b with faults := { b.faults with reset := some { domain := d, since := b.span, error := e }, handling := some e,
                                                queue := b.faults.queue.filter (fun q => !(d.holds q && q.cls.severity ≤ e.cls.severity)) } }
    let b := match d with
      | .compute => b.recordReset
      | _ => b
    let b := { b with mill := { b.mill with inner := b.mill.inner.map (fun (x : Inner) => if d.hasMill x.die then { x with wiped := true } else x) } }
    let b := if d == .compute then { b with crofts := b.crofts.map (fun (c : Croft) => { c with domainEntry := c.faultEntry, faultStep := Nat.min c.faultStep 1 }) } else b
    (d.crofts.foldl (fun b n => b.haltCroft n e.at_) b).setLinks d 1)
  let s := d.crofts.foldl (fun s n => s.wipeCroft n) s
  if d == .module then
    let s := s.on (fun b => { b with safety := { b.safety with faultLine := true } })
    if s.m.jobRuns then s.raiseBell s.m.moduleId (s.m.lastEpoch s.m.moduleId + 1) e.code false 0 e.suspectAt else s
  else s

/-- Does an excursion of the clock or the rail of a compute die last (R538)? -/
def Block.excursionOf (b : Block) (d : Nat) : Bool := b.safety.excursions.any (fun x => x.1 == .computeDie d false || x.1 == .computeDie d true)

/-- A class T error that needs no reset (R477): the stopped operation is replayed, behind its writer where the rule asks; after an excursion, every uncommitted
entry of the die, whose tokens come from the replay only (R538). -/
def State.replayOnly (s : State) (e : ErrorRec) : State :=
  match e.croft, e.die with
  | some n, _ =>
    s.on (fun b =>
      let b := match e.writer with
        | some (wc, wi) => if some (wc, wi) == e.entry.map (fun i => (n, i)) then b else b.planOne wc wi
        | none => b
      let b := match e.entry with
        | some i => b.planOne n i
        | none => b
      b.onCroft n (fun c => { c with stopped := false, interruptedAt := some (c.interruptedAt.getD e.at_) }))
  | none, some d =>
    State.cross (s.on (fun b =>
      let b := { b.onDie d (fun x => if b.excursionOf d then x else { x with hold := none }) with tokens := { b.tokens with held := b.tokens.held.filter (fun x => dieOf x.1 != d), spanHeld := b.tokens.spanHeld.filter (fun x => dieOf x.1 != d) } }
      (Domain.die d).crofts.foldl (fun b n => ((b.haltCroft n e.at_).planReplay n false).onCroft n (fun c => { c with stopped := false })) b))
  | none, none => s

/-- An error is taken for handling (R461). -/
def State.startHandling (s : State) (e : ErrorRec) : State :=
  match e.domain with
  | some d => s.beginReset d e
  | none => s.replayOnly e

/-- An error queued behind earlier ones of its class and above lower ones (R462). -/
def enqueue (e : ErrorRec) : List ErrorRec → List ErrorRec
  | [] => [e]
  | q :: rest => if q.cls.severity < e.cls.severity then e :: q :: rest else q :: enqueue e rest

/-- An error is counted, recorded and, in class D or M, posted (R446, R498, R548). -/
def State.countError (s : State) (e : ErrorRec) : State :=
  let s := s.on (·.countErr e.cls)
  let s := (if e.cls == .m then s.detect e else s).traceErr e
  if e.cls == .d || e.cls == .m then s.event e.code e.cls.code (s.m.job.step % 2 ^ 32) else s

/-- Rule 1 of R462: a reset in progress, or one that a queued error is about to bring, contains the error. -/
def Block.merges (b : Block) (e : ErrorRec) : Bool :=
  (match b.faults.reset with
    | some r => r.domain.holds e && Nat.ble e.cls.severity r.error.cls.severity
    | none => false)
    || b.faults.queue.any (fun q => Nat.ble e.cls.severity q.cls.severity && (match q.domain with
      | some d => d.holds e
      | none => false))

/-- Rules 1 to 3 of R462 and what rule 4 comes to; none where the queue is full. -/
def State.place (s : State) (e : ErrorRec) : Option State :=
  let f := s.m.faults
  if s.m.merges e then some s
  else match f.handling with
    | none => some (s.startHandling e)
    | some h =>
      if h.cls.severity < e.cls.severity then
        let inside := match e.domain, h.domain with
          | some .module, _ => true
          | some .compute, some .module => false
          | some .compute, _ => true
          | _, _ => false
        let s := if inside then s else s.on (fun b => { b with faults := { b.faults with queue := h :: b.faults.queue } })
        some (s.startHandling e)
      else if f.queue.length < 16 then some (s.on (fun b => { b with faults := { b.faults with queue := enqueue e b.faults.queue } }))
      else none

/-- One class higher (R459, R462). -/
def Class_.higher : Class_ → Class_
  | .c => .t | .t => .d | .d => .m | .m => .m | .j => .j

/-- The stopped operation is to be replayed behind the one that wrote its operand, whatever handles the error (R151, R306). -/
def Block.noteWriter (b : Block) (e : ErrorRec) : Block :=
  match e.croft, e.entry, e.writer with
  | some n, some i, some w => if w == (n, i) then b else b.onCroft n (fun c => { c with replayAfter := some (i, w) })
  | _, _, _ => b

/-- An arriving error of class T, D or M (R462). One that a reset contains is counted and handled by it (R499); R478 grades another where it is croft-side. An overflow raises it a class and
counts. -/
def State.letIn (s : State) (e : ErrorRec) : State :=
  let s := s.on (fun b => (b.noteWriter e).detection e)
  let (s, e) := if s.m.merges e then (s, e) else s.grade e
  if e.cls == .j then s.raiseErr { e with cause := 0 }
  else
    let s := s.countError e
    match s.place e with
    | some s => s
    | none =>
      let e := { e with cls := e.cls.higher }
      let s := (s.on (fun b => (b.bump .queueOverflows).bump (.life 0xA 1))).countError e
      if (match s.m.faults.handling with | some h => Nat.blt h.cls.severity e.cls.severity | none => true) then s.startHandling e else s

/-- The next queued errors are taken while nothing is being handled (R461). -/
def State.takeQueued (s : State) : Nat → State
  | 0 => s
  | k + 1 =>
    match s.m.faults.handling, s.m.faults.queue with
    | none, e :: rest => State.takeQueued ((s.on (fun b => { b with faults := { b.faults with queue := rest } })).startHandling e) k
    | _, _ => s

/-- Class C errors drain from the log FIFO into the counters, the trace and the lifetime log (R460); those that found it full are traced (R548). -/
def State.drainLog (s : State) : State :=
  let es := s.m.faults.logFifo
  let lost := s.m.faults.untraced
  let s := es.foldl (fun s e => (s.on (fun b => (b.countErr .c).detection e)).traceErr e) (s.on (fun b => { b with faults := { b.faults with logFifo := [], untraced := [] } }))
  lost.foldl (fun s e => s.traceErr e) s

/-- The domain after one in the ladder, and its class (R468). -/
def Domain.next : Domain → Domain × Class_
  | .croft n => (.die (dieOf n), .t)
  | .die _ => (.compute, .d)
  | .compute => (.module, .m)
  | .module => (.module, .m)

/-- A handling that fails escalates to the next reset step of the ladder, with its class (R459, R463, R468): under TIMEOUT where its reset has run past its time, under the
code of the error handled where pair 2 fails in its own code. -/
def State.escalate (s : State) (r : Reset) (late : Bool) : State :=
  let (d, k) := r.domain.next
  let e : ErrorRec := { r.error with cls := k, code := if late then 0x0A else r.error.code, cause := if late then 12 else r.error.cause }
  ((s.on (fun b => ((b.bump .handlerFaults).bump (.life 0xA 2)).detection (if late then e else {e with cause := 0}))).countError e).beginReset d e

/-- Pair 2 has failed in its own code while it handled an error (R463): a reset in progress escalates; a handling that needed none goes to the first step of the ladder, the reset of the
croft or the die. -/
def State.handlerFails (s : State) (handled : Option ErrorRec) : State :=
  match s.m.faults.reset with
  | some r => if r.domain == .module then s else s.escalate r false
  | none =>
    match handled with
    | none => s
    | some e =>
      let d := match e.croft, e.die with
        | some n, _ => Domain.croft n
        | none, some k => Domain.die k
        | none, none => Domain.compute
      let e := if d == .compute then { e with cls := .d } else e
      ((s.on (fun b => (b.bump .handlerFaults).bump (.life 0xA 2))).countError e).beginReset d e

/-- HANDLER_TAKE (R460 to R463): pair 2 drains the log FIFO, and takes each error that arrived. `failed`: it takes a class C or T error inside its own code meanwhile, and its handling
fails. -/
def execHandlerTake (t : Nat) (failed : Bool) (s : State) : Host.Outcome State Fault Refusal :=
  let s := (s.on (·.advanceTo t)).drainLog
  let es := s.m.faults.arrived
  let s := es.foldl (fun s e => s.letIn e) (s.on (fun b => { b with faults := { b.faults with arrived := [] } }))
  let last := (s.m.faults.queue.head?).orElse (fun _ => es.getLast?)
  let s := s.takeQueued 17
  .next (if failed then s.handlerFails last else s)

/-- RESET_TIMEOUT (R459, R463, R468): a reset not complete in time is replaced by the next domain's, with its class; both counters count it (log 34). -/
def execResetTimeout (t : Nat) (s : State) : Host.Outcome State Fault Refusal :=
  let s := s.on (·.advanceTo t)
  match s.m.faults.reset with
  | none => .next s
  | some r =>
    match r.domain.timeout with
    | none => .next s
    | some n =>
      if s.m.span < r.since + n then .next s
      else .next ((s.on (fun b => (b.bump .resetTimeouts).bump (.life 0xA 0))).escalate r true)

/-! Remaps (R186, R480 to R482) -/

/-- The slot of a die that serves no logical croft (R186). -/
def spareSlot (remap : BitVec 64) : Nat := ((List.range 13).find? (fun x => (List.range 12).all (fun k => fld remap (4 * k + 3) (4 * k) != x))).getD 12

/-- A logical croft is remapped to its die's spare, whose last passing slot is now its own (R480, R542, R552). -/
def Block.remapCroft (b : Block) (n : Nat) : Block :=
  let d := dieOf n
  let k := n % 12
  ((b.onDie d (fun x =>
    let r := x.remap
    { x with passes := 0, failedOut := false,
             remap := setFld (setFld (setFld r 55 52 (fld r (4 * k + 3) (4 * k))) 51 50 1) (4 * k + 3) (4 * k) (spareSlot r) })).onCroft n
    (fun c => { c with suspect := false, faultStep := 2, lastPass := (b.die d).sparePass })).bump .remaps |>.bump (.life 9 (16 + d))

/-- Is the spare of a die free (R186). -/
def Block.spareFree (b : Block) (d : Nat) : Bool := fld (b.die d).remap 51 50 == 0

/-- The module will not serve after Ta, or does not at once where no job runs (R482, R484). -/
def State.leaveService (s : State) (reason : Nat) : State :=
  if s.m.jobRuns then s.on (fun b => { b with faults := { b.faults with oosPending := reason } }) else s.enterOos reason

/-- The resets recorded take the module out of service (R484): class J where a job runs. -/
def State.resetsTooMany (s : State) (reason code : Nat) : State :=
  if s.m.jobRuns then (s.leaveService reason).raiseErr { cls := .j, code := code, at_ := 0 } else s.leaveService reason

/-- A suspect croft without a free spare has run its diagnostic (R459, R482): it stays in service, or the module leaves service, class J. -/
def State.diagnosed (s : State) (n : Nat) (ok : Bool) : State :=
  let code := (s.m.croft n).suspectCode
  let s := s.on (fun b => b.onCroft n (fun c => { c with suspect := false }))
  if ok then s else (s.raiseErr { cls := .j, code := code, at_ := 0, croft := some n, cause := 2 }).leaveService 3

/-- A suspect croft is remapped, or runs the diagnostic at once (R480, R482). -/
def State.settleSuspect (s : State) (n : Nat) (diagnosticOk : Bool) : State :=
  if !(s.m.croft n).suspect then s
  else if s.m.spareFree (dieOf n) then s.on (fun b => b.remapCroft n)
  else s.diagnosed n diagnosticOk

/-- The commits of a die that no excursion holds any more resume after its reset; the tokens held back come from the replay only (R538). -/
def Block.releaseHolds (b : Block) (crofts : List Nat) : Block :=
  let ds := (List.range b.dies.length).filter (fun d => crofts.any (fun n => dieOf n == d) && (b.die d).hold.isSome && !b.excursionOf d)
  { ds.foldl (fun b d => b.onDie d (fun x => { x with hold := none })) b with
    tokens := { b.tokens with held := b.tokens.held.filter (fun x => !ds.contains (dieOf x.1)), spanHeld := b.tokens.spanHeld.filter (fun x => !ds.contains (dieOf x.1)) } }

/-- RESET_COMPLETE (R476, R484): the module does not resume where the record says so; else suspects are remapped, and the entries wait to be replayed. `failing`: the crofts that would fail
the diagnostic of R482. -/
def execResetComplete (t : Nat) (failing : List Nat) (s : State) : Host.Outcome State Fault Refusal :=
  let s := s.on (·.advanceTo t)
  match s.m.faults.reset with
  | none => .next s
  | some r =>
    if r.domain == .module then .next s
    else
      let s := (s.on (fun b => ({ b with faults := { b.faults with reset := none, handling := none } } : Block).setLinks r.domain 2)).cross
      let oos := if r.domain == .compute then oosReasonOf s.m.faults.record else 0
      if oos != 0 then .next (s.resetsTooMany oos r.error.code).abortSettle
      else
        let s := r.domain.crofts.foldl (fun s n => s.settleSuspect n (!failing.contains n)) s
        let s := match r.domain with
          | .croft _ => s
          | d => s.on (·.releaseHolds d.crofts)
        let s := s.on (fun b => r.domain.crofts.foldl (fun b n => (b.planReplay n true).onCroft n (fun c => { c with stopped := false })) b)
        .next s.cross.abortSettle

/-- REPLAY (R476, R498): the next entry of a croft is replayed, and counted. -/
def execReplay (t : Nat) (on_ : OnCroft) (s : State) : Host.Outcome State Fault Refusal :=
  let croft := on_.croft
  let s := s.on (·.advanceTo t)
  match s.m.nextRedo croft (fun a => a.replay && !a.repeated && !a.cascade) with
  | some (i, a) => .next ((s.on (fun b => (b.takeRedo croft (i, a)).bump .replayedEntries)).reissue croft i a on_.acc)
  | none => .next s

/-- CROFT_FAULT_WINDOW (R478): after 10 s without a croft-side fault the step is back at the first row. -/
def execCroftFaultWindow (t croft : Nat) (s : State) : Host.Outcome State Fault Refusal :=
  .next (atTime t (fun b =>
    match (b.croft croft).lastFault with
    | some l => if l + 10000000000 ≤ b.span then b.onCroft croft (fun c => { c with faultStep := 0, lastFault := none, faultEntry := none, domainEntry := none }) else b
    | none => b) s)

end Sys2Proof.Machine
end

