-- ==== Sys2Proof/Machine/Observe.lean ====
section
/-! DEFINITION. Self-test slots, monitors and the bell line (R481, R534 to R540), telemetry and counter blocks (R304, R308, R336, R391, R418, R498, R546 to
R550), the lifetime log (R552, R553), and boundary scan (R545). -/
namespace Sys2Proof.Machine

/-! Self-test slots (R354, R481, R534, R535) -/

/-- Is the croft being reset or replayed, so that its slot waits until issue resumes (R534, R554)? -/
def Croft.deferring (c : Croft) : Bool := c.stopped || c.redo.any (fun x => x.2.replay)

/-- Is it the time of the slot of an active croft, or of a die's spare (R354)? A deferred slot runs once issue has resumed (R534). -/
def Block.slotTime (b : Block) (slot : Nat) : Bool :=
  if slot < 192 then b.now % 1000000 == 5000 * slot || ((b.croft slot).slotOwed && !(b.croft slot).deferring) else b.now % 1000000 == 960000 + 2500 * (slot - 192)

/-- The slot of an active croft, 5 us long (R534, R535): its timers do not run during it. A failure is class J where the unit has released output since its last passing
slot, T_SUSPECT being that slot's end, else class T. Under class J the croft is remapped before the module next leaves LOADED; with no spare free it runs the diagnostic at once (R482). -/
def State.activeSlot (s : State) (n : Nat) (passed released diagnosticOk : Bool) : State :=
  if (s.m.croft n).deferring then s.on (fun b => (b.bump .slotsDeferred).onCroft n (fun c => { c with slotOwed := true }))
  else
    let since := s.m.instant (s.m.croft n).lastPass
    let s := s.on (fun b => (b.bump .slotsRun).onCroft n (fun c => { c with slotOwed := false, beats := c.beats.map (fun ((u, x) : CroftUnit × Nat) => (u, x + 5000)) }))
    if passed then
      s.on (fun b => b.onCroft n (fun c => { c with lastPass := b.span + 5000 }))
    else
      let s := s.on (·.bump .slotsFailed)
      if released then
        let s := (s.on (fun b => b.onCroft n (fun c => { c with suspect := true, suspectCode := 0x21, stopped := true }))).raiseErr
          { cls := .j, code := 0x21, at_ := 0, croft := some n, croftSide := true, cause := 2, suspectAt := since }
        if s.m.spareFree (dieOf n) then s else s.diagnosed n diagnosticOk
      else (s.on (fun b => b.onCroft n (fun c => { c with stopped := true }))).raiseErr { cls := .t, code := 0x21, at_ := 0, croft := some n, croftSide := true, cause := 2 }

/-- The slot of a die's spare (R481): a free spare that fails is out; while the spare is in use the failed slot runs its diagnostic, and 1,000 passes in a row make it the
spare. -/
def State.spareSlotTest (s : State) (d : Nat) (passed : Bool) : State :=
  let x := s.m.die d
  match fld x.remap 51 50 with
  | 0 =>
    let s := s.on (·.bump .slotsRun)
    if passed then s.on (fun b => b.onDie d (fun x => { x with sparePass := b.span + 2500 }))
    else
      let s := s.on (fun b => ((b.bump .slotsFailed).bump (.life 9 (32 + d))).onDie d (fun x => { x with remap := setFld x.remap 51 50 2 }))
      s.raiseErr { cls := .c, code := 0x21, at_ := 0, die := some d, cause := 2 }
  | 1 =>
    if x.failedOut then s
    else
      let s := s.on (·.bump .slotsRun)
      if !passed then s.on (fun b => (b.bump .slotsFailed).onDie d (fun x => { x with failedOut := true, passes := 0 }))
      else if x.passes + 1 < 1000 then s.on (fun b => b.onDie d (fun x => { x with passes := x.passes + 1, sparePass := b.span + 2500 }))
      else s.on (fun b => b.onDie d (fun x => { x with passes := 0, sparePass := b.span + 2500, remap := setFld (setFld x.remap 55 52 0xF) 51 50 0 }))
  | _ => s

/-- SELF_TEST_SLOT (R354, R534, R535): `slot` is a logical croft, 192 + d for the spare of die d, each at its slot's time, or 208 for SP0's engine while it serves no port
(R341, which gives no time for it). -/
def execSelfTestSlot (t slot : Nat) (passed released diagnosticOk : Bool) (s : State) : Host.Outcome State Fault Refusal :=
  let s := s.on (·.advanceTo t)
  if s.m.power.main != .on then .next s
  else if slot == 208 then .next (if passed || (s.m.port 17).standsFor != 0x1F then s else s.sp0Fails)
  else if !s.m.slotTime slot then .next s
  else if slot < 192 then .next (s.activeSlot slot passed released diagnosticOk)
  else if slot < 208 then .next (s.spareSlotTest (slot - 192) passed)
  else .next s

/-! The other mechanisms (R536, R538, R540) -/

/-- BELL_LINE_TEST (R540): a missing receipt, or the fault line at the wrong level, is class M. -/
def execBellLineTest (t : Nat) (passed : Bool) (s : State) : Host.Outcome State Fault Refusal :=
  let s := s.on (·.advanceTo t)
  if passed then .next s
  else .next ((s.on (·.bump .bellTestsFailed)).raiseErr { cls := .m, code := 0x0A, at_ := 0, cause := 11 })

/-- LOCKSTEP_MISMATCH (R34, R536): of a control pair 0 to 3, or (4) of the safety monitor's channels. Pair 3 is class C, and the management plane restarts. -/
def execLockstepMismatch (t pair : Nat) (s : State) : Host.Outcome State Fault Refusal :=
  let s := (s.on (·.advanceTo t)).on (·.bump .lockstepMismatches)
  if pair == 3 then .next ((s.on (fun b => { b with boot := { b.boot with planeUp := false } })).raiseErr { cls := .c, code := 0x21, at_ := 0, cause := 3 })
  else .next (s.raiseErr { cls := .m, code := 0x21, at_ := 0, cause := 3 })

/-- The number of a rail in the lifetime log: that of compute die d, then the others; none of a clock domain, which section 0x03 does not list (R552). -/
def monRail : MonSource → Option Nat
  | .computeDie d rail => if rail then some d else none
  | .other n => if n < 24 then none else some (n - 8)

/-- The row of R532 that watches it: the clock monitors or the voltage monitors. -/
def monCause (src : MonSource) : Nat := if (monRail src).isSome then 10 else 9

/-- The lifetime log counts an excursion of a rail (k = 0) or a trip (k = 1) (R552). -/
def Block.countRail (b : Block) (src : MonSource) (k : Nat) : Block :=
  match monRail src with
  | some r => b.bump (.life 3 (100 + 2 * r + k))
  | none => b

/-- MONITOR_EXCURSION (R538): the source leaves its window; a compute die's commits are held. -/
def execMonitorExcursion (t : Nat) (src : MonSource) (s : State) : Host.Outcome State Fault Refusal :=
  .next (atTime t (fun b =>
    if b.safety.excursions.any (·.1 == src) then b
    else
      let b : Block := { b with safety := { b.safety with excursions := b.safety.excursions ++ [(src, b.span)] } }
      match src with
      | .computeDie d _ => b.onDie d (fun x => { x with hold := some b.span })
      | .other _ => b) s)

/-- An excursion ends. -/
def Block.endExcursion (b : Block) (src : MonSource) : Block := { b with safety := { b.safety with excursions := b.safety.excursions.filter (·.1 != src) } }

/-- MONITOR_RETURN (R538): back within 10 us; class T for a compute die, whose uncommitted entries are replayed before commits resume, else class C. -/
def execMonitorReturn (t : Nat) (src : MonSource) (s : State) : Host.Outcome State Fault Refusal :=
  let s := s.on (·.advanceTo t)
  match s.m.safety.excursions.find? (·.1 == src) with
  | none => .next s
  | some (_, since) =>
    if since + 10000 ≤ s.m.span then .next s
    else
      let s := s.on (fun b => ((b.endExcursion src).bump .monitorExcursions).countRail src 0)
      match src with
      | .computeDie d _ => .next (s.raiseErr { cls := .t, code := 0x0A, at_ := 0, die := some d, cause := monCause src })
      | .other _ => .next (s.raiseErr { cls := .c, code := 0x0A, at_ := 0, cause := monCause src })

/-- MONITOR_TRIP (R538, R542): out for 10 us; class D for a compute die, else class M, with T_SUSPECT the instant it left. -/
def execMonitorTrip (t : Nat) (src : MonSource) (s : State) : Host.Outcome State Fault Refusal :=
  let s := s.on (·.advanceTo t)
  match s.m.safety.excursions.find? (·.1 == src) with
  | none => .next s
  | some (_, since) =>
    if s.m.span < since + 10000 then .next s
    else
      let s := s.on (fun b => ((b.endExcursion src).bump .monitorTrips).countRail src 1)
      match src with
      | .computeDie d _ => .next (s.raiseErr { cls := .d, code := 0x0A, at_ := 0, die := some d, cause := monCause src })
      | .other _ => .next (s.raiseErr { cls := .m, code := 0x0A, at_ := 0, cause := monCause src, suspectAt := s.m.instant since })

/-! Counter blocks (R549) -/

/-- The bytes of counters, the one in the lowest bits first. -/
def Block.counterBytes (b : Block) (cs : List Counter) : List Byte := (cs.map (fun c => leBytes 8 (b.count c))).flatten

/-- The fault counter block (R498). -/
def faultCounters : List Counter :=
  [.errorsC, .errorsT, .errorsD, .errorsM, .errorsJ, .croftResets, .dieResets, .domainResets, .resetTimeouts, .queueOverflows, .handlerFaults, .logLost,
   .badgerFires, .replayedEntries, .replayNsMax, .remaps, .commitHolds, .suspectsSent, .suspectsFwd, .suspectsCoalesced, .staleReports, .bellsRaised,
   .bellDups, .lateBells]

/-- The stall counter block and the tier event register (R304, R308). -/
def stallCounters : List Counter :=
  ((List.range 24).map (fun k => [Counter.stallNs (k / 6) (k % 6), Counter.stallEvents (k / 6) (k % 6)])).flatten ++ [.retries, .ioFailed, .migrateSkipped, .framesRetired]

/-- The mill counter block (R391). -/
def millCounters : List Counter :=
  [.contribsSent, .clips, .clipLost, .rereductions, .waits, .waitNs, .substitutions, .twinCompares, .exportDups, .expHolds]

/-- The cache counter block (R418). -/
def cacheCounters : List Counter := [.pagesAlloc, .pagesFreed, .flushes, .drops, .droppedPages, .limitStalls, .fullStalls, .nonfinBlocks]

/-- The safety counter block (R550). -/
def Block.safetyBytes (b : Block) : List Byte :=
  leBytes 8 0 ++ leBytes 8 b.safety.cause ++ leBytes 16 0 ++ leBytes 8 b.safety.lastSuspect ++ leBytes 8 b.safety.lastDetect
    ++ b.counterBytes [.safetyAbandons, .scrubPasses, .bellTestsFailed, .monitorTrips, .monitorExcursions, .millDupMismatches, .lockstepMismatches,
      .slotsDeferred, .slotsFailed, .slotsRun]

/-- The counter block of a port (R336). -/
def portCounters (n : Nat) : List Counter := [.flitsTx n, .flitsRx n, .crcErr n, .replays n, .fecCorr n, .fecUncorr n, .laneSubsts n, .linkFails n]

/-- A counter block by its number (R549); none for a number that names no block. -/
def Block.counterBlock (b : Block) : Nat → Option (List Byte)
  | 0 => some (b.counterBytes faultCounters)
  | 1 => some (b.counterBytes stallCounters)
  | 2 => some (b.counterBytes millCounters)
  | 3 => some (b.counterBytes cacheCounters)
  | 4 => some b.safetyBytes
  | 5 => some (b.counterBytes [.routeDiscard, .pktReject, .pktCrcErr, .e2eDup, .e2eRetx, .e2eOverflow])
  | n => if n < 24 then some (b.counterBytes (portCounters (n - 6))) else none

/-! Telemetry (R549, R552) -/

/-- Bin of a temperature in 0.1 degrees (R552). -/
def tempBin (x : Int) : Nat := if x < 200 then 0 else if x < 1200 then 1 + ((x - 200) / 50).toNat else 21
/-- Bin of an input voltage in 10 mV (R552). -/
def voltBin (v : Nat) : Nat := if v < 4000 then 0 else if v < 6000 then 1 + (v - 4000) / 100 else if v < 7200 then 21 + (v - 6000) / 200 else 27
/-- Bin of an input power in W (R552). -/
def powerBin (w : Nat) : Nat := Nat.min (w / 100) 30

/-- The histograms of one sample (R552). -/
def Block.sampleLife (b : Block) (inputW : Nat) : Block :=
  let b := ((List.range b.power.thermals.length).zip b.power.thermals).foldl (fun (b : Block) ((k, x) : Nat × Int) => b.bump (.life 2 (22 * k + tempBin x))) b
  (b.bump (.life 3 (voltBin (fld b.desc.power 111 96)))).bump (.life 4 (powerBin inputW))

/-- TELEMETRY_SAMPLE (R354, R549, R552): at every ms of the own clock the histograms, and at every SAMPLE_DIV-th ms of fabric time (outside a job of the own clock) a COUNTERS
record for each block of BLOCK_MASK. -/
def execTelemetrySample (t inputW : Nat) (s : State) : Host.Outcome State Fault Refusal :=
  let s := s.on (·.advanceTo t)
  if s.m.power.main != .on then .next s
  else
    let s := if s.m.clk.own % 1000000 == 0 then s.on (·.sampleLife inputW) else s
    let d := s.m.desc.trace
    if s.m.now % (1000000 * Nat.max (fld d 351 336) 1) != 0 then .next s
    else .next ((List.range 24).foldl (fun s n =>
      if fld d 383 352 / 2 ^ n % 2 == 1 then
        match s.m.counterBlock n with
        | some bs => s.trace 1 n bs
        | none => s
      else s) s)

/-! The lifetime log (R552, R553; what the manual's layout leaves open, log 33) -/

/-- The counters of a section, by item. -/
def LifeCopy.items (l : LifeCopy) (sec n : Nat) : List Byte := ((List.range n).map (fun i => leBytes 8 ((assocGet (Counter.life sec i) l.counts).getD 0))).flatten

/-- The contents of a section of a committed copy (R552). -/
def LifeCopy.section_ (l : LifeCopy) (record : BitVec 2048) (stepping : Nat) : Nat → List Byte
  | 0x1 => leBytes 8 (fld record 1423 1360) ++ leBytes 4 stepping ++ leBytes 4 ((assocGet (Counter.life 1 2) l.counts).getD 0) ++ leBytes 8 (l.firstBoot.getD 0)
    ++ leBytes 8 (l.onNs / 3600000000000) ++ l.items 1 1
  | 0x2 => l.items 2 202
  | 0x3 => l.items 3 176
  | 0x4 => l.items 4 31
  | 0x5 => l.items 5 120
  | 0x6 => (l.retired.map (leBytes 8)).flatten
  | 0x7 => l.items 7 16
  | 0x8 => l.items 8 624
  | 0x9 => l.items 9 82
  | 0xA => l.items 0xA 15
  | 0xB => (l.bells.map (fun e => leBytes 8 e.ta ++ leBytes 8 e.origin ++ leBytes 8 e.epoch ++ leBytes 8 e.error ++ leBytes 8 e.jobId ++ leBytes 8 e.suspectAt)).flatten
  | _ => l.items 0xC 2

/-- The seeds SK.seed, SK.prf and PK.seed of the device identity key (R561), and its public key. -/
def identitySeeds (k : BitVec 256) : List Byte := Config.shake256 96 (leBytes 32 k.toNat ++ leBytes 4 0x49443031)
def identityPublic (k : BitVec 256) : List Byte := slice (Config.slhPublic (identitySeeds k)) 0 64

/-- The signature of the device identity key over a message (R561, R562); without a key there is none. -/
def Block.signature (b : Block) (message : List Byte) : List Byte :=
  slice (match b.boot.identity with
    | some k => Config.slhSign (identitySeeds k) message
    | none => []) 0 49856

/-- An export of a copy of the log (R553): header, sections each closed by a CRC-32C, and the signature block. -/
def Block.exportOf (b : Block) (l : LifeCopy) : List Byte :=
  let secs := ((List.range 12).map (fun k =>
    let c := l.section_ b.boot.recordBody b.boot.stepping (k + 1)
    let r := leBytes 4 (k + 1) ++ leBytes 4 c.length ++ c
    r ++ leBytes 4 (crc32c r).toNat)).flatten
  let body := leBytes 8 (fld b.boot.recordBody 1423 1360) ++ leBytes 8 l.at_ ++ leBytes 8 (64 + secs.length + 49856) ++ leBytes 40 0 ++ secs
  body ++ b.signature body

/-- An export of the copy last committed. -/
def Block.lifeExport (b : Block) : List Byte := b.exportOf b.life.saved

/-- The log is committed into the copy that the last commit did not write, with its CRC-32C; the other stands until the commit is complete (R553, R580). -/
def Block.commitLife (b : Block) : Block :=
  let on := b.life.onNs + (b.clk.own - b.life.onSince)
  let own := b.counts.filter (fun x => match x.1 with
    | .life .. => true
    | _ => false)
  let copy : LifeCopy := { at_ := b.clk.own, counts := own, firstBoot := b.life.firstBoot, onNs := on, retired := b.life.retired, bells := b.life.bells }
  let crc := crc32c ((List.range 12).map (fun k => copy.section_ b.boot.recordBody b.boot.stepping (k + 1))).flatten
  { b with life := { b.life with onNs := on, onSince := b.clk.own, copyB := !b.life.copyB, savedSpan := b.span, before := some b.life.saved, saved := { copy with crc := crc } } }

/-- LOG_COMMIT (R553): every 10 minutes (R17), while standby power is present. -/
def execLogCommit (t : Nat) (s : State) : Host.Outcome State Fault Refusal :=
  .next (atTime t (fun b => if b.power.standby && b.life.savedSpan + 600000000000 ≤ b.span then b.commitLife else b) s)

/-- The parts of an export as LOG records of at most 4,096 bytes; a drop ends it (R553). -/
def State.streamLog (s : State) (bytes : List Byte) (k : Nat) : Nat → State
  | 0 => s
  | n + 1 =>
    if s.m.safety.exportDrop || bytes.length ≤ 4096 * k then s
    else State.streamLog (s.trace 4 (k % 256) ((bytes.drop (4096 * k)).take 4096)) bytes (k + 1) n

/-- LOG_EXPORT (R546, R553): a value of LOG_EXPORT_SEQ that differs from the last one exported streams the log. -/
def execLogExport (t seq : Nat) (s : State) : Host.Outcome State Fault Refusal :=
  let s := s.on (·.advanceTo t)
  if fld s.m.desc.trace 407 400 != seq || s.m.safety.exportSeq == seq then .next s
  else
    let bytes := s.m.lifeExport
    .next ((s.on (fun b => { b with safety := { b.safety with exportSeq := seq, exportDrop := false } })).streamLog bytes 0 (ceilDiv bytes.length 4096))

/-- TAP_INSTRUCTION (R545): BYPASS, IDCODE, SAMPLE/PRELOAD and EXTEST; every other instruction acts as BYPASS (log 11). No instruction reaches a die's state. -/
def execTapInstruction (t ir : Nat) (s : State) : Host.Outcome State Fault Refusal :=
  .next (atTime t (fun b => { b with power := { b.power with tapIr := some (if [1, 2, 3].contains ir then ir else 0) } }) s)

end Sys2Proof.Machine
end

