-- ==== Sys2Proof/Machine/Boot.lean ====
section
/-! DEFINITION. Boot, firmware and identity: the configuration record (R557 to R560), images (R563, R564), boot (R565 to R568), what a module reset leaves
(R14, R456, R468, R484), and standby power (R577). -/
namespace Sys2Proof.Machine

/-! The record and the image -/

/-- The body of the configuration record (R558). -/
def recordBodyOf (bytes : List Byte) : BitVec 2048 := BitVec.ofNat 2048 (leAt bytes 0 256)

/-- Is a configuration record valid (R559): `identity` is the secret that the identity key is formed from, if the extractor gave one (R561). -/
def recordHolds (bytes : List Byte) (identity : Option (BitVec 256)) (stepping : Nat) : Bool :=
  let r := recordBodyOf bytes
  let pair := (fld r 1284 1281, fld r 1296 1285)
  fld r 15 0 == 0x4258 && fld r 31 16 == 1
    && fld r 1341 1328 == 0 && fld r 1307 1297 == 0 && fld r 1279 32 == 0
    && (pair == (0xA, 1280) || pair == (0xB, 640))
    && flag r 1280 == (stepping == 0)
    && identity.any (fun k => fld r 2047 1536 == leAt (identityPublic k) 0 64)
    && Config.slhVerify Config.recordKey (slice bytes 0 256) (slice bytes 256 29792)

/-- The header of an image (R563). -/
def imageHead (img : List Byte) : BitVec 512 := BitVec.ofNat 512 (leAt img 0 64)
/-- IMAGE_LEN. -/
def imageLen (img : List Byte) : Nat := fld (imageHead img) 447 416
/-- FW_VERSION. -/
def imageVersion (img : List Byte) : BitVec 64 := BitVec.ofNat 64 (fld (imageHead img) 511 448)
/-- SVN. -/
def imageSvn (img : List Byte) : Nat := fld (imageHead img) 415 400

/-- Does an image verify under a valid record (R564)? -/
def imageHolds (img : List Byte) (record : BitVec 2048) (romVersion stepping : Nat) : Bool :=
  let h := imageHead img
  let n := imageLen img
  let key := fld h 65 64
  fld h 31 0 == 0x4A484C53 && fld h 63 32 == 1 && fld h 381 66 == 0 && Nat.ble 29856 n && Nat.ble n 33554432
    && fld record 1311 1308 / 2 ^ key % 2 == 1
    && Nat.ble (fld record 1327 1312) (imageSvn img) && Nat.ble (fld h 399 384) romVersion
    && flag h (if stepping == 0 then 382 else 383)
    && Config.slhVerify (Config.imageKey key) (slice img 0 (n - 29792)) (slice img (n - 29792) 29792)

/-- Does an image verify under the record in force? -/
def Block.imageOk (b : Block) (img : List Byte) : Bool := b.boot.recordValid && imageHolds img b.boot.recordBody b.boot.romVersion b.boot.stepping

/-! What a module reset leaves (R14, R456, R467, R468) -/

/-- A counter of the standby domain: of the lifetime log, or ERRORS_M (R498, R552). -/
def Counter.standby : Counter → Bool
  | .life .. => true
  | .errorsM => true
  | _ => false

/-- SNAP_STATUS after the reset: ABANDONED_RESET where an image was in progress (R520), a class C error that is logged then. -/
def Block.snapAfterReset (b : Block) : BitVec 1024 :=
  let lost := b.snap.image.isSome || (b.power.main != .on && fld b.desc.snap 15 8 == 7)
  setFld (({} : Desc).snap) 15 8 (if lost then 7 else 0)

/-- The block once the main domain has lost power or been reset: the standby domain, the standby fields and the lifetime log stay (R467). A flash write in progress ends,
and leaves the image region invalid (R575, R580). -/
def Block.mainLost (b : Block) : Block :=
  { clk := { own := b.clk.own, span := b.clk.span, refRate := b.clk.refRate },
    dieLinks := List.replicate 68 {},
    dev := { moduleResets := b.dev.moduleResets, oosReason := b.dev.oosReason },
    counts := b.counts.filter (fun x => x.1.standby),
    desc := { snap := b.snapAfterReset },
    tiers := { retired := b.life.retired, frameCtr := b.tiers.frameCtr, openCtr := b.tiers.openCtr },
    faults := { record := b.faults.record, logFifo := if b.snap.image.isSome then [{ cls := .c, code := 0x37, at_ := b.clk.own }] else [] },
    safety := { faultLine := b.safety.faultLine },
    life := b.life,
    boot := { stepping := b.boot.stepping, romVersion := b.boot.romVersion, recordBody := b.boot.recordBody, recordValid := b.boot.recordValid,
              eepromRecord := b.boot.eepromRecord, eepromHelper := b.boot.eepromHelper, eepromProtected := b.boot.eepromProtected, identity := b.boot.identity,
              image := [], runVersion := 0, runSvn := 0, flashImage := if b.boot.committing then [] else b.boot.flashImage,
              eidI3c := b.boot.eidI3c, eidSgmii := b.boot.eidSgmii, planeUp := b.boot.planeUp, i3cUp := b.boot.i3cUp, sgmiiUp := b.boot.sgmiiUp, resetDueAt := b.boot.resetDueAt,
              heldOut := b.boot.heldOut || b.dev.state == 6 },
    power := { standby := b.power.standby, main := b.power.main, pcie := .off, warnedAt := b.power.warnedAt, inputShed := b.power.inputShed, downAt := b.power.downAt,
               perstLow := b.power.perstLow, prsntOk := b.power.prsntOk, tapIr := b.power.tapIr } }

/-- The main domain is lost, and its memories with it. -/
def State.dropMain (s : State) : State :=
  let s := s.voidSlot
  { s with m := s.m.mainLost, mem := { s.mem with parcel := [], stores := [] } }

/-! Boot (R565) -/

/-- Steps 3 and 4: the record, and the image under it. -/
def Block.readFlash (b : Block) (x : BootSense) : Block :=
  let record := b.boot.eepromRecord
  let ok := recordHolds record b.boot.identity x.stepping
  let img := b.boot.flashImage
  let boot := { b.boot with stepping := x.stepping, recordValid := ok, recordBody := if ok then recordBodyOf record else 0, eepromProtected := true }
  let good := ok && imageHolds img boot.recordBody boot.romVersion boot.stepping
  { b with boot := { boot with image := if good then slice img 0 (imageLen img) else [], runVersion := if good then imageVersion img else 0,
                               runSvn := if good then imageSvn img else 0 },
           fab := { b.fab with ga := x.ga % 8 },
           dev := { b.dev with oosReason := if ok then b.dev.oosReason else 4 } }

/-- What a byte of the 64 MiB flash belongs to (R556). -/
inductive FlashRange where
  | image | logA | logB | reserved
deriving DecidableEq, Repr

/-- The ranges of the flash (R556); none past its end. -/
def flashRange (a : Nat) : Option FlashRange :=
  if a < 0x2000000 then some .image else if a < 0x2800000 then some .logA else if a < 0x3000000 then some .logB else if a < 0x4000000 then some .reserved else none

/-- The copy of the lifetime log that a range holds (R553, R556, R580): the copy last committed, and until that commit is complete the one before it; erased otherwise. -/
def Block.flashLog (b : Block) : FlashRange → Option LifeCopy
  | .logA => if b.life.copyB then (if b.span < b.life.savedSpan + 200000000 then b.life.before else none) else some b.life.saved
  | .logB => if b.life.copyB then some b.life.saved else (if b.span < b.life.savedSpan + 200000000 then b.life.before else none)
  | _ => none

/-- Was an image verified at this boot? -/
def Block.verified (b : Block) : Bool := !b.boot.image.isEmpty

/-- Step 6 begins: the die-to-die links are trained, the enabled ports train, the others are DISABLED (R314, R565). -/
def Block.trainPorts (b : Block) : Block :=
  { b with ports := ((List.range b.ports.length).zip b.ports).map (fun ((n, p) : Nat × Port) =>
      { p with linkState := if fld b.boot.recordBody 1359 1342 / 2 ^ n % 2 == 1 then 1 else 5 }),
           dieLinks := List.replicate 68 { linkState := 2 } }

/-- Steps 5 and 6 (R565, R568, R583): the recovery loader, or the whole main domain; a rail that misses its window, or a cellar of another density, leaves the module
OUT_OF_SERVICE. The fault line is released (R541). PCIe trains from step 5 and is in service once step 6 has begun, or the recovery loader runs (R567; the loader DEDUCED,
log 102). -/
def State.powerMain (s : State) (x : BootSense) : State :=
  let s := s.on (fun b => { b with safety := { b.safety with faultLine := false }, power := { b.power with pcie := .retry } })
  if !s.m.verified then s.on (fun b => { b with dev := { b.dev with state := 0 }, power := { b.power with main := .island, pcie := .ready } })
  else if !x.railsOk then (s.on (fun b => { b with power := { b.power with main := .off, pcie := .off } })).enterOos 3
  else
    let s := s.on (fun b => ({ b with dev := { b.dev with state := 1 }, power := { b.power with main := .on, pcie := .ready } } : Block).trainPorts)
    if x.densityGib != fld s.m.boot.recordBody 1296 1285 then s.enterOos 4 else s

/-- Boot from step 3. -/
def State.bootFrom3 (s : State) (x : BootSense) : State := (s.on (·.readFlash x)).powerMain x

/-- An A0 module writes the mark of R7 at first boot; the first boot is noted (R552). -/
def Block.firstBoot (b : Block) (stepping : Nat) : Block :=
  if b.life.firstBoot.isSome then b
  else
    let b : Block := { b with life := { b.life with firstBoot := some b.clk.own } }
    if stepping == 0 then (b.raiseTo (.life 1 2) 1).commitLife else b

/-- A module reset (R456, R468, R484): the main domain is lost, MODULE_RESETS rises, the record takes the reset, and boot runs from step 3. -/
def State.moduleReset (s : State) (x : BootSense) : State :=
  ((s.dropMain).on (fun b =>
    let b := (b.recordReset).bump (.life 7 8)
    { b with dev := { b.dev with moduleResets := addSatW 16 b.dev.moduleResets 1 }, boot := { b.boot with resetDueAt := none },
             power := { b.power with warnedAt := none, inputShed := false, downAt := none } })).bootFrom3 x

/-- May boot power the main domain (R577, R593, R599): PERST_N high, the contact made, the input in range, and no power-down running. -/
def Block.mayBoot (b : Block) : Bool :=
  b.power.standby && !b.power.perstLow && b.power.prsntOk && !b.power.inputShed && b.power.main != .falling && b.power.downAt.isNone

/-- Is a module reset owed: a class M error's (R468), or one that boot waits with (R571, R587, R593)? -/
def Block.resetOwed (b : Block) : Bool :=
  (match b.faults.reset with
  | some r => r.domain == .module
  | none => false) || (match b.boot.resetDueAt with
  | some d => Nat.ble d b.clk.own
  | none => false)

/-- MODULE_RESET (R468, R565): the reset of a class M error, or one owed, is carried out by the safety monitor. -/
def execModuleReset (t : Nat) (b : BootSense) (s : State) : Host.Outcome State Fault Refusal :=
  let s := s.on (·.advanceTo t)
  .next (if s.m.mayBoot && s.m.resetOwed then s.moduleReset b else s)

/-- RECOVERY_RESET (R571): 10 ms after a successful FW_COMMIT in RECOVERY. -/
def execRecoveryReset (t : Nat) (b : BootSense) (s : State) : Host.Outcome State Fault Refusal :=
  let s := s.on (·.advanceTo t)
  let due := match s.m.boot.resetDueAt with
    | some d => Nat.ble d s.m.clk.own
    | none => false
  .next (if s.m.dev.state == 0 && due && s.m.mayBoot then s.moduleReset b else s)

/-- The newest complete copy of the lifetime log in the flash (R553, R580): a commit completes within 200 ms of its start; where power is lost sooner, whether it was complete is
a free value, and the copy before it stands. -/
def Block.newestCopy (b : Block) : LifeCopy :=
  match b.life.before with
  | some old => if Nat.blt b.span (b.life.savedSpan + 200000000) && (Config.freeWord b.tiers.openCtr).toNat % 2 == 1 then old else b.life.saved
  | none => b.life.saved

/-- The block that standby power finds (R556, R561, R577): flash and EEPROM keep what they held, the lifetime log starts from its last commit. -/
def Block.coldBlock (b : Block) : Block :=
  let saved := b.newestCopy
  { counts := saved.counts, tiers := { retired := saved.retired, frameCtr := b.tiers.frameCtr, openCtr := b.tiers.openCtr + 1 },
    life := { firstBoot := saved.firstBoot, onNs := saved.onNs, retired := saved.retired, bells := saved.bells, saved := saved, copyB := if saved == b.life.saved then b.life.copyB else !b.life.copyB },
    boot := { stepping := b.boot.stepping, romVersion := b.boot.romVersion, identity := none, recordValid := false, recordBody := 0, image := [], runVersion := 0, runSvn := 0,
              eepromRecord := b.boot.eepromRecord, eepromHelper := b.boot.eepromHelper, eepromProtected := false,
              flashImage := if b.boot.committing then [] else b.boot.flashImage },
    power := { standby := false, main := .off, pcie := .off } }

/-- STANDBY_POWER_LOSS (R577, R484): the standby domain stops, and its clock with it. -/
def execStandbyPowerLoss (t : Nat) (s : State) : Host.Outcome State Fault Refusal :=
  let s := s.on (·.advanceTo t)
  .next { s with m := s.m.coldBlock, mem := { s.mem with parcel := [], stores := [] } }

/-- The EEPROM as service left it while standby power was off (R557). -/
def Boot.serviced (x : Boot) : Option (List Byte × List Byte) → Boot
  | some (record, helper) => { x with eepromRecord := slice record 0 30048, eepromHelper := helper }
  | none => x

/-- Step 2 of boot (R561): the secret K is recovered from the 8 KiB of SRAM and the helper data; the management plane starts (R565). -/
def Boot.withIdentity (x : Boot) (sram : List Byte) : Boot := { x with identity := Config.fuzzyExtract (slice sram 0 8192) x.eepromHelper, planeUp := true }

/-- STANDBY_POWER_UP (R348, R561, R565, R577): the standby domain starts and its clock with it, from 0; the identity key is formed, and boot runs from step 1. The power cycle is
counted (R552). -/
def execStandbyPowerUp (t : Nat) (b : BootSense) (s : State) : Host.Outcome State Fault Refusal :=
  if s.m.power.standby then .next (s.on (·.advanceTo t))
  else
    let s := s.on (fun m =>
      let m := { m with clk := { refRate := m.clk.refRate }, power := { m.power with standby := true }, boot := (m.boot.serviced b.service).withIdentity b.sram,
                        life := { m.life with onSince := 0, savedSpan := 0 } }
      (m.bump (.life 1 0)).firstBoot b.stepping)
    .next (s.bootFrom3 b)

/-! The start-up self-test (R566) -/

/-- The failing slots of a die. -/
def failingOf (r : SelfTestResult) (d : Nat) : List Nat := (r.failingSlots.filter (fun x => x.1 == d)).map (·.2)

/-- Does the self-test fail (R566)? Slot 12 is a die's spare after a reset (R28). -/
def selfTestFails (r : SelfTestResult) : Bool :=
  (List.range 16).any (fun d => Nat.ble 2 (failingOf r d).eraseDups.length) || !r.larderOk || !r.bellLineOk || Nat.ble 65 r.failedFrames.length

/-- A failing slot is remapped to its die's spare; a failing spare is out of use, class C (R480, R481, R566). -/
def Block.startupSlot (b : Block) (d k : Nat) : Block :=
  if k < 12 then b.remapCroft (12 * d + k)
  else ((b.onDie d (fun x => { x with remap := setFld x.remap 51 50 2 })).bump (.life 9 (32 + d))).logC { cls := .c, code := 0x21, at_ := b.now, die := some d, cause := 2 }

/-- STARTUP_SELF_TEST (R565, R566): crofts are remapped, frames retired, failed lanes substituted, and the module enters READY, or OUT_OF_SERVICE. A frame lies in all twenty packages, and the
self-test does not say which failed: the package that the lifetime log counts is a free value (log 7). -/
def execStartupSelfTest (t : Nat) (r : SelfTestResult) (s : State) : Host.Outcome State Fault Refusal :=
  let s := s.on (·.advanceTo t)
  if s.m.dev.state != 1 || s.m.power.main != .on then .next s
  else
    let s := s.on (fun b =>
      let b := ((List.range 16).map (fun d => (d, (failingOf r d).eraseDups))).foldl (fun (b : Block) ((d, ks) : Nat × List Nat) =>
        match ks with
        | [k] => b.startupSlot d k
        | _ => b) b
      r.failedFrames.foldl (fun b f =>
        let (p, b) := b.freeNat 20
        (b.retire f p).logC { cls := .c, code := 0x28, at_ := b.now, cause := 5, package := some p }) b)
    let s := if r.sp0Ok then s else s.sp0Fails
    let s := r.failedLanes.foldl (fun s x => s.laneFails x.1 x.2) s
    let held := if s.m.boot.heldOut then s.m.dev.oosReason else oosReasonOf s.m.faults.record
    if selfTestFails r then .next (s.enterOos 3)
    else if held != 0 then .next (s.enterOos held)
    else .next (s.on (fun b => { b with dev := { b.dev with state := 2 } }))

end Sys2Proof.Machine
end

