-- ==== Sys2Proof/Machine/Management.lean ====
section
/-! DEFINITION. The management plane (R34, R536, R551, R569, R572, R574). A request's answer is put into `reply`; none means that it went unanswered. What the DMTF
standards give and the manual does not (completion codes, command numbers, layouts) is log 35. -/
namespace Sys2Proof.Machine

/-- The management MAC address: the configuration record's, and 0 while that is invalid (R560). -/
def Block.macAddress (b : Block) : Nat := fld b.boot.recordBody 1535 1488

/-- Does a request come to the module: over I3C, or in a frame of EtherType 0x88B5 addressed to MAC_ADDR (R574)? -/
def Block.addressed (b : Block) : Binding → Bool
  | .i3c => true
  | .sgmii etherType dst => etherType == 0x88B5 && dst == b.macAddress

/-- Is a management request served: it comes to the module, and pair 3 and both its links run (R34, R574)? -/
def Block.served (b : Block) (by_ : Binding) : Bool := b.power.standby && b.boot.planeUp && b.boot.i3cUp && b.boot.sgmiiUp && b.addressed by_

/-- The packets of an answer: transmission units of at most 1,024 bytes (R574). -/
def transmissionUnits (bytes : List Byte) : List (List Byte) := (List.range (ceilDiv bytes.length 1024)).map (fun k => (bytes.drop (1024 * k)).take 1024)

/-- The answer to a request. -/
def Block.answer (b : Block) (r : Option (List Byte)) : Block := { b with boot := { b.boot with reply := r } }

/-- A request that reads. -/
def Block.request (b : Block) (by_ : Binding) (r : Option (List Byte)) : Block := b.answer (if b.served by_ then r else none)

/-- A request that the recovery loader does not serve (R568). -/
def Block.requestMain (b : Block) (by_ : Binding) (r : Option (List Byte)) : Block := b.request by_ (if b.dev.state == 0 then none else r)

/-- MANAGEMENT_LINK_FAILURE (R34, R616): class C, LINK_FAILED; requests are refused until the plane recovers. -/
def execManagementLinkFailure (t : Nat) (b : Binding) (s : State) : Host.Outcome State Fault Refusal :=
  .next (atTime t (fun m =>
    (match b with
    | .i3c => ({ m with boot := { m.boot with i3cUp := false } } : Block)
    | .sgmii .. => { m with boot := { m.boot with sgmiiUp := false } }).raiseC 0x33) s)

/-- MANAGEMENT_PLANE_RECOVERY (R34, R574): requests are served again. -/
def execManagementPlaneRecovery (t : Nat) (s : State) : Host.Outcome State Fault Refusal :=
  .next (atTime t (fun b => { b with boot := { b.boot with planeUp := true, i3cUp := true, sgmiiUp := true } }) s)

/-! The vendor-defined type and PLDM Type 2 (R551) -/

/-- GET_BLOCK (R549, R551): the counter block, as it stands. -/
def execGetBlock (b : Binding) (block : Nat) (s : State) : Host.Outcome State Fault Refusal :=
  .next (s.on (fun m => m.requestMain b (m.counterBlock block)))

/-- LOG_INFO (R551): the length of the export and the time of the last commit. -/
def execLogInfo (b : Binding) (s : State) : Host.Outcome State Fault Refusal :=
  .next (s.on (fun m => m.requestMain b (some (leBytes 8 m.lifeExport.length ++ leBytes 8 m.life.saved.at_))))

/-- LOG_READ (R551, R553, R554): at most 1,024 bytes of the export. A read at offset 0 begins an export; the others go on in the copy that it began with. -/
def execLogRead (b : Binding) (offset length : Nat) (s : State) : Host.Outcome State Fault Refusal :=
  .next (s.on (fun m =>
    let copy := if offset == 0 then m.life.saved else m.life.reading.getD m.life.saved
    let r := m.requestMain b (if length ≤ 1024 then some (((m.exportOf copy).drop offset).take length) else none)
    if r.boot.reply.isSome then { r with life := { r.life with reading := some copy } } else r))

/-- A sensor of PLDM Type 2 (R551), numbered as log 35 says: junctions from 0, the coolant inlet at 23, input power at 24, DEVICE_STATE.STATE at 25, SAFETY_CAUSE
at 26, rail voltages from 27, whose readings the manual gives no register for (log 8). -/
def Block.sensor (b : Block) (n : Nat) : Option Nat :=
  if n < 23 then (b.power.junctions[n]?).map (unsigned 32)
  else if n == 23 then some (unsigned 32 (signed 16 (fld b.desc.power 127 112)))
  else if n == 24 then some (fld b.desc.power 159 144)
  else if n == 25 then some b.dev.state
  else if n == 26 then some b.safety.cause
  else if n < 65 then some (Config.freeWord b.tiers.openCtr).toNat
  else none

/-- PLDM_SENSOR_READ (R551). -/
def execPldmSensorRead (b : Binding) (sensor : Nat) (s : State) : Host.Outcome State Fault Refusal :=
  .next (s.on (fun m =>
    let m' := m.requestMain b (some (match m.sensor sensor with
      | some v => 0 :: leBytes 4 v
      | none => [0x80]))
    if 27 ≤ sensor && sensor < 65 then { m' with tiers := { m'.tiers with openCtr := m'.tiers.openCtr + 1 } } else m'))

/-! MCTP control and PLDM Type 0 (R574) -/

/-- The endpoint ID of a binding; 0 while none is assigned. -/
def Boot.eid (x : Boot) : Binding → Byte
  | .i3c => x.eidI3c
  | .sgmii .. => x.eidSgmii

/-- SET_ENDPOINT_ID: each binding has its own. -/
def execSetEndpointId (b : Binding) (eid : Byte) (s : State) : Host.Outcome State Fault Refusal :=
  .next (s.on (fun m =>
    if !m.served b then m.answer none
    else if eid == 0 || eid == 0xFF then m.answer (some [2])
    else
      let boot := match b with
        | .i3c => { m.boot with eidI3c := eid }
        | .sgmii .. => { m.boot with eidSgmii := eid }
      ({ m with boot := boot } : Block).answer (some [0, 0, eid, 0])))

/-- GET_ENDPOINT_ID. -/
def execGetEndpointId (b : Binding) (s : State) : Host.Outcome State Fault Refusal :=
  .next (s.on (fun m => m.request b (some [0, m.boot.eid b, Config.mctpByte 2 0, Config.mctpByte 2 1])))

/-- The message types served: MCTP control, PLDM, and outside RECOVERY the vendor-defined type (R568, R574). -/
def Block.messageTypes (b : Block) : List Byte := if b.dev.state == 0 then [0x01] else [0x01, 0x7F]

/-- GET_MCTP_VERSION_SUPPORT. -/
def execGetMctpVersionSupport (b : Binding) (typ : Nat) (s : State) : Host.Outcome State Fault Refusal :=
  .next (s.on (fun m => m.request b (some (
    if typ == 0xFF || typ == 0 || m.messageTypes.any (fun x => x.toNat == typ) then [0, 1] ++ (List.range 4).map (fun i => Config.mctpByte (0x400 + typ) i) else [0x80]))))

/-- GET_MESSAGE_TYPE_SUPPORT. -/
def execGetMessageTypeSupport (b : Binding) (s : State) : Host.Outcome State Fault Refusal :=
  .next (s.on (fun m => m.request b (some ([0, BitVec.ofNat 8 m.messageTypes.length] ++ m.messageTypes))))

/-- GET_VENDOR_MESSAGE_SUPPORT: Brixyaba's IANA enterprise number (R551). -/
def execGetVendorMessageSupport (b : Binding) (s : State) : Host.Outcome State Fault Refusal :=
  .next (s.on (fun m => m.request b (some ([0, 0xFF, 1] ++ (leBytes 4 Config.enterpriseNumber.toNat).reverse ++ [Config.mctpByte 6 0, Config.mctpByte 6 1]))))

/-- GET_TID. -/
def execGetTid (b : Binding) (s : State) : Host.Outcome State Fault Refusal :=
  .next (s.on (fun m => m.request b (some [0, Config.mctpByte 0x1002 0])))

/-- The PLDM types served (R568, R574). -/
def Block.pldmTypes (b : Block) : List Nat := if b.dev.state == 0 then [0, 5] else [0, 2, 5]

/-- GET_PLDM_VERSION. -/
def execGetPldmVersion (b : Binding) (typ : Nat) (s : State) : Host.Outcome State Fault Refusal :=
  .next (s.on (fun m => m.request b (some (
    if m.pldmTypes.contains typ then [0] ++ (List.range 4).map (fun i => Config.mctpByte (0x1100 + typ) i) else [0x83]))))

/-- A set of numbers as a bitmap of n bytes. -/
def bitmapBytes (n : Nat) (xs : List Nat) : List Byte := leBytes n (xs.foldl (fun a x => putBits a x x 1) 0)

/-- GET_PLDM_TYPES. -/
def execGetPldmTypes (b : Binding) (s : State) : Host.Outcome State Fault Refusal :=
  .next (s.on (fun m => m.request b (some (0 :: bitmapBytes 8 m.pldmTypes))))

/-- The commands of a PLDM type that R551, R572 and R574 name. -/
def pldmCommands : Nat → List Nat
  | 0 => [2, 3, 4, 5]
  | 2 => [0x11, 0x21]
  | _ => [0x01, 0x02, 0x10, 0x13, 0x14, 0x15, 0x16, 0x17, 0x18, 0x1A, 0x1B, 0x1C, 0x1D]

/-- GET_PLDM_COMMANDS. -/
def execGetPldmCommands (b : Binding) (typ : Nat) (s : State) : Host.Outcome State Fault Refusal :=
  .next (s.on (fun m => m.request b (some (if m.pldmTypes.contains typ then 0 :: bitmapBytes 32 (pldmCommands typ) else [0x83]))))

/-! PLDM Type 5 (R569, R572) -/

/-- UNABLE_TO_INITIATE_UPDATE. -/
def unableToUpdate : List Byte := [0x8A]

/-- Type 5 is accepted in READY and RECOVERY (R572). -/
def Block.updateState (b : Block) : Bool := b.dev.state == 2 || b.dev.state == 0

/-- A Type 5 request: refused outside those states. -/
def Block.update (b : Block) (by_ : Binding) (f : Block → Block) : Block :=
  if !b.served by_ then b.answer none else if b.updateState then f b else b.answer (some unableToUpdate)

/-- A step of a staging session is an entry of the command mailbox, written by pair 3 (R31), and is applied in its turn: after the entries before it, and those of pair 0 that
arrive at the same time (R32). A request that Type 5 does not accept is no entry. -/
def State.mailed (s : State) (by_ : Binding) (i : Instr) (f : Block → Block) : State :=
  if s.m.path.applying || !s.m.served by_ || !s.m.updateState then s.on f
  else s.on (fun b => { b with path := { b.path with mailbox := b.path.mailbox ++ [i],
                                                     pair3 := (b.now, if b.path.pair3.1 == b.now then b.path.pair3.2 + 1 else 1) } })

/-- The staging session closes; staged bytes do not survive it (R569). -/
def Block.closeSession (b : Block) : Block :=
  { b with boot := { b.boot with session := .closed, staged := [], highWater := 0, pldm := .idle, pldmOffset := 0, pldmSize := 0 } }

/-- A staging session opens on a path, and zeroes the area (R569). -/
def Block.openSession (b : Block) (k : Session) : Block := { b.closeSession with boot := { b.closeSession.boot with session := k } }

/-- The first n staged bytes. -/
def Block.stagedBytes (b : Block) (n : Nat) : List Byte := Mem.readBytes b.boot.staged 0 n

/-- Does the staged image verify (R564, R570)? -/
def Block.stagedOk (b : Block) : Bool :=
  let n := imageLen (b.stagedBytes 64)
  Nat.ble n b.boot.highWater && b.imageOk (b.stagedBytes n)

/-- The flash write of R570 ended: the image region holds the staged image, or after three failures none, class C. -/
def Block.flashWritten (b : Block) (ok : Bool) : Block :=
  let b : Block := { b with boot := { b.boot with committing := false, flashImage := if ok then b.stagedBytes (imageLen (b.stagedBytes 64)) else [] } }
  if ok then b else b.raiseC 0x28

/-- QUERY_DEVICE_IDENTIFIERS (R572, R598): Brixyaba's PCI-SIG vendor ID is the first identifier. -/
def execQueryDeviceIdentifiers (b : Binding) (s : State) : Host.Outcome State Fault Refusal :=
  .next (s.on (·.update b (fun m => m.answer (some ([0] ++ leBytes 4 6 ++ [1] ++ leBytes 2 0 ++ leBytes 2 2 ++ leBytes 2 Config.vendorId.toNat)))))

/-- GET_FIRMWARE_PARAMETERS (R572): one component, classification 0xFFFF, identifier 0x0001, its comparison stamp the SVN. -/
def execGetFirmwareParameters (b : Binding) (s : State) : Host.Outcome State Fault Refusal :=
  .next (s.on (·.update b (fun m => m.answer (some ([0] ++ leBytes 2 1 ++ leBytes 2 0xFFFF ++ leBytes 2 1 ++ leBytes 4 m.boot.runSvn ++ leBytes 8 m.boot.runVersion.toNat)))))

/-- REQUEST_UPDATE (R569): opens a PLDM session; refused while a ring session is open. -/
def execRequestUpdate (b : Binding) (s : State) : Host.Outcome State Fault Refusal :=
  .next (s.mailed b (.requestUpdate b) (·.update b (fun m =>
    match m.boot.session with
    | .ring => m.answer (some unableToUpdate)
    | .pldm => m.answer (some [0x81])
    | .closed => ({ m.openSession .pldm with boot := { (m.openSession .pldm).boot with pldm := .learn } } : Block).answer (some [0]))))

/-- A request of the update that belongs to one of its states; in another it is refused. -/
def Block.inState (b : Block) (by_ : Binding) (ss : List PldmState) (f : Block → Block) : Block :=
  b.update by_ (fun b => if b.boot.session != .pldm then b.answer (some [0x80]) else if ss.contains b.boot.pldm then f b else b.answer (some [0x84]))

/-- The one component: classification 0xFFFF, identifier 0x0001 (R572). -/
def ourComponent (c : Component) : Bool := c.classification == 0xFFFF && c.identifier == 1

/-- The answer to a component named (R572): that it may be updated, or that it is not supported. Its comparison stamp is its SVN: whatever it says, the SVN that counts is the
image's own (R564). -/
def componentVerdict (c : Component) : List Byte := if ourComponent c then [0, 0, 0] else [0, 1, 6]

/-- PASS_COMPONENT_TABLE (R572): a table of another component is passed, and answered so. -/
def execPassComponentTable (b : Binding) (c : Component) (s : State) : Host.Outcome State Fault Refusal :=
  .next (s.mailed b (.passComponentTable b c) (·.inState b [.learn] (fun m => ({ m with boot := { m.boot with pldm := .ready } } : Block).answer (some (componentVerdict c)))))

/-- UPDATE_COMPONENT (R572): the transfer starts, 1,024 bytes at a time from offset 0; another component than ours, and an image that the staging area cannot
hold, are refused. -/
def execUpdateComponent (b : Binding) (c : Component) (imageSize : Nat) (s : State) : Host.Outcome State Fault Refusal :=
  .next (s.mailed b (.updateComponent b c imageSize) (·.inState b [.ready] (fun m =>
    if !ourComponent c then m.answer (some (componentVerdict c))
    else if 33554432 < imageSize then m.answer (some [0, 1])
    else ({ m with boot := { m.boot with pldm := .download, pldmOffset := 0, pldmSize := imageSize } } : Block).answer (some [0, 0]))))

/-- REQUEST_FIRMWARE_DATA (R572): 1,024 bytes go to the staging area; after the last of them the transfer is complete. -/
def execRequestFirmwareData (b : Binding) (bytes : List Byte) (s : State) : Host.Outcome State Fault Refusal :=
  .next (s.mailed b (.requestFirmwareData b bytes) (·.inState b [.download] (fun m =>
    let off := m.boot.pldmOffset
    ({ m with boot := { m.boot with staged := m.boot.staged.writeBytes off (slice bytes 0 1024), pldmOffset := off + 1024, highWater := Nat.max m.boot.highWater (off + 1024),
                                    pldm := if m.boot.pldmSize ≤ off + 1024 then .verify else .download } } : Block).answer (some [0]))))

/-- VERIFY_COMPLETE (R564, R572): a staged image that verifies is applied; the flash write begins. -/
def execVerifyComplete (b : Binding) (s : State) : Host.Outcome State Fault Refusal :=
  .next (s.mailed b (.verifyComplete b) (·.inState b [.verify] (fun m =>
    if m.stagedOk then ({ m with boot := { m.boot with pldm := .apply, committing := true } } : Block).answer (some [0]) else m.answer (some [1]))))

/-- APPLY_COMPLETE (R570, R572): the flash write has ended. A write that a power-fail warning ended before has failed (R580). -/
def execApplyComplete (b : Binding) (ok : Bool) (s : State) : Host.Outcome State Fault Refusal :=
  .next (s.mailed b (.applyComplete b ok) (·.inState b [.apply] (fun m =>
    let ok := ok && m.boot.committing
    let m := if m.boot.committing then m.flashWritten ok else m
    ({ m with boot := { m.boot with pldm := if ok then .activate else .ready } } : Block).answer (some [if ok then 0 else 1]))))

/-- ACTIVATE_FIRMWARE (R569, R571, R572): the session closes; in RECOVERY the loader makes a module reset 10 ms later. -/
def execActivateFirmware (b : Binding) (s : State) : Host.Outcome State Fault Refusal :=
  .next (s.mailed b (.activateFirmware b) (·.inState b [.activate] (fun m =>
    let m := m.closeSession.answer (some [0])
    if m.dev.state == 0 then { m with boot := { m.boot with resetDueAt := some (m.clk.own + 10000000) } } else m)))

/-- The state of an update as GetStatus gives it. -/
def PldmState.code : PldmState → Byte
  | .idle => 0 | .learn => 1 | .ready => 2 | .download => 3 | .verify => 4 | .apply => 5 | .activate => 6

/-- GET_STATUS (R572). -/
def execGetStatus (b : Binding) (s : State) : Host.Outcome State Fault Refusal :=
  .next (s.on (·.update b (fun m => m.answer (some [0, m.boot.pldm.code]))))

/-- CANCEL_UPDATE_COMPONENT (R572): back to where a component may be updated. -/
def execCancelUpdateComponent (b : Binding) (s : State) : Host.Outcome State Fault Refusal :=
  .next (s.mailed b (.cancelUpdateComponent b) (·.inState b [.download, .verify] (fun m => ({ m with boot := { m.boot with pldm := .ready, pldmOffset := 0, pldmSize := 0 } } : Block).answer (some [0]))))

/-- CANCEL_UPDATE (R569): the session closes; a flash write in progress ends, and leaves the image region invalid. -/
def execCancelUpdate (b : Binding) (s : State) : Host.Outcome State Fault Refusal :=
  .next (s.mailed b (.cancelUpdate b) (·.inState b [.learn, .ready, .download, .verify, .apply, .activate] (fun m =>
    let m : Block := if m.boot.committing then { m with boot := { m.boot with committing := false, flashImage := [] } } else m
    m.closeSession.answer (some [0]))))

end Sys2Proof.Machine
end

