-- ==== Sys2Proof/Machine/Rings.lean ====
section
/-! DEFINITION. The command interface: BAR0 (R420, R454 to R456), the rings (R420 to R432), and the order in which commands start (R448). -/
namespace Sys2Proof.Machine

/-! BAR0 -/

/-- A word of a ring's registers (R420). -/
def Ring.word (r : Ring) : Nat → Nat
  | 0x00 => r.base
  | 0x08 => r.cmplBase
  | 0x10 => r.ctrlBase
  | 0x18 => putBits (putBits (putBits (putBits (putBits 0 23 16 r.err) 15 14 r.state) 7 2 r.vector) 1 1 (b2n r.irqEn)) 0 0 (b2n r.en)
  | _ => 0

/-- PORT_STATUS (R334). -/
def Port.status (p : Port) : Nat :=
  putBits (putBits (putBits (putBits (putBits (putBits (putBits 0 63 50 p.peerModule) 49 45 p.peerPort) 44 44 (b2n p.subst)) 43 41 p.spareFor) 40 40 (b2n p.phy.spareOk))
    39 35 p.standsFor) 34 32 p.linkState

/-- TIME_STATUS (R350). -/
def Clk.status (c : Clk) : Nat :=
  putBits (putBits (putBits (putBits (putBits (putBits (putBits 0 63 48 (unsigned 16 c.offset)) 47 44 c.depth) 43 39 c.parentInUse) 38 37 c.role) 36 36 (b2n c.ppsLock))
    35 35 (b2n c.holdover)) 34 34 (b2n c.locked)

/-- Word at an offset of a block of bytes. -/
def wordAt (bs : List Byte) (off : Nat) : Nat := leAt bs off 8

/-- The identifiers of PCIe configuration space (R598): Vendor and Subsystem Vendor ID, Device ID, class code, Subsystem ID; with an invalid record the last is 0. No row reads
them, as none reads BAR0. -/
def Block.pcieIds (b : Block) : Nat × Nat × Nat × Nat := (Config.vendorId.toNat, 0x9640, 0x120000, if b.boot.recordValid then fld b.boot.recordBody 1284 1281 else 0)

/-- The answer to a configuration request (R567, R598): none while the link is untrained, Configuration Request Retry Status (none within) until step 6 of boot has begun, then
the IDs. -/
def Block.configAnswer (b : Block) : Option (Option (Nat × Nat × Nat × Nat)) :=
  match b.power.pcie with
  | .off => none
  | .retry => some none
  | .ready => some (some b.pcieIds)

/-- A register of BAR0 at an 8-byte aligned offset (R455, R456); offsets not listed read 0. -/
def Block.bar0Reg (b : Block) (off : Nat) : Nat :=
  let r := b.boot.recordBody
  if off == 0x00 then putBits (putBits (putBits (putBits (putBits 0 43 32 (fld r 1296 1285)) 31 28 b.boot.stepping) 27 24 (fld r 1284 1281)) 16 16 (fld r 1280 1280)) 15 0 0x9640
  else if off == 0x08 then b.boot.runVersion.toNat
  else if off == 0x10 then fld r 1423 1360
  else if off == 0x18 then fld r 1359 1342
  else if off == 0x20 then 0x0100
  else if off == 0x40 then putBits (putBits (putBits (putBits 0 63 48 b.dev.moduleResets) 7 7 (b2n b.dev.mmioRefused)) 6 6 (b2n b.timeValid)) 3 0 b.dev.state
  else if off == 0x48 then b.dev.oosReason
  else if off == 0x50 then b.now
  else if off == 0x58 then putBits (putBits (putBits (putBits 0 63 50 b.dev.bellOrigin) 49 18 b.dev.bellEpoch) 1 1 (b2n b.dev.bellPassed)) 0 0 (b2n b.dev.bellPending)
  else if off == 0x60 then b.dev.bellTa
  else if off == 0x68 then putBits (putBits (putBits (putBits 0 63 32 b.job.step) 31 16 b.job.id) 2 2 (fld b.desc.storm 1 1)) 1 0 (fld b.desc.storm 17 16)
  else if off == 0x70 then b.dev.pollNs
  else if off == 0x78 then putBits (putBits (putBits (putBits (putBits 0 63 32 b.dev.eventsLost) 15 10 b.dev.eventVector) 9 9 (b2n b.dev.eventIrq)) 8 8 (b2n b.dev.eventEn)) 1 0 b.dev.eventRing
  else if 0x80 ≤ off && off < 0x100 then (b.ring ((off - 0x80) / 0x20)).word ((off - 0x80) % 0x20)
  else if off == 0x100 then putBits (putBits (putBits (putBits 0 15 8 b.dev.ideStream) 5 5 (b2n b.dev.ideRxSet)) 4 4 (b2n b.dev.ideTxSet)) 1 0 b.dev.ideState
  else if 0x200 ≤ off && off < 0x280 then (b.die ((off - 0x200) / 8)).remap.toNat
  else if off == 0x300 then b.clk.status
  else if 0x308 ≤ off && off < 0x338 then wordAt ((b.counterBlock 5).getD []) (off - 0x308)
  else if 0x400 ≤ off && off < 0x490 then (b.port ((off - 0x400) / 8)).status
  else if 0x800 ≤ off && off < 0xC80 then wordAt ((b.counterBlock (6 + (off - 0x800) / 0x40)).getD []) ((off - 0x800) % 0x40)
  else if 0x1000 ≤ off && off < 0x11A0 then wordAt ((b.counterBlock 1).getD []) (off - 0x1000)
  else if 0x1200 ≤ off && off < 0x1250 then wordAt ((b.counterBlock 2).getD []) (off - 0x1200)
  else if 0x1280 ≤ off && off < 0x12C0 then wordAt ((b.counterBlock 3).getD []) (off - 0x1280)
  else if 0xE000 ≤ off && off < 0xE400 then fld ((b.dev.msixTable[(off - 0xE000) / 16]?).getD 0) (if (off - 0xE000) % 16 == 0 then 63 else 127) (if (off - 0xE000) % 16 == 0 then 0 else 64)
  else if off == 0xF000 then b.dev.msixPending.toNat
  else 0

/-- Is the register one that the recovery loader presents (R568)? -/
def inRecovery (off : Nat) : Bool := [0x00, 0x08, 0x40, 0x48, 0x70].contains off || (0x80 ≤ off && off < 0xA0) || (0xE000 ≤ off && off < 0xE400)

/-- What a 64-bit read of BAR0 returns (R454, R568). -/
def Block.bar0 (b : Block) (off : Nat) : Nat := if b.dev.state == 0 && !inRecovery off then 0 else b.bar0Reg off

/-- A host read of BAR0 of 8 bytes, or of 4, which returns the addressed half (R454). It changes nothing, so the table has no row for it. -/
def Block.bar0Read (b : Block) (off bytes : Nat) : Nat :=
  let w := b.bar0 (off / 8 * 8) % 2 ^ 64
  if bytes == 8 then w else w / 2 ^ (32 * (off / 4 % 2)) % 2 ^ 32

/-- A refused write sets MMIO_REFUSED and changes nothing else (R454). -/
def Block.refuseMmio (b : Block) : Block := { b with dev := { b.dev with mmioRefused := true } }

/-- RING_CFG written (R420, R422): clearing EN of a running ring drains it. -/
def Ring.writeCfg (r : Ring) (v : Nat) : Ring :=
  let en := bitsOf v 0 0 == 1
  ({ r with vector := bitsOf v 7 2, irqEn := bitsOf v 1 1 == 1, en := en, state := if r.en && !en && r.state == 1 then 2 else r.state } : Ring).settle

/-- A register of ring n written (R420): the bases only while the ring is STOPPED. -/
def Block.writeRing (b : Block) (n sub v : Nat) : Block :=
  if sub == 0x18 then b.onRing n (·.writeCfg v)
  else if (b.ring n).state != 0 then b.refuseMmio
  else b.onRing n (fun r => match sub with
    | 0x00 => { r with base := v / 2 ^ 18 * 2 ^ 18 }
    | 0x08 => { r with cmplBase := v / 2 ^ 17 * 2 ^ 17 }
    | _ => { r with ctrlBase := v / 2 ^ 6 * 2 ^ 6 })

/-- POLL_CTRL written (R423, R455): the first multiple of the new period that follows is the next poll. -/
def Block.writePoll (b : Block) (v : Nat) : Block :=
  let ns := bitsOf v 31 0
  if ns < 250 || 50000 < ns then b.refuseMmio else { b with dev := { b.dev with pollNs := ns, lastPoll := b.now } }

/-- EVENT_CTRL written (R456): RING only while the ring that receives events is STOPPED. -/
def Block.writeEvent (b : Block) (v : Nat) : Block :=
  if bitsOf v 1 0 != b.dev.eventRing && (b.ring b.dev.eventRing).state != 0 then b.refuseMmio
  else { b with dev := { b.dev with eventVector := bitsOf v 15 10, eventIrq := bitsOf v 9 9 == 1, eventEn := bitsOf v 8 8 == 1, eventRing := bitsOf v 1 0 } }

/-- An MSI-X table entry written in part; an entry unmasked with its pending bit set sends its vector (R430, R455; log 4). -/
def Block.writeMsix (b : Block) (off bytes v : Nat) : Block :=
  let i := off / 16
  let lo := off % 16 * 8
  let b : Block := { b with dev := { b.dev with msixTable := modAt i (fun e => setFld e (lo + 8 * bytes - 1) lo v) b.dev.msixTable } }
  if flag b.dev.msixPending i && !flag ((b.dev.msixTable[i]?).getD 0) 96 then
    { b with dev := { b.dev with msixPending := setFld b.dev.msixPending i i 0, msixOut := b.dev.msixOut ++ [i] } }
  else b

/-- A write to BAR0 (R13, R454, R568): aligned and of 8 bytes, or of 4 in the MSI-X table; a write of a read-only or unlisted register has no effect. -/
def Block.bar0Write (b : Block) (off bytes v : Nat) : Block :=
  if b.power.main != .on && b.power.main != .island then b
  else if 0xE000 ≤ off && off < 0xE400 && (bytes == 4 || bytes == 8) && off % bytes == 0 then b.writeMsix (off - 0xE000) bytes v
  else if bytes != 8 || off % 8 != 0 then b.refuseMmio
  else if b.dev.state == 0 && !inRecovery off then b
  else if off == 0x40 then { b with dev := { b.dev with mmioRefused := b.dev.mmioRefused && bitsOf v 7 7 == 0 } }
  else if off == 0x70 then b.writePoll v
  else if off == 0x78 then b.writeEvent v
  else if 0x80 ≤ off && off < 0x100 then b.writeRing ((off - 0x80) / 0x20) ((off - 0x80) % 0x20) v
  else b

/-- RING_EN_WRITE (R420, R422): RING_CFG of a ring. -/
def execRingEnWrite (t ring : Nat) (value : W64) (s : State) : Host.Outcome State Fault Refusal :=
  .next (atTime t (fun b => b.bar0Write (0x98 + 0x20 * (ring % 4)) 8 value.toNat) s)

/-- POLL_CTRL_WRITE (R423, R455). -/
def execPollCtrlWrite (t : Nat) (value : W64) (s : State) : Host.Outcome State Fault Refusal :=
  .next (atTime t (fun b => b.bar0Write 0x70 8 value.toNat) s)

/-- MMIO_REFUSED_CLEAR (R454, R456): a 1 written to the bit. -/
def execMmioRefusedClear (t : Nat) (s : State) : Host.Outcome State Fault Refusal :=
  .next (atTime t (fun b => b.bar0Write 0x40 8 0x80) s)

/-- REGISTER_WRITE (R454): any other write to BAR0. -/
def execRegisterWrite (t offset bytes : Nat) (value : W64) (s : State) : Host.Outcome State Fault Refusal :=
  .next (atTime t (fun b => b.bar0Write offset bytes value.toNat) s)

/-! Starting commands (R448) -/

/-- Is the opcode a fence's. -/
def isFence (op : Nat) : Bool := op == 0x28 || op == 0x29 || op == 0x2A

/-- May a command start, given the earlier commands of its ring not yet completed (R448)? -/
def Taken.mayStart (earlier : List Taken) (c : Taken) : Bool :=
  !c.started && !c.needsRead && !earlier.any (fun e => isFence e.opcode) && (earlier.isEmpty || !(c.ordered || isFence c.opcode))

/-- The commands of a ring that may start now, in index order. -/
def startable : List Taken → List Taken → List Taken
  | _, [] => []
  | earlier, c :: rest => (if c.mayStart earlier then [c] else []) ++ startable (earlier ++ [c]) rest

/-- Entries of pair 0 arrive at the mailbox: behind those waiting, but before those of pair 3 that arrived at the same time (R32). -/
def Block.mail (b : Block) (cs : List Instr) : Block :=
  let k := if b.path.pair3.1 == b.now then b.path.mailbox.length - Nat.min b.path.pair3.2 b.path.mailbox.length else b.path.mailbox.length
  { b with path := { b.path with mailbox := b.path.mailbox.take k ++ cs ++ b.path.mailbox.drop k,
                                 pair3 := if cs.isEmpty || b.path.pair3.1 == b.now then b.path.pair3 else (0, 0) } }

/-- The commands of ring n that may start enter the mailbox, in index order (R32, R448). -/
def Block.pumpRing (b : Block) (n : Nat) : Block :=
  let go := startable [] (b.ring n).cmds
  (b.onRing n (fun r => { r with cmds := r.cmds.map (fun (c : Taken) => if go.contains c then { c with started := true } else c) })).mail
    (go.filterMap (fun c => Packet.toCommand n c.slots c.payload))

/-- Every ring in ring order (R423, R448). -/
def Block.pump (b : Block) : Block := (List.range 4).foldl (fun b n => b.pumpRing n) b

/-! Polling (R422 to R424) -/

/-- The 64 bytes of the slot of an index (R421, R425). -/
def State.slotAt (s : State) (r : Ring) (i : Nat) : List Byte := s.mem.host.readBytes (r.base + 64 * (i % 4096)) 64

/-- The control block of a ring, and the ring's move at a poll (R422): to RUNNING where EN was set, to ERROR where a read failed or an index is wrong (R420). -/
def State.pollRing (s : State) (failed : List Nat) (n : Nat) : State :=
  let r := s.m.ring n
  let r := if r.en && r.state == 0 then { r with state := 1, err := 0, cmdCons := 0, cmplProd := 0, cmplCons := 0 } else r
  let r :=
    if r.state == 0 then r
    else if failed.contains n then (if r.state == 3 then r else r.fail 1)
    else
      let r := { r with cmplCons := s.mem.host.readNat (r.ctrlBase + 4) 4 }
      if r.state == 3 then r
      else if 4096 < r.unread then r.fail 3
      else if r.state == 1 && 4096 < (s.mem.host.readNat r.ctrlBase 4 + 2 ^ 32 - r.cmdCons) % 2 ^ 32 then r.fail 2
      else r
  s.on (fun b => b.onRing n (fun _ => r))

/-- The completion entries that the event ring keeps for events (R424, R447), whether or not events are posted. -/
def Block.reserve (b : Block) (n : Nat) : Nat := if b.dev.eventRing == n then 64 else 0

/-- One packet of ring n as taken (R432 steps 1 to 3): refused at once, or among the ring's commands. -/
def State.takePacket (s : State) (n : Nat) (bytes : List Byte) : State :=
  let tag := Packet.tag bytes
  let op := Packet.opcode bytes
  let refuse (status detail : Nat) : State :=
    s.postCompletion n { tag := tag, opcode := op, status := status, detail := detail, noIrq := Packet.noIrq bytes, tDone := s.m.now }
  match Packet.check bytes with
  | some (status, detail) => refuse status detail
  | none =>
    if (s.m.ring n).cmds.any (fun c => c.tag == tag) then refuse 9 0
    else
      let reads := Packet.readsPayload bytes
      let c : Taken := { tag := tag, opcode := op, ordered := Packet.ordered bytes, noIrq := Packet.noIrq bytes, slots := bytes, needsRead := reads,
                         payload := if reads then [] else Packet.inlinePayload bytes, takenAt := s.m.fabNs, order := s.m.path.taken }
      s.on (fun b => ({ b with path := { b.path with taken := b.path.taken + 1 } } : Block).onRing n (fun r => { r with cmds := r.cmds ++ [c] }))

/-- At most k packets of ring n are taken, in index order (R424). -/
def State.takeFrom (s : State) (n prod : Nat) : Nat → State
  | 0 => s
  | k + 1 =>
    let r := s.m.ring n
    let avail := (prod + 2 ^ 32 - r.cmdCons) % 2 ^ 32
    let head := s.slotAt r r.cmdCons
    let slots := 1 + Packet.slots head
    if avail < slots || 4096 - s.m.reserve n < r.cmds.length + r.unread + 1 then s
    else
      let bytes := ((List.range slots).map (fun i => s.slotAt r (r.cmdCons + i))).flatten
      let s := s.on (fun b => b.onRing n (fun r => { r with cmdCons := (r.cmdCons + slots) % 2 ^ 32 }))
      State.takeFrom (s.takePacket n bytes) n prod k

/-- The packets of a RUNNING ring, and CMD_CONS (R424). -/
def State.takeRing (s : State) (n : Nat) : State :=
  let r := s.m.ring n
  if r.state != 1 then s
  else
    let s := s.takeFrom n (s.mem.host.readNat r.ctrlBase 4) 64
    if (s.m.ring n).cmdCons == r.cmdCons then s else s.writeHost (r.ctrlBase + 8) (leBytes 4 (s.m.ring n).cmdCons)

/-- The rings that are served: ring 0 only in RECOVERY (R568). -/
def Block.servedRings (b : Block) : List Nat := if b.dev.state == 0 then [0] else List.range 4

/-- The rings whose reads of host memory fail at a poll: those named, and every one while the link's IDE stream is insecure (R453). -/
def Block.unreadable (b : Block) (failed : List Nat) : List Nat := if b.dev.ideState == 2 then List.range 4 else failed

/-- What a poll does (R422 to R424, R430, R447, R457): control blocks in ring order, then new slots, then the completions and events that now have room. -/
def State.poll (s : State) (failed : List Nat) : State :=
  let s := s.on (fun b => { b with dev := { b.dev with lastPoll := b.now, eventIrqDone := false }, rings := b.rings.map (fun (r : Ring) => { r with irqDone := false }) })
  let s := s.m.servedRings.foldl (fun s n => s.pollRing failed n) s
  let s := s.m.servedRings.foldl (fun s n => s.takeRing n) s
  let s := (List.range 4).foldl (fun s n => s.drainPosts n 4096) s
  (s.drainEvents 64).on (fun b => ({ b with rings := b.rings.map Ring.settle } : Block).pump)

/-- RING_POLL (R423): at a multiple of POLL_NS; `failed` names the rings whose control block or slots could not be read (R422). -/
def execRingPoll (t : Nat) (failed : List Nat) (s : State) : Host.Outcome State Fault Refusal :=
  let s := s.on (·.advanceTo t)
  let period := Nat.max s.m.dev.pollNs 1
  if (s.m.power.main != .on && s.m.power.main != .island) || s.m.now / period == s.m.dev.lastPoll / period then .next s
  else .next (s.poll (s.m.unreadable failed))

/-- PAYLOAD_READ_DONE (R426, R453, R457): a payload by pointer is read, after `tries` attempts that failed and were tried again (R306, R308), or its third has failed, and the command
completes with HOST_READ_FAILED. -/
def execPayloadReadDone (t ring : Nat) (tag : BitVec 16) (tries : Nat) (s : State) : Host.Outcome State Fault Refusal :=
  let s := s.on (·.advanceTo t)
  match (s.m.ring ring).cmds.find? (fun c => c.tag == tag && c.needsRead) with
  | none => .next s
  | some c =>
    if tries < 3 && s.m.dev.ideState != 2 then
      let bytes := s.mem.host.readBytes (Packet.ptrAddr c.slots) (Packet.payloadLen c.slots)
      .next (s.on (fun b => ((b.bump .retries tries).onRing ring (fun r => { r with cmds := r.cmds.map (fun (x : Taken) => if x.tag == tag then { x with needsRead := false, payload := bytes } else x) })).pump))
    else .next (((s.on (·.bump .retries 2)).complete ring { tag := tag, opcode := c.opcode, status := 8, noIrq := c.noIrq, tDone := 0 }).on (·.pump))

/-! Ends of waiting commands (R451, R452, R570) -/

/-- ORDERING_READ_COMPLETE (R451): the fence completes with its read. In Insecure the read fails in each of its attempts (R306, R453), and the fence with HOST_READ_FAILED
(DEDUCED, log 77). -/
def execOrderingReadComplete (t ring : Nat) (tag : BitVec 16) (s : State) : Host.Outcome State Fault Refusal :=
  let s := s.on (·.advanceTo t)
  match s.m.path.waits.find? (fun w => w.ring == ring && w.tag == tag && w.wait == .fenceHost) with
  | some w => .next (if s.m.dev.ideState == 2 then (s.on (·.bump .retries 2)).endWait w 8 else s.endWait w 0)
  | none => .next s

/-- IMAGE_REGION_WRITE_DONE (R569 to R571): FW_COMMIT completes and the session closes; in RECOVERY a module reset follows 10 ms later. A write that a power-fail warning has
ended does not end again: the image region stays invalid (R575, R580). -/
def execImageRegionWriteDone (t : Nat) (ok : Bool) (s : State) : Host.Outcome State Fault Refusal :=
  let s := s.on (·.advanceTo t)
  match s.m.path.waits.find? (fun w => match w.wait with
    | .fwCommit .. => s.m.boot.committing
    | _ => false) with
  | none => .next s
  | some w =>
    let s := s.on (fun b => (b.flashWritten ok).closeSession)
    if !ok then .next (s.endWait w 0x28)
    else
      let result := match w.wait with
        | .fwCommit v svn => setFld (setFld (0 : BitVec 128) 63 0 v.toNat) 79 64 svn
        | _ => 0
      .next ((s.endWait w 0 result).on (fun b => if b.dev.state == 0 then { b with boot := { b.boot with resetDueAt := some (b.clk.own + 10000000) } } else b))

/-- IDE_KEY_SET_BOUNDARY (R452): a direction switches to the key set that IDE_KEY_GO named; with a key set active in both directions the stream is secure. -/
def execIdeKeySetBoundary (t : Nat) (dir : Bool) (s : State) : Host.Outcome State Fault Refusal :=
  .next (atTime t (fun b =>
    match b.dev.idePending.find? (·.1 == dir) with
    | none => b
    | some (_, k) =>
      let on := if dir then (b.dev.ideOn.1, true) else (true, b.dev.ideOn.2)
      { b with dev := { b.dev with idePending := b.dev.idePending.filter (·.1 != dir), ideOn := on, ideState := if on == (true, true) then 1 else b.dev.ideState,
                                   ideRxSet := if dir then b.dev.ideRxSet else k, ideTxSet := if dir then k else b.dev.ideTxSet } }) s)

end Sys2Proof.Machine
end

