-- ==== Sys2Proof/Machine/Vectors.lean ====
section
/-! DEFINITION. Conformance vectors (R601 to R611): a record of a vector file run on a scratch copy of a croft, what it produces, and the run of a file. The scratch
state is dropped after the record, so that no table, counter, tally or lifetime section of the module moves (R607). -/
namespace Sys2Proof.Machine

/-- A record of a vector file (R604, R605). -/
structure Vec where
  id : Nat
  key : W64
  step : Nat
  group : Nat
  tensors : List (BitVec 256)
  ops : List (BitVec 512)
  table : Option (List (BitVec 128))
  lane : Option (List W64 × List W64)
  input : List Byte
  expect : List Byte
deriving DecidableEq, Repr

/-- The record at an address, and where the next begins (R604, R605). -/
def vecAt (m : Mem) (a : Nat) : Vec × Nat :=
  let head := m.readNat a 64
  let n := bitsOf head 215 208
  let nt := bitsOf head 223 216
  let ops := a + 64
  let tensors := ops + 64 * n
  let table := tensors + 32 * nt
  let lane := table + (if bitsOf head 206 206 == 1 then 4096 else 0)
  let input := lane + (if bitsOf head 205 205 == 1 then 16896 else 0)
  let words (at_ k : Nat) : List W64 := (List.range k).map (fun i => BitVec.ofNat 64 (m.readNat (at_ + 8 * i) 8))
  ({ id := bitsOf head 351 320, key := BitVec.ofNat 64 (bitsOf head 511 448), step := bitsOf head 447 384, group := bitsOf head 319 288,
     ops := (List.range n).map (fun i => BitVec.ofNat 512 (m.readNat (ops + 64 * i) 64)),
     tensors := (List.range nt).map (fun i => BitVec.ofNat 256 (m.readNat (tensors + 32 * i) 32)),
     table := if bitsOf head 206 206 == 1 then some ((List.range 256).map (fun i => BitVec.ofNat 128 (m.readNat (table + 16 * i) 16))) else none,
     lane := if bitsOf head 205 205 == 1 then some (words lane 64, words (lane + 512) 2048) else none,
     input := m.readBytes input (bitsOf head 287 256), expect := m.readBytes (input + bitsOf head 287 256) (bitsOf head 255 224) },
   a + bitsOf head 383 352)

/-! The scratch state -/

/-- Where the operations of a record stand, by croft and place in its stream: on the croft under test; the parts of a split after the first on the crofts that
follow it, since parts run on crofts of their own (R100; DESIGN CHOICE, log 85). -/
def placesOf (splits : Bool) (croft : Nat) (ops : List (BitVec 512)) : List (Nat × Nat) :=
  (ops.foldl (fun (done : List (BitVec 512 × Nat × Nat)) op =>
    let c := match if splits then done.reverse.find? (fun x => followsPart x.1 op) else none with
      | some x => (x.2.1 + 1) % 192
      | none => croft
    done ++ [(op, c, (done.filter (fun x => x.2.1 == c)).length)]) []).map (·.2)

/-- The state in which a record runs (R607): its inputs from address 0 of an empty memory, its local tensor table, its tables and programs on the croft, else those
that the croft holds, and a job of JOB_KEY and STEP; nothing else. -/
def State.scratch (s : State) (croft : Nat) (v : Vec) (places : List (Nat × Nat)) : State :=
  let stream (c : Nat) : List (BitVec 512) := ((v.ops.zip places).filter (fun x => x.2.1 == c)).map (·.1)
  let al : Almanac := { crc := 0, narrowNs := 0, wideNs := 0, layers := 65535, micro := 0, chunk := 0, tensors := v.tensors, companions := [], bcast := [],
                        mbPred := [], streams := (List.range 192).map stream }
  let old := s.m.croft croft
  let mine (c : Nat) : Croft :=
    { drainTable := v.table.getD old.drainTable, progTable := (v.lane.map (·.1)).getD old.progTable, progStore := (v.lane.map (·.2)).getD old.progStore,
      todo := List.range (stream c).length }
  let ends := v.tensors.map (fun x =>
    let t := tensorOf x
    Nat.max (t.address + 32768 * t.tiles) (if t.magpie then t.ovfBase + 192 * 32768 else 0))
  let pages := (List.range (ceilDiv (ends.foldl Nat.max v.input.length) 65536)).map (fun n => ({ page := n, parcel := 0, tier := 1, frame := n } : Page))
  let b : Block := { tiers := { pages := pages }, clk := s.m.clk, boot := s.m.boot, dev := { state := 4 }, crofts := (List.range 192).map mine,
                     job := { key := v.key, step := v.step, begun := true, clip := some 0x3F800000#32, almanac := some al } }
  { m := b, mem := { parcel := Mem.writeBytes [] 0 v.input }, pending := [] }

/-- The state a command of the scratch run answers. -/
def State.ran (s : State) : Host.Outcome State Fault Refusal → State
  | .next t => t
  | _ => s

/-- The slot of a lane program that comes next runs (R166 to R170). -/
def State.laneStep (s : State) (croft : Nat) : State :=
  match s.m.nextSlot croft with
  | none => s
  | some (_, ins) =>
    s.ran (match lopOf ins with
      | 0x00 => execLaneNop croft s
      | 0x01 => execAdd croft s
      | 0x02 => execSub croft s
      | 0x03 => execMul croft s
      | 0x04 => execFma croft s
      | 0x05 => execDiv croft s
      | 0x06 => execMax croft s
      | 0x07 => execMin croft s
      | 0x08 => execAbs croft s
      | 0x09 => execNeg croft s
      | 0x0A => execRecip croft s
      | 0x0B => execSqrt croft s
      | 0x0C => execRsqrt croft s
      | 0x0D => execExp2 croft s
      | 0x0E => execLog2 croft s
      | 0x0F => execCmp croft s
      | 0x10 => execSel croft s
      | 0x11 => execMov croft s
      | 0x12 => execConst croft s
      | 0x13 => match lopImm ins with
        | 0 => execLoad croft s
        | 1 => execLoadMasterWeight croft s
        | 2 => execLoadClipFactor croft s
        | 3 => execLoadLr croft s
        | 8 => execLoadStepNumber croft s
        | _ => execLoadHyp croft s
      | 0x14 => match lopMode ins with
        | 0 => execStore croft s
        | 1 => execStoreMaster croft s
        | 2 => execStoreFirstMoment croft s
        | 3 => execStoreSecondMoment croft s
        | 4 => execStoreForwardCopy croft s
        | _ => execStoreBackwardCopy croft s
      | 0x15 => execDraw croft s
      | 0x16 => execShuf croft s
      | 0x17 => execRedAdd croft s
      | 0x18 => execRedMax croft s
      | 0x1E => execPhaseEnd croft s
      | 0x1F => execEndProgram croft s
      | _ => .next s)

/-- A lane run goes on to its end. -/
def State.runLane (s : State) (croft : Nat) : Nat → State
  | 0 => s
  | n + 1 => if (s.m.nextSlot croft).isNone then s else (s.laneStep croft).runLane croft n

/-- The operation at the head of a croft's stream issues (R156 to R178). -/
def State.issueHead (s : State) (croft i : Nat) : State :=
  s.ran (match opCode (s.m.op croft i) with
    | 0x01 => execFaMatmul croft {} s
    | 0x02 => execBaMatmulWs croft {} s
    | 0x03 => execBaMatmulOs croft {} s
    | 0x08 => execLaneRun croft {} s
    | 0x0C => execStileWiden { croft := croft } s
    | 0x0D => execStileNarrow { croft := croft } s
    | 0x18 => execCommit croft true s
    | 0x19 => execFenceCroft croft s
    | 0x1A => execWaitTime croft s
    | 0x1F => execAlmanacNop croft s
    | _ => .next s)

/-! The run of a record -/

/-- A record in its run: the scratch state, and the status words of the operations by croft and place. -/
structure VecRun where
  s : State
  words : List ((Nat × Nat) × Nat × Nat) := []
deriving DecidableEq, Repr

/-- The exponent and the member count under which a record exports slices: the manual gives none outside a job (R164, R192), free values (log 8). -/
def Block.vectorExport (b : Block) : Int × Nat := (signed 10 ((Config.freeWord b.tiers.openCtr).toNat % 1024), (Config.freeWord (b.tiers.openCtr + 1)).toNat % 65535 + 1)

/-- The slices of a KQ_OUT operation in a record: converted (R164), counted, and written to OUTPUT in the layout of R57 (log 85). -/
def State.vectorSlices (s : State) (e : Int) (n croft : Nat) (t : Tile) : State :=
  let op := s.m.op croft t.index
  let out := opOut op
  let tout := (s.m.tensor out.tensor).getD {}
  let w := if opFlag op 8 then 3 else 4
  let top := 2 ^ (8 * w - 1) - 1
  let rnd (r j : Nat) : Rnd :=
    if (drainCtrl (opDrain op)).sr then .sr (draw s.m.job.key (opStream op) s.m.job.step ((out.row + r) * tout.cols + out.col + j)) else .rne
  let rows := ((List.range t.cells.length).zip t.cells).map (fun (r, bs) => (r, ((List.range bs.length).zip bs).map (fun (j, b) => convEntry (rnd r j) top (top / n) e b)))
  let mem := rows.foldl (fun m (r, cs) =>
    m.writeBytes (tout.sliceAddr (out.row + r) (out.col / 256))
      (slice ((cs.map (fun c => leBytes w (unsigned (8 * w) c.q))).flatten) 0 (256 * w) ++ leBytes 4 (unsigned 10 e))) s.mem.parcel
  let counts := rows.foldl (fun k (_, cs) => cs.foldl (fun k c => mergeCounts k (countEnc tout.tag tout.format c.enc)) k) []
  { s with mem := { s.mem with parcel := mem }, m := { s.m with tally := { s.m.tally with live := s.m.tally.live.release counts } } }

/-- The groups that a scratch run sees: while a KQ_OUT operation issues, one of one member and 255 micro-batches, which the check at issue finds; none while it drains, so that
no slice leaves for a mill. -/
def State.withGroup (s : State) (op : Option (BitVec 512)) : State :=
  s.on (fun b => { b with desc := { b.desc with groups := match op with
    | some op => [{ index := opAux op, desc := setFld (setFld (setFld (0 : BitVec 512) 261 248 1) 247 240 255) 211 211 (b2n (opFlag op 8)) }]
    | none => [] } })

/-- A tile of the run drains (R113, R605): its status words are those of the whole tile, for every part of a split (log 85). -/
def VecRun.drain (v : VecRun) (free : Int × Nat) (croft : Nat) (t : Tile) : VecRun :=
  let s := v.s
  let ids := s.m.splitOf croft t.index
  let got := ids.filterMap (fun (c, i) => if (c, i) == (croft, t.index) then some t else (s.m.mill.parts.find? (fun p => p.croft == c && p.tile.index == i)).map (·.tile))
  let words := match got, ids with
    | p :: rest, (c, _) :: _ =>
      if got.length != ids.length then v.words
      else
        let whole := if rest.isEmpty then p else combineTiles p rest
        let w := (accStatus whole.cells whole.setNonfin whole.vanish whole.clamp, drainStatus (s.drain c whole).flags)
        ids.foldl (fun l x => assocSet x w l) v.words
    | _, _ => v.words
  let s := (s.withGroup none).finishTile croft t {}
  let kq := opFlag (s.m.op croft t.index) 7 && !(s.m.croft croft).inFlight.any (fun e => e.index == t.index) && !(s.m.croft croft).redo.any (fun x => x.1 == t.index)
  { v with s := if kq then s.vectorSlices free.1 free.2 croft t else s, words := words }

/-- One turn of a run: a tile drains, a lane run goes on, a repeat issues; with none of them, the operation at croft and place does, if it still waits. The second part is false
where nothing is left to do. -/
def VecRun.turn (v : VecRun) (free : Int × Nat) (crofts : List Nat) (at_ : Nat × Nat) : VecRun × Bool :=
  let b := v.s.m
  let tileOf (c : Nat) : Option Tile := match (b.croft c).fa.tile with
    | some t => some t
    | none => (b.croft c).ba.tile
  if crofts.any (fun c => (b.croft c).stopped) then (v, false)
  else match crofts.find? (fun c => (tileOf c).isSome), crofts.find? (fun c => (b.croft c).lane.isSome), crofts.find? (fun c => !(b.croft c).redo.isEmpty) with
    | some c, _, _ => match tileOf c with
      | some t => (v.drain free c t, true)
      | none => (v, false)
    | none, some c, _ =>
      let op := b.runOp c
      ({ v with s := v.s.runLane c (opRows op * (ceilDiv (b.rowLen op) 256 + 1) * 2049) }, true)
    | none, none, some c => ({ v with s := v.s.ran (execRepeatWider { croft := c } v.s) }, true)
    | none, none, none =>
      if (b.croft at_.1).todo.head? == some at_.2 then ({ v with s := (v.s.withGroup (some (b.op at_.1 at_.2))).issueHead at_.1 at_.2 }, true) else (v, false)

/-- An operation of a record runs until nothing of it is left to do. -/
def VecRun.runOp (free : Int × Nat) (crofts : List Nat) (at_ : Nat × Nat) : Nat → VecRun → VecRun
  | 0, v => v
  | n + 1, v => match v.turn free crofts at_ with
    | (w, true) => VecRun.runOp free crofts at_ n w
    | (w, false) => w

/-- The status of a run (R608): the code of an error that stands on the replay or the second run, TIMEOUT where an operation never completes, else SUCCESS. -/
def VecRun.status (v : VecRun) (crofts : List Nat) : Nat :=
  let b := v.s.m
  if crofts.any (fun c => (b.croft c).stopped) then
    match b.faults.arrived with
    | e :: _ => if e.code == 0x22 || e.code == 0x24 then 0x23 else e.code
    | [] => 0x23
  else if crofts.any (fun c => !(b.croft c).todo.isEmpty || !(b.croft c).inFlight.isEmpty) then 0x0A else 0

/-- The local tensors that a record's operations write, in table order. -/
def Vec.written (v : Vec) : List Nat :=
  (List.range v.tensors.length).filter (fun i => v.ops.any (fun op => (isArray op || [8, 0x0C, 0x0D].contains (opCode op)) && (opOut op).tensor == i))

/-- What the operations of a record leave for its expected area (R605). -/
def VecRun.area (r : VecRun) (v : Vec) (places : List (Nat × Nat)) : List Byte :=
  let tensors := v.tensors.map tensorOf
  let statusOf (x : Nat × Nat) : List Byte :=
    let w := (assocGet x r.words).getD (0, 0)
    leBytes 4 w.1 ++ leBytes 4 w.2 ++ leBytes 8 (if (r.s.m.croft x.1).rejected.contains x.2 then 3 else 0)
  let bytesOf (i : Nat) : List Byte := let t := tensors.getD i {}; r.s.mem.parcel.readBytes t.address (32768 * t.tiles)
  let countsOf (i : Nat) : List Byte :=
    let t := tensors.getD i {}
    counterBlock r.s.m.tally.live t.tag t.format
      ++ (if v.ops.any (fun op => isArray op && (opOut op).tensor == i) then counterBlock r.s.m.tally.live t.tag 12 else [])
  (places.map statusOf).flatten ++ (v.written.map bytesOf).flatten ++ (v.written.map countsOf).flatten

/-! The families without operations (R605) -/

/-- The elements and the exponent of a slice with its trailer, of elements of w bytes (R57, R60). -/
def sliceAt (w : Nat) (bs : List Byte) : List Int × Int :=
  ((List.range 256).map (fun i => max (-(2 ^ (8 * w - 1) - 1)) (signed (8 * w) (leAt bs (w * i) w))), signed 10 (leAt bs (256 * w) 4 % 1024))

/-- A slice with its trailer, and its norm term under NORM_ANCHOR 0 (R57, R199). -/
def sliceArea (w : Nat) (elems : List Int) (e : Int) : List Byte :=
  (elems.map (fun q => leBytes w (unsigned (8 * w) q))).flatten ++ leBytes 4 (unsigned 10 e) ++ leBytes 16 (normTerm elems e 0)

/-- MIL (R365, R379, R199): slices combine; or the first result and the excesses of each member are re-reduced. The record names neither the element width nor the members: the
width is read from the length of the expected area, and the members are counted by their excesses (DESIGN CHOICE, log 85). Slices of unlike exponents are an error
(R365). -/
def milArea (input : List Byte) (expect : Nat) : Nat × List Byte :=
  let w := if expect == 256 * 3 + 20 then 3 else 4
  let n := 256 * w + 4
  let first := sliceAt w input
  if input.length % n == 0 then
    let rest := (List.range (input.length / n - 1)).map (fun k => sliceAt w (input.drop (n * (k + 1))))
    if rest.any (fun x => x.2 != first.2) then (0x2C, [])
    else (0, sliceArea w (rest.foldl (fun a x => (a.zip x.1).map (fun (p, q) => p + q)) first.1) first.2)
  else
    let members := (input.length - n) / 2048
    let excess (i : Nat) : Int := (List.range members).foldl (fun t k => t + signed 64 (leAt input (n + 2048 * k + 8 * i) 8)) 0
    let cap : Int := (Nat.max members 1 * ((2 ^ (8 * w - 1) - 1) / Nat.max members 1) : Nat)
    (0, sliceArea w (((List.range 256).zip first.1).map (fun (i, q) => max (-cap) (min cap (rneDiv (q + excess i) 4)))) (first.2 + 2))

/-- TCD (R282 to R284): each tile's header in the cellar under the codec, and its stored bytes. The FORMAT code is that of an unscaled tensor (log 85). -/
def tcdArea : Nat → List Byte → List Byte
  | 0, _ => []
  | n + 1, bs =>
    if bs.length < 32776 then []
    else
      let kind := elemsOf { format := leAt bs 0 8 }
      let tile := slice bs 8 32768
      let h := tileHeader 2 true kind tile
      leBytes 8 h.toNat ++ storedTile h kind tile ++ tcdArea n (bs.drop 32776)

/-- DIG (R325, R389, R518): CRC-64, CRC-32C, and for a string of 65,544 bytes h(page). -/
def digArea : Nat → List Byte → List Byte
  | 0, _ => []
  | n + 1, bs =>
    if bs.length < 8 then []
    else
      let len := leAt bs 0 8
      let x := slice bs 8 len
      leBytes 8 (crc64 x).toNat ++ leBytes 4 (crc32c x).toNat ++ (if len == 65544 then leBytes 8 (crc64 x).toNat else []) ++ digArea n (bs.drop (8 + len))

/-- RNG (R77): the draw of each stream and index. -/
def rngArea (key : W64) (step : Nat) (bs : List Byte) : List Byte :=
  ((List.range (bs.length / 16)).map (fun k => leBytes 2 (draw key (leAt bs (16 * k) 8) step (leAt bs (16 * k + 8) 8)))).flatten

/-- A record runs on a croft (R607): its status, and the bytes it produces for its expected area. -/
def State.runVector (s : State) (family croft : Nat) (v : Vec) : Nat × List Byte :=
  match family with
  | 0x0B => milArea v.input v.expect.length
  | 0x0C => (0, tcdArea v.input.length v.input)
  | 0x0D => (0, digArea v.input.length v.input)
  | 0x0E => (0, rngArea v.key v.step v.input)
  | _ =>
    let places := placesOf (family == 4) croft v.ops
    let crofts := (places.map (·.1)).foldl (fun l c => insertNew c l) [croft]
    let r := places.foldl (fun r x => VecRun.runOp s.m.vectorExport crofts x (16 * crofts.length + 16) r) { s := s.scratch croft v places }
    match r.status crofts with
    | 0 => (0, r.area v places)
    | n => (n, [])

/-! The run of a file -/

/-- An entry of the report (R609): the vector, the croft, the kind, the status, and the first byte that differs, with the byte expected and the one produced. -/
def checkEntry (vectorId croft kind status : Nat) (diff : Nat × Byte × Byte := (0, 0, 0)) : BitVec 256 :=
  setFld (setFld (setFld (setFld (setFld (setFld (setFld (0 : BitVec 256) 31 0 vectorId) 39 32 croft) 40 40 kind) 55 48 status) 95 64 diff.1) 103 96 diff.2.1.toNat)
    111 104 diff.2.2.toNat

/-- The first byte in which what a vector produced differs from what stands for it. -/
def firstDiff (want got : List Byte) : Option (Nat × Byte × Byte) :=
  (((List.range want.length).zip (want.zip (slice got 0 want.length))).find? (fun x => x.2.1 != x.2.2)).map (fun x => (x.1, x.2.1, x.2.2))

/-- A run of a file so far: what its report counts and lists, what the vectors of cross-format groups produced, by group, vector and croft, the errors raised, and
whether the run has stopped. -/
structure Check where
  report : CheckRun := { run := 0, failed := 0, entries := [] }
  outs : List (Nat × Nat × Nat × List Byte) := []
  errors : List Nat := []
  stopped : Bool := false
deriving DecidableEq, Repr

/-- One vector runs on one croft (R608). `late` lists the vectors and crofts that ran for 10 ms. -/
def State.checkVector (s : State) (family : Nat) (stopFirst : Bool) (late : List (Nat × Nat)) (v : Vec) (k : Check) (croft : Nat) : Check :=
  if k.stopped then k
  else
    let (status, out) := if late.contains (v.id, croft) then (0x0A, []) else s.runVector family croft v
    let entry := if status != 0 then some (checkEntry v.id croft 0 status) else (firstDiff v.expect out).map (fun d => checkEntry v.id croft 0 0 d)
    { report := { run := k.report.run + 1, failed := k.report.failed + b2n entry.isSome, entries := k.report.entries ++ entry.toList },
      outs := if v.group == 0xFFFFFFFF then k.outs else k.outs ++ [(v.group, v.id, croft, slice out 0 v.expect.length)],
      errors := if status == 0 || status == 0x0A then k.errors else k.errors ++ [status],
      stopped := stopFirst && entry.isSome }

/-- A cross-format group has run (R611): an entry of KIND 1 for each record that differs from the group's first on the same croft. -/
def Check.compare (k : Check) (group : Nat) : Check :=
  let mine := k.outs.filter (fun x => x.1 == group)
  let entries := mine.filterMap (fun (_, id, croft, out) =>
    ((mine.find? (fun x => x.2.2.1 == croft)).bind (fun x => firstDiff x.2.2.2 out)).map (fun d => checkEntry id croft 1 0 d))
  { k with report := { k.report with entries := k.report.entries ++ entries } }

/-- The records of a file from an address on, in file order, each on the crofts in turn (R607); a group is compared after its last record (R611). -/
def State.checkFile (s : State) (family : Nat) (stopFirst : Bool) (late : List (Nat × Nat)) (crofts : List Nat) : Nat → Nat → Check → Check
  | 0, _, k => k
  | n + 1, a, k =>
    if k.stopped then k
    else
      let (v, next) := vecAt s.mem.parcel a
      let k := crofts.foldl (fun k c => s.checkVector family stopFirst late v k c) k
      let rec later : Nat → Nat → Bool
        | 0, _ => false
        | m + 1, a => let (w, next) := vecAt s.mem.parcel a; w.group == v.group || later m next
      let k := if v.group != 0xFFFFFFFF && !k.stopped && !later n next then k.compare v.group else k
      s.checkFile family stopFirst late crofts n next k

end Sys2Proof.Machine
end

