-- ==== Sys2Proof/Machine/HostQueue.lean ====
section
/-! DEFINITION. Host commands: the checks every command shares (R432 to R434, R439), NOP, the reads of tallies and digests, fences (R449 to R451), link IDE keys
(R452), firmware staging and attestation (R569 to R573), and the self-check (R606 to R612). -/
namespace Sys2Proof.Machine

/-! Device states (R434, R439, R568) -/

/-- The states in which an opcode is accepted (R434, R439, R568): 0 RECOVERY, 1 SELF_TEST, 2 READY, 3 LOADED, 4 RUNNING, 5 ABORTING, 6 OUT_OF_SERVICE. -/
def acceptedIn : Nat → List Nat
  | 0x00 | 0x3A => [1, 2, 3, 4, 5, 6]
  | 0x02 | 0x04 | 0x0A | 0x0C | 0x20 => [2, 3, 4, 5, 6]
  | 0x01 | 0x03 | 0x0B | 0x21 | 0x28 | 0x2A => [2, 3, 4, 5]
  | 0x08 | 0x1A | 0x1B => [2, 3]
  | 0x09 | 0x18 | 0x19 | 0x30 | 0x31 => [2, 3, 4]
  | 0x10 | 0x40 => [2]
  | 0x11 | 0x12 | 0x15 => [3]
  | 0x13 | 0x14 => [4]
  | 0x29 => [3, 4]
  | 0x38 | 0x39 => [0, 2]
  | _ => []

/-- Step 5 of R432: the status with which the device state refuses an opcode. -/
def Block.refusal (b : Block) (op : Nat) : Option Nat := if (acceptedIn op).contains b.dev.state then none else if b.dev.state == 6 then some 7 else some 5

/-- A host command at the mailbox (R32, R432): refused by the device state, or carried out. -/
def State.host (s : State) (h : Hdr) (op : Nat) (f : State → State) : State :=
  match s.m.refusal op with
  | some status => s.finish h op status
  | none => f s

/-- BAD_PARAMETER naming a packet byte (R428, R620). -/
def State.bad (s : State) (h : Hdr) (op byte : Nat) : State := s.finish h op 2 0 (Nat.min byte 0xFFFFFF)

/-- A command with output (R429, R439): its buffer must hold it. -/
def State.output (s : State) (h : Hdr) (op room : Nat) (bytes : List Byte) (result : BitVec 128 := 0) (byte : Nat := 16) : State :=
  if room < bytes.length then s.bad h op byte else (s.writeHost h.ptrAddr bytes).finish h op 0 result

/-- A command that goes on waits under its tag. -/
def State.await (s : State) (h : Hdr) (op : Nat) (w : WaitFor) : State :=
  s.on (fun b => { b with path := { b.path with waits := b.path.waits ++ [{ ring := h.ring, tag := h.tag, opcode := op, noIrq := h.noIrq, wait := w }] } })

/-- NOP (R439). -/
def execNop (h : Hdr) (s : State) : Host.Outcome State Fault Refusal := .next (s.host h 0x00 (fun s => s.finish h 0x00 0))

/-- TALLY_READ (R226, R228, R229, R439): a slot of the frozen bank with only the tags in range. -/
def execTallyRead (h : Hdr) (firstTag lastTag : Nat) (s : State) : Host.Outcome State Fault Refusal :=
  .next (s.host h 0x20 (fun s =>
    let f := s.m.tally.frozen
    let bytes := s.m.slotBytes f (s.m.tallyTags.filter (fun t => firstTag ≤ t && t ≤ lastTag))
    s.output h 0x20 h.payloadLen (bytes ++ slotTrailer f.step (bytes.length + 64)) (BitVec.ofNat 128 f.step)))

/-- DIGEST_READ (R390, R439). -/
def execDigestRead (h : Hdr) (group : Nat) (s : State) : Host.Outcome State Fault Refusal :=
  .next (s.host h 0x21 (fun s =>
    match s.m.group group with
    | none => s.bad h 0x21 24
    | some _ => s.output h 0x21 h.payloadLen (s.m.digestRecords group)))

/-! Fences (R449 to R451) -/

/-- The command of a ring with a tag, taken and not completed (R427). -/
def Block.takenCmd (b : Block) (ring : Nat) (tag : BitVec 16) : Option Taken := (b.ring ring).cmds.find? (fun c => c.tag == tag)

/-- The commands of any ring taken before one and not completed (R449). -/
def Block.outstanding (b : Block) (ring : Nat) (tag : BitVec 16) : List (Nat × BitVec 16) :=
  let before (c : Taken) : Bool := match b.takenCmd ring tag with
    | some own => c.order < own.order
    | none => true
  ((List.range 4).map (fun n => ((b.ring n).cmds.filter before).map (fun c => (n, c.tag)))).flatten.filter (fun x => x != (ring, tag))

/-- The writes of commands that wait for a page or for readers are done (R449). -/
def Block.writesDone (b : Block) : Bool := b.tiers.heldWrites.all (fun w => w.owner.isSome)

/-- FENCE_MODULE (R449): waits for every command taken before it. -/
def execFenceModule (h : Hdr) (s : State) : Host.Outcome State Fault Refusal :=
  .next (s.host h 0x28 (fun s =>
    let before := s.m.outstanding h.ring h.tag
    if before.isEmpty && s.m.writesDone then s.finish h 0x28 0 else s.await h 0x28 (.fenceModule before)))

/-- FENCE_GROUP (R450): the marker goes up once acknowledgements cover the packets sent to the group. -/
def execFenceGroup (h : Hdr) (group fenceId timeoutUs : Nat) (s : State) : Host.Outcome State Fault Refusal :=
  .next (s.host h 0x29 (fun s =>
    match s.m.group group with
    | none => s.bad h 0x29 24
    | some d =>
      if timeoutUs < 1 || 1000000 < timeoutUs then s.bad h 0x29 28
      else
        let acks := (s.m.fab.e2e.filter (fun e => s.inGroup d e.flow.dstModule)).map (fun e => (e.flow, e.seq))
          ++ (s.m.fab.backlog.filter (fun x => s.inGroup d x.pkt.dstModule)).map (fun x => (x.pkt.flow, x.pkt.seq))
          ++ s.m.fab.lost.filter (fun x => s.inGroup d x.1.dstModule)
        (s.await h 0x29 (.fenceGroup group (fenceId % 256) (s.m.span + 1000 * timeoutUs) acks false)).sendMarkers))

/-- FENCE_HOST (R451): completes when its ordering read does. -/
def execFenceHost (h : Hdr) (s : State) : Host.Outcome State Fault Refusal :=
  .next (s.host h 0x2A (fun s => s.await h 0x2A .fenceHost))

/-- The module fences that have nothing left to wait for complete (R449). -/
def State.settleFences (s : State) : State :=
  s.m.path.waits.foldl (fun s w => match w.wait with
    | .fenceModule before =>
      if before.all (fun x => !(s.m.ring x.1).cmds.any (fun c => c.tag == x.2)) && s.m.writesDone then s.endWait w 0 else s
    | _ => s) s

/-! Link IDE (R452) -/

/-- IDE_KEY_SET (R452): a sub-stream's key and initial IV for one key set of a direction. Substream 3 is reserved. -/
def execIdeKeySet (h : Hdr) (streamId substream : Nat) (dir keySet : Bool) (payload : List Byte) (s : State) : Host.Outcome State Fault Refusal :=
  .next (s.host h 0x30 (fun s =>
    if substream == 3 then s.bad h 0x30 25
    else
      let k : IdeKey := { sub := substream, dir := dir, set := keySet, bits := BitVec.ofNat 320 (leAt payload 0 40) }
      (s.on (fun b => { b with dev := { b.dev with ideStream := streamId % 256, ideKeys :=
                                                     b.dev.ideKeys.filter (fun x => !(x.sub == substream && x.dir == dir && x.set == keySet)) ++ [k] } })).finish h 0x30 0))

/-- IDE_KEY_GO (R452): with ENABLE, the direction switches at its next key-set boundary, if the three sub-streams of the set are set. -/
def execIdeKeyGo (h : Hdr) (streamId : Nat) (dir keySet enable : Bool) (s : State) : Host.Outcome State Fault Refusal :=
  .next (s.host h 0x31 (fun s =>
    if streamId != s.m.dev.ideStream then s.bad h 0x31 24
    else if !enable then s.finish h 0x31 0
    else if !(List.range 3).all (fun n => s.m.dev.ideKeys.any (fun x => x.sub == n && x.dir == dir && x.set == keySet)) then s.bad h 0x31 25
    else (s.on (fun b => { b with dev := { b.dev with idePending := b.dev.idePending.filter (·.1 != dir) ++ [(dir, keySet)] } })).finish h 0x31 0))

/-! Firmware and attestation (R569, R570, R573) -/

/-- Is a staging session of the other path open, or a commit running (R569)? -/
def Block.stagingBusy (b : Block) : Bool := b.boot.session == .pldm || b.boot.committing

/-- FW_STAGE (R569, R570). -/
def execFwStage (h : Hdr) (offset : Nat) (payload : List Byte) (s : State) : Host.Outcome State Fault Refusal :=
  .next (s.host h 0x38 (fun s =>
    if s.m.stagingBusy then s.finish h 0x38 4
    else if offset % 64 != 0 then s.bad h 0x38 24
    else if h.payloadLen % 64 != 0 then s.bad h 0x38 16
    else if 33554432 < offset + h.payloadLen then s.bad h 0x38 24
    else
      let s := s.on (fun b => if b.boot.session == .closed then b.openSession .ring else b)
      let s := s.on (fun b => { b with boot := { b.boot with staged := b.boot.staged.writeBytes offset (slice payload 0 h.payloadLen),
                                                             highWater := Nat.max b.boot.highWater (offset + h.payloadLen) } })
      s.finish h 0x38 0 (setFld (0 : BitVec 128) 31 0 s.m.boot.highWater)))

/-- FW_COMMIT (R569, R570, R575): the staged image is checked and verified, and the flash write begins; a commit with no session gives JOB_STATE. -/
def execFwCommit (h : Hdr) (imageLen_ : Nat) (s : State) : Host.Outcome State Fault Refusal :=
  .next (s.host h 0x39 (fun s =>
    if s.m.stagingBusy then s.finish h 0x39 4
    else if s.m.boot.session == .closed then s.finish h 0x39 5
    else
      let head := s.m.stagedBytes 64
      if imageLen_ != imageLen head || s.m.boot.highWater < imageLen_ then s.bad h 0x39 24
      else if !s.m.imageOk (s.m.stagedBytes imageLen_) then (s.on (·.closeSession)).finish h 0x39 0x0B
      else (s.on (fun b => { b with boot := { b.boot with committing := true } })).await h 0x39 (.fwCommit (imageVersion head) (imageSvn head))))

/-- The body of an attestation report (R573). -/
def Block.attestBody (b : Block) (nonce : List Byte) : List Byte :=
  leBytes 256 ((([(2047, 1792, leAt nonce 0 32), (1791, 1536, leAt (Config.shake256 32 b.boot.image) 0 32), (1535, 1280, leAt (Config.shake256 32 (slice b.boot.eepromRecord 0 30048)) 0 32),
    (1279, 1216, b.boot.runVersion.toNat), (1215, 1152, fld b.boot.recordBody 1423 1360), (1151, 1088, b.now), (1087, 1072, b.boot.runSvn), (1071, 1056, b.boot.romVersion),
    (1055, 1042, b.moduleId), (1041, 1026, b.job.id), (1025, 1022, b.dev.state), (1021, 1020, b.dev.ideState), (1019, 1016, b.boot.stepping),
    (1015, 1015, b2n (b.count (.life 1 2) != 0)), (1014, 1014, b2n b.timeValid), (1013, 1006, b.dev.oosReason), (991, 960, b.count (.life 1 0)), (31, 16, 1), (15, 0, 0x4154)] :
      List (Nat × Nat × Nat))).foldl (fun v ((hi, lo, x) : Nat × Nat × Nat) => putBits v hi lo x) 0)

/-- The report: body, record, and the signature over both (R573). -/
def Block.attestReport (b : Block) (nonce : List Byte) : List Byte :=
  let signed_ := b.attestBody nonce ++ slice b.boot.eepromRecord 0 30048
  signed_ ++ b.signature signed_

/-- ATTEST (R573). -/
def execAttest (h : Hdr) (outLen : Nat) (nonce : List Byte) (s : State) : Host.Outcome State Fault Refusal :=
  .next (s.host h 0x3A (fun s =>
    if outLen < 80160 then s.bad h 0x3A 24
    else (s.writeHost h.ptrAddr (s.m.attestReport nonce)).finish h 0x3A 0 (setFld (0 : BitVec 128) 31 0 80160)))

/-! The self-check (R601 to R612) -/

/-- The parcel that the vector file of a running self-check lies in (R612). -/
def Block.checkParcel (b : Block) : Option Nat :=
  (b.path.waits.filterMap (fun w => match w.wait with
    | .selfCheck set _ _ _ _ _ => some (set % 65536)
    | _ => none)).head?

/-- The crofts that a running self-check tests. -/
def Block.checkCrofts (b : Block) : List Nat :=
  (b.path.waits.map (fun w => match w.wait with
    | .selfCheck _ c _ _ _ _ => if c == 0xFF then List.range 192 else [c]
    | _ => [])).flatten

/-- Does an array operation of a record drain, and on the float path (R110, R164)? -/
def drainsFloat (op : BitVec 512) : Bool := isArray op && !opFlag op 7 && !(drainCtrl (opDrain op)).table

/-- Does a lane operation of a record quantise (R124, R610): a STORE of MODE 0 into a target that is scaled or not KF32, or of MODE 2 to 5. -/
def quantises (tensors : List Tensor) (croft : Croft) (op : BitVec 512) : Bool :=
  opCode op == 8 && (match croft.program (opWord op 1 % 64) with
    | none => false
    | some (_, prog) => prog.any (fun i => lopOf i == 0x14 && (2 ≤ lopMode i || (lopMode i == 0 && (match tensors[(opOut op).tensor]? with
      | some t => t.scaled || t.format != 8
      | none => false)))))

/-- A record of a vector file at an offset: does it break R606, and where the next begins. -/
def recordBad (m : Mem) (family at_ : Nat) : Bool × Nat :=
  let head := m.readNat at_ 64
  let n := bitsOf head 215 208
  let nt := bitsOf head 223 216
  let ops := (List.range n).map (fun i => BitVec.ofNat 512 (m.readNat (at_ + 64 + 64 * i) 64))
  let tensors := (List.range nt).map (fun i => tensorOf (BitVec.ofNat 256 (m.readNat (at_ + 64 + 64 * n + 32 * i) 32)))
  let lanes := at_ + 64 + 64 * n + 32 * nt + (if bitsOf head 206 206 == 1 then 4096 else 0)
  let croft : Croft := if bitsOf head 205 205 == 1 then
      { progTable := (List.range 64).map (fun i => BitVec.ofNat 64 (m.readNat (lanes + 8 * i) 8)),
        progStore := (List.range 2048).map (fun i => BitVec.ofNat 64 (m.readNat (lanes + 512 + 8 * i) 8)) }
    else {}
  let float := ops.any drainsFloat
  let lane := ops.any (quantises tensors croft)
  let gen := !float && !lane
  (([1, 2, 4].contains family && float) || (family == 7 && !float && !lane) || (bitsOf head 207 207 == 1) != gen, at_ + bitsOf head 383 352)

/-- Do the records of a file break R606? -/
def recordsBad (m : Mem) (family at_ : Nat) : Nat → Bool
  | 0 => false
  | n + 1 =>
    let (bad, next) := recordBad m family at_
    bad || recordsBad m family next n

/-- The packet byte of what a self-check may not run (R606): a reserved bit of SET, the file of its parcel, the croft. -/
def State.checkBad (s : State) (set croft : Nat) : Option Nat :=
  if bitsOf set 31 25 != 0 then some 27
  else if 191 < croft && croft != 0xFF then some 28
  else if set % 65536 == 0xFFFF then none
  else match s.m.parcel (set % 65536) with
    | none => some 24
    | some p =>
      let m := s.mem.parcel
      let head := m.readNat p.base 64
      let len := bitsOf head 191 128
      if bitsOf head 31 0 != 0x42585646 || len < 64 || 65536 * p.pages < len
          || (crc32c (m.readBytes (p.base + 64) (len - 64))).toNat != bitsOf head 63 32
          || recordsBad m (bitsOf head 95 88) (p.base + 64) (bitsOf head 127 96) then some 24
      else none

/-- SUITE_VERSION of the file a self-check runs; 0 for the ROM set (R609). -/
def State.suiteVersion (s : State) (set : Nat) : Nat :=
  if set % 65536 == 0xFFFF then 0
  else match s.m.parcel (set % 65536) with
    | none => 0
    | some p => bitsOf (s.mem.parcel.readNat p.base 64) 87 72

/-- The run of a self-check (R607, R608, R611): that of the file in the parcel, or, for the boot-ROM set, whose vectors the manual does not give, what comes with the
command (log 13, 85). The second part holds the errors that the vectors raised. -/
def State.checkRun (s : State) (set croft : Nat) (rom : CheckRun) (late : List (Nat × Nat)) : CheckRun × List Nat :=
  if set % 65536 == 0xFFFF then (rom, [])
  else match s.m.parcel (set % 65536) with
    | none => (rom, [])
    | some p =>
      let head := s.mem.parcel.readNat p.base 64
      let family := bitsOf head 95 88
      if bitsOf set 23 16 != 0 && bitsOf set 23 16 != family then ({ run := 0, failed := 0, entries := [] }, [])
      else
        let k := s.checkFile family (bitsOf set 24 24 == 1) late (if croft == 0xFF then List.range 192 else [croft]) (bitsOf head 127 96) (p.base + 64) {}
        (k.report, k.errors)

/-- SELF_CHECK (R606 to R609): the vectors run; the report waits, since VECTOR_TIMEOUT may change it. An error of a vector that stands after its class has handled it is
class J: counted and posted, with no bell (R608). -/
def execSelfCheck (h : Hdr) (set croft : Nat) (result : CheckRun) (s : State) : Host.Outcome State Fault Refusal :=
  .next (s.host h 0x40 (fun s =>
    match s.checkBad set croft with
    | some n => s.bad h 0x40 n
    | none =>
      let (r, errors) := s.checkRun set croft result []
      let s := (errors.foldl (fun s e => s.millErr e 0) s).on (fun b => { b with tiers := { b.tiers with openCtr := b.tiers.openCtr + 2 } })
      s.await h 0x40 (.selfCheck set croft h.payloadLen (s.suiteVersion set) h.ptrAddr r)))

/-- The report of a self-check and its RESULT (R609). -/
def Block.checkReport (b : Block) (room version : Nat) (r : CheckRun) : List Byte × BitVec 128 :=
  let fit := (room - 64) / 32
  let left := Nat.max r.failed r.entries.length - Nat.min fit r.entries.length
  (leBytes 64 (putBits (putBits (putBits (putBits (putBits (putBits 0 191 160 left) 159 128 r.failed) 127 96 r.run) 95 80 version) 79 64 b.boot.romVersion) 63 0 b.boot.runVersion.toNat)
    ++ ((r.entries.take fit).map (fun e => leBytes 32 e.toNat)).flatten,
   setFld (setFld (setFld (0 : BitVec 128) 31 0 r.run) 63 32 r.failed) 95 64 left)

/-- A self-check ends: its report is written and it completes (R429, R609). -/
def State.endCheck (s : State) (w : Wait) : State :=
  match w.wait with
  | .selfCheck _ _ room version addr r =>
    let (bytes, result) := s.m.checkReport room version r
    (s.writeHost addr bytes).endWait w 0 result
  | _ => s

/-- The vectors and crofts of a report that ran for 10 ms. -/
def lateVectors (r : CheckRun) : List (Nat × Nat) :=
  (r.entries.filter (fun e => fld e 40 40 == 0 && fld e 55 48 == 0x0A)).map (fun e => (fld e 31 0, fld e 39 32))

/-- A vector has run for 10 ms (R608): it has failed with TIMEOUT. The run of a file is what it gives with that; that of the boot-ROM set counts one run more. -/
def State.lateRun (s : State) (set croft : Nat) (r : CheckRun) (vectorId on_ : Nat) : CheckRun :=
  if set % 65536 == 0xFFFF then
    { run := r.run + 1, failed := r.failed + 1, entries := r.entries ++ [checkEntry vectorId on_ 0 0x0A] }
  else (s.checkRun set croft r ((vectorId, on_) :: lateVectors r)).1

/-- VECTOR_TIMEOUT (R608): the vector fails with TIMEOUT; with STOP_FIRST the run ends. -/
def execVectorTimeout (t vectorId croft : Nat) (s : State) : Host.Outcome State Fault Refusal :=
  let s := s.on (·.advanceTo t)
  match s.m.path.waits.find? (fun w => match w.wait with
    | .selfCheck .. => true
    | _ => false) with
  | none => .next s
  | some w =>
    match w.wait with
    | .selfCheck set c room version addr r =>
      let r := s.lateRun set c r vectorId croft
      let w' : Wait := { w with wait := .selfCheck set c room version addr r }
      let s := s.on (fun b => { b with path := { b.path with waits := b.path.waits.map (fun (x : Wait) => if x == w then w' else x) } })
      .next (if bitsOf set 24 24 == 1 then s.endCheck w' else s)
    | _ => .next s

/-- Does a copy wait for a cellar channel (R290), or a write for a page that migrates (R277)? -/
def Block.copyHeld (b : Block) (a n : Nat) (write : Bool) : Bool :=
  b.channelHeld [(false, a, n)] || (write && b.meetsPage [(false, a, n)] (·.migrating.isSome))

/-- The writes and copies that nothing holds any more go on: the copies as entries of the mailbox again (R277, R290). -/
def State.resumeCopies (s : State) : State :=
  s.releaseWrites.on (fun b => b.path.waits.foldl (fun b w =>
    let again (held : Bool) (c : Instr) : Block :=
      if held then b else { b with path := { b.path with mailbox := b.path.mailbox ++ [c], waits := b.path.waits.filter (· != w) } }
    match w.wait with
    | .copy (.copyIn h a n p acc) => again (b.copyHeld a n true) (.copyIn h a n p acc)
    | .copy (.copyOut h a n acc) => again (b.copyHeld a n false) (.copyOut h a n acc)
    | _ => b) b)

/-- What the block does with no command waiting (R423, R448, R449, R608; log 1): writes and copies that waited for their tiles go on (R277, R290), fences with nothing left to wait for complete, a self-check whose vectors have run ends,
the ports send what they hold (R324 to R328), and commands whose turn has come enter the mailbox. -/
def State.settleIdle (s : State) : State :=
  let s := s.settleFences.cross.resumeCopies
  let s := match s.m.path.waits.find? (fun w => match w.wait with
    | .selfCheck .. => true
    | _ => false) with
    | some w => s.endCheck w
    | none => s
  s.on (fun b => ((List.range 18).foldl (fun b n => b.transmit n) b).pump)

end Sys2Proof.Machine
end

