-- ==== Sys2Proof/Machine/HostConfig.lean ====
section
/-! DEFINITION. Host commands that read and write configuration: descriptors (R435 to R440), copies (R441), parcels and pages (R272 to R277, R442), drain tables and lane
programs (R128, R165, R613), fabric tables (R320, R321) and groups (R359 to R362). -/
namespace Sys2Proof.Machine

/-! Descriptors: targets -/

/-- Is an INDEX in range (R440). -/
def Block.indexOk (b : Block) (kind index : Nat) : Bool :=
  match kind with
  | 0x01 => index < b.desc.layer.length
  | 0x02 => index < b.desc.guard.length
  | 0x05 => b.magpieTags.contains index
  | 0x0A => b.cacheD.valid && index < b.cacheD.slots
  | 0x0B => (b.parcel index).isSome
  | _ => index == 0

/-- The present value of the descriptor that a command names, handed on; JOB_STATE or BAD_PARAMETER where it names none (R440). -/
def State.withDesc (s : State) (h : Hdr) (op kind index : Nat) (f : Nat → State) : State :=
  if [1, 2, 5].contains kind && s.m.job.almanac.isNone then s.finish h op 5
  else if !s.m.indexOk kind index then s.bad h op 26
  else match s.m.getDesc kind index with
    | some old => f old
    | none => s.bad h op 24

/-! Parcels that the almanac names (R274, R441) -/

/-- Device addresses of the tensors of the loaded almanac, overflow areas and the second generation of master weights and moments among them (R143, R177, R205). -/
def Block.tensorAddresses (b : Block) : List Nat :=
  match b.job.almanac with
  | none => []
  | some a =>
    ((a.tensors.map tensorOf).map (fun t => (if t.inStore then [] else [t.address]) ++ (if t.magpie then [t.ovfBase] else []))).flatten
      ++ ((b.desc.layer.map (fun d => (([fld d 159 144, fld d 175 160, fld d 191 176].filterMap b.tensor).filter (!·.inStore)).map (fun t => (atGen d 1 t).address))).flatten)

/-- Device addresses that the loaded almanac names in any way: tensors, presence maps, broadcast ranges and MOVE ranges. -/
def Block.namedAddresses (b : Block) : List Nat :=
  match b.job.almanac with
  | none => []
  | some a =>
    b.tensorAddresses ++ (a.companions.filter (fun c => fld c 65 64 == 2)).map (fun c => fld c 127 76) ++ a.bcast.map (fun e => fld e 127 76)
      ++ ((a.streams.flatten.filter (fun op => opCode op == 0x10)).map (fun op =>
        (if flag op 191 then [] else [(moveSide op 4).2]) ++ (if flag op 255 || moveKind op == 1 then [] else [(moveSide op 6).2]))).flatten

/-- Does a parcel hold one of the addresses. -/
def Parcel.holdsAny (p : Parcel) (as_ : List Nat) : Bool := as_.any (fun a => decide (p.base ≤ a) && decide (a < p.base + 65536 * p.pages))

/-- Does the bear hold a protected page of a parcel (R274, R510)? -/
def Block.bearHolds (b : Block) (p : Parcel) : Bool := b.tiers.pages.any (fun e => e.parcel == p.id && (e.bear == .protected_ || e.bear == .copying))

/-- Is a parcel busy for a free or a descriptor write (R274)? -/
def Block.parcelBusy (b : Block) (id : Nat) : Bool :=
  match b.parcel id with
  | some p => p.holdsAny b.tensorAddresses || b.bearHolds p
  | none => false

/-- Does a range lie within one parcel (R441). -/
def Block.inOneParcel (b : Block) (a n : Nat) : Bool :=
  inParcel a && (match b.parcelAt a with
    | some p => a + n ≤ p.base + 65536 * p.pages
    | none => false)

/-! DESC_WRITE -/

/-- Does the using block of a KIND's IDLE fields run (R437, R503, R546)? -/
def Block.idleBusy (b : Block) (kind index : Nat) : Bool :=
  match kind with
  | 0x07 => b.jobRuns || b.tiers.pages.any (fun p => p.tier == 3 || (match p.migrating with
      | some (t, _) => t == 3
      | none => false))
  | 0x0B => b.parcelBusy index
  | 0x0C => b.jobRuns || flag b.desc.snap 3
  | 0x0E => flag b.desc.trace 0
  | _ => b.jobRuns

/-- The bits that fail a test, lowest bits of their fields. -/
def failing (l : List (Bool × Nat)) : List Nat := (l.filter (·.1)).map (·.2)

/-- Does a range of host-window offsets lie beyond PARCEL_GIB and within the window (R293)? -/
def Block.inBuffers (b : Block) (off n : Nat) : Bool :=
  fld b.desc.hostWin 116 104 * 2 ^ 30 ≤ off && off + n ≤ fld b.desc.hostWin 92 80 * 2 ^ 30

/-- Is a port field outside its encodings (R9, R310): ports 0 to 17, and 0x1F for none? -/
def noPort (n : Nat) : Bool := 17 < n && n != 0x1F

/-- FAB_CFG fields that R316 refuses, and ports that do not exist (R9). -/
def badFabCfg (v ga : Nat) : List Nat :=
  let hv := bitsOf v 109 103
  let id := bitsOf v 90 77
  let role := bitsOf v 92 91
  let parent := bitsOf v 97 93
  failing [(hv = 0 || 80 < hv, 103), (id % 8 != ga % 8 || hv ≤ id / 128, 77), (role == 3, 91),
    ((role == 1 && parent != 0x1F) || ((role == 0 || role == 2) && parent == 0x1F) || noPort parent, 93), (noPort (bitsOf v 102 98), 98)]

/-- Cache descriptor fields that R410 refuses. -/
def Block.badCache (b : Block) (v : Nat) : List Nat :=
  let c := cacheDesc (BitVec.ofNat 512 v)
  let stageOk := match b.parcelAt c.stage with
    | some p => p.pin && p.home == 1
    | none => false
  failing [(c.pool % 65536 != 0 || !b.inOneParcel c.pool (c.units * c.unitFrames * 65536), 460),
    (!stageOk || !b.inOneParcel c.stage (c.slots * c.stageFrames * 65536), 408),
    (!b.inOneParcel c.seqTable (16 * c.slots), 356), (!b.inOneParcel c.pageTable (4 * c.slots * c.ptEntries), 304),
    (c.units = 0, 280), (c.unitFrames != ceilDiv (16 * c.tokenBytes) 65536, 268), (c.slots = 0, 256), (c.maxTokens < 16, 236),
    (c.appendMax = 0 || 8192 < c.appendMax, 222), (c.layers = 0, 214), (c.heads = 0 || 128 < c.heads, 206), (c.k == 7, 203)]

/-- Snapshot descriptor fields that R504 refuses, in a block that holds the descriptor. -/
def Block.badSnap (b : Block) : List Nat :=
  let d := b.desc.snap
  let dest := fld d 1 0
  let units := fld d 175 144
  let recv := fld d 331 280
  let (st, n) := b.streamTable
  let recvOk := match b.tiers.parcels.find? (fun p => p.base == recv) with
    | some p => p.pin && p.home == 2 && 2 * units ≤ p.pages && b.excludedIds.contains p.id
    | none => false
  let included := match b.parcelAt st with
    | some p => !b.excludedIds.contains p.id && !p.holdsAny b.shardAddresses
    | none => false
  failing [(dest = 0, 0), (flag d 2 && units = 0, 2),
    (flag d 2 && dest % 2 == 1 && (fld d 111 98 == 0x3FFF || fld d 111 98 / 8 == b.moduleId / 8), 2), (recv != 0 && !recvOk, 280),
    (2 ≤ dest && !b.inBuffers (fld d 279 228) (2 * units * 65536), 0), (n != 0 && (!included || !b.inOneParcel st (32 * n)), 90)]

/-- Trace descriptor fields that R546 refuses. -/
def Block.badTrace (b : Block) : List Nat :=
  let d := b.desc.trace
  let size := fld d 459 440
  let croft := fld d 391 384
  failing [(flag d 0 && size = 0, 0), (fld d 511 460 % 4096 != 0 || (size != 0 && !b.inBuffers (fld d 511 460) (4096 * size)), 460),
    (fld d 439 408 = 0 || 100000 < fld d 439 408, 408), (191 < croft && croft != 0xFF, 384), (fld d 351 336 = 0 || 1000 < fld d 351 336, 336)]

/-- Sequence fields that R411 refuses: STATE only to ACTIVE from FREE or DROPPED, or to FREE. -/
def Block.badSeq (b : Block) (old v : Nat) (fs : List DField) : List Nat :=
  let st := bitsOf v 43 40
  let was := bitsOf old 43 40
  failing [(fs.any (·.hi == 43) && st != 0 && !(st == 1 && (was == 0 || was == 3)), 40), (b.cacheD.appendMax < bitsOf v 95 80, 80)]

/-- Parcel fields that R272 and R275 refuse. -/
def Block.badParcel (b : Block) (index v : Nat) (fs : List DField) : List Nat :=
  let home := bitsOf v 1 0
  failing [(home = 0 || (fs.any (·.hi == 1) && b.tiers.pages.any (fun p => p.parcel == index && p.tier != home)), 0),
    (fs.any (·.hi == 151), 124), (fs.any (·.hi == 203), 152)]

/-- Has a quantisation word a value that no encoding lists (R9, R110, R111, R124): a reserved OUT_FMT or MUL_MODE, or the table path? -/
def wordBad (w : Nat) : Bool := let d := drainCtrl w; 8 < d.fmt || d.mulMode == 3 || d.table

/-- Layer-descriptor fields that R9 and R124 refuse. -/
def badLayer (v : Nat) : List Nat := failing ([224, 256, 288, 320].map (fun lo => (wordBad (bitsOf v (lo + 31) lo), lo)))

/-- Magpie-descriptor fields that R137 refuses: K 0, and a THRESH that is not positive (R9). -/
def badMagpie (v : Nat) : List Nat :=
  let x := BitVec.ofNat 32 (bitsOf v 63 32)
  failing [(bitsOf v 7 4 = 0, 4), (bitsOf v 63 63 == 1 || f32Zero x || isNan x, 32)]

/-- A descriptor of a KIND as it reads once a host has written v to a cleared one (R15): its writable fields. -/
def writable (kind v : Nat) : Nat := (descFields kind).foldl (fun x f => putBits x f.hi f.lo (bitsOf v f.hi f.lo)) 0

/-- Guard-descriptor fields that R230 and R231 refuse, beside others under RESCALE_REPLAY. -/
def badGuard (v others : Nat) : List Nat :=
  let hi := bitsOf v 63 48
  let lo := bitsOf v 47 32
  let pol := bitsOf v 5 4
  failing [(hi ≤ 0x3F80 || 0x7F80 ≤ hi, 48), (lo = 0 || 0x3F80 ≤ lo, 32), (2 ≤ pol || (pol == 1 && 8 ≤ others), 4)]

/-- The lowest bits of the fields that a descriptor's rules refuse (R438 step 2): `v` is the descriptor as it would stand, `fs` the written fields. -/
def Block.descBad (b : Block) (kind index old v : Nat) (fs : List DField) : List Nat :=
  match kind with
  | 0x01 => badLayer v
  | 0x02 => badGuard v ((List.range b.desc.guard.length).filter (fun i => i != index && fld (b.guard i) 5 4 == 1)).length
  | 0x04 => failing [(bitsOf v 47 40 = 0, 40), (bitsOf v 39 36 = 0, 36), (bitsOf v 19 18 == 3, 18)]
  | 0x05 => badMagpie v
  | 0x06 => failing [(bitsOf v 119 116 = 0, 116)]
  | 0x07 => failing [(bitsOf v 92 80 < bitsOf v 116 104, 104), (4096 < bitsOf v 92 80, 80), (bitsOf v 63 0 % 2 ^ 30 != 0, 0)]
  | 0x08 => badFabCfg v (b.fab.ga)
  | 0x09 => b.badCache v
  | 0x0A => b.badSeq old v fs
  | 0x0B => b.badParcel index v fs
  | 0x0C => (b.setDesc 0x0C 0 v).badSnap
  | 0x0D => failing [(bitsOf v 63 48 < 1000 || 3000 < bitsOf v 63 48, 48)]
  | 0x0E => (b.setDesc 0x0E 0 v).badTrace
  | _ => []

/-- STEP fields go into shadows (R436): an earlier shadow of a field goes, and its command completes as SUPERSEDED. -/
def Block.holdStep (b : Block) (h : Hdr) (kind index new : Nat) (fs : List DField) : Block :=
  let hit (x : Shadow) : Bool := x.kind == kind && x.index == index && fs.any (fun f => f.lo == x.lo)
  let gone := b.path.shadows.filter hit
  { b with path := { b.path with
                     shadows := b.path.shadows.filter (fun x => !hit x) ++ fs.map (fun f => ({ kind := kind, index := index, hi := f.hi, lo := f.lo,
                                                                                               value := bitsOf new f.hi f.lo, ring := h.ring, tag := h.tag } : Shadow)),
                     waits := b.path.waits.map (fun (w : Wait) => match w.wait with
                       | .stepWrite sup part => { w with wait := .stepWrite (sup || gone.any (fun x => x.ring == w.ring && x.tag == w.tag)) part }
                       | _ => w) } }

/-- The tables of a cache descriptor that was loaded are written (R406, R411): every sequence entry as it is, and 0xFFFF_FFFF in every page-table entry that holds no
page. When the module writes them first is not said; it does so at the load (DESIGN CHOICE, log 22). -/
def State.writeTables (s : State) : State :=
  let c := s.m.cacheD
  if !c.valid then s
  else (List.range c.slots).foldl (fun s n =>
    let held := seqPages (s.m.seq n)
    s.writeSeqEntry n |>.devWrite (c.ptAddr n held) (List.replicate (4 * (c.ptEntries - held)) 0xFF) none false) s

/-- OPEN and IDLE fields, and STEP fields with no job running, are applied (R435 to R438). A parcel's change of CODEC to 0 re-encodes its host-tier tiles (R275). -/
def State.applyNow (s : State) (kind index new : Nat) (fs : List DField) : State :=
  let s := fs.foldl (fun s f => s.applyField kind index f.hi f.lo (bitsOf new f.hi f.lo) f.w1c) s
  if kind == 0x0B && fs.any (fun f => f.hi == 3 && bitsOf new 3 3 == 0) then
    (s.m.tiers.pages.filter (fun p => p.parcel == index && p.tier == 3)).foldl (fun s p => (s.refreshTile (2 * p.page) none).refreshTile (2 * p.page + 1) none) s
  else if kind == 0x09 && !fs.isEmpty then s.writeTables
  else s

/-- A checked descriptor write (R438). -/
def State.writeDesc (s : State) (h : Hdr) (kind index old new : Nat) : State :=
  let fs := s.m.written kind index old new
  let idle := fs.filter (·.cls == .idle)
  if !idle.isEmpty && s.m.idleBusy kind index then s.finish h 0x01 4 0 ((idle.map (·.lo)).foldl Nat.min 0xFFFFFF)
  else
    let bad := s.m.descBad kind index old (afterWrite (s.m.withShadows kind index old) new fs) fs
    if !bad.isEmpty then s.bad h 0x01 (64 + bad.foldl Nat.min 0xFFFFFF / 8)
    else
      let held := fs.filter (fun f => f.cls == .step && s.m.jobRuns)
      let now_ := fs.filter (fun f => !(f.cls == .step && s.m.jobRuns))
      let s := s.applyNow kind index new now_
      if held.isEmpty then s.finish h 0x01 0
      else if s.m.dev.bellDone then s.finish h 0x01 6 (setFld (0 : BitVec 128) 64 64 (b2n (!now_.isEmpty)))
      else (s.on (fun b => b.holdStep h kind index new held)).await h 0x01 (.stepWrite false (!now_.isEmpty))

/-- DESC_WRITE (R438, R440). -/
def execDescWrite (h : Hdr) (kind index : Nat) (payload : List Byte) (s : State) : Host.Outcome State Fault Refusal :=
  .next (s.host h 0x01 (fun s => s.withDesc h 0x01 kind index (fun old => s.writeDesc h kind index old (leNat payload))))

/-- DESC_READ (R439, R440): PENDING where a shadow is held; SHADOW returns the shadows in place of the present values. -/
def execDescRead (h : Hdr) (kind index : Nat) (shadow : Bool) (s : State) : Host.Outcome State Fault Refusal :=
  .next (s.host h 0x02 (fun s => s.withDesc h 0x02 kind index (fun old =>
    let v := if shadow then s.m.withShadows kind index old else old
    let pending := s.m.path.shadows.any (fun x => x.kind == kind && x.index == index)
    s.output h 0x02 h.payloadLen (leBytes ((descSize kind).getD 0) v) (setFld (0 : BitVec 128) 0 0 (b2n pending)))))

/-! Copies (R441) -/

/-- Is a copy at an address refused as busy: while a job runs, in a parcel that the almanac names, and in one that holds a protected page, whose image drains on after a bell
too (R37, R441, R528). -/
def Block.copyBusy (b : Block) (a : Nat) : Bool :=
  match b.parcelAt a with
  | some p => (b.jobRuns && p.holdsAny b.namedAddresses) || b.bearHolds p
  | none => false

/-- The packet byte of a copy range that R441 refuses. -/
def Block.copyBad (b : Block) (a n : Nat) : Option Nat :=
  if a % 64 != 0 then some 24 else if n % 64 != 0 || n < 64 || 268435456 < n then some 32 else if !b.inOneParcel a n then some 24 else none

/-- How the accesses of a copy go: corrected errors are logged (R286, R289); an attempt that fails is made again, at most twice (R306), and a third failure is a class
C error, counted, its cellar frame retired (R292, R441). -/
def State.copyAccess (s : State) (acc : Access) (a n : Nat) : State × Bool :=
  let inside (x : Nat) : Bool := a ≤ x && x < a + n
  let s := s.on (fun b => b.correctedAt (acc.corrected.filter (fun x => inside x.1)))
  match acc.failed with
  | some (x, k) =>
    if !inside x then (s, true)
    else if k < 3 then (s.on (·.bump .retries k), true)
    else (s.on (fun b => ((({ b with tiers := { b.tiers with openCtr := b.tiers.openCtr + 1 } } : Block).bump .retries 2).bump .ioFailed).raiseC 0x28 |>.failedAt x), false)
  | none => (s, true)

/-- Bytes written to parcel space tile by tile, each encoded for the tensor it belongs to (R281, R284). -/
def State.writeTiles (s : State) : Nat → Nat → List Byte → State
  | 0, _, _ => s
  | k + 1, a, bs =>
    if bs.isEmpty then s
    else
      let room := 32768 - a % 32768
      State.writeTiles (s.devWrite a (bs.take room) none true (s.m.elemsAt a)) k (a + room) (bs.drop room)

/-- COPY_IN (R441): a failed write leaves its destination undefined. While its tiles cannot be reached it waits (R277, R290). -/
def execCopyIn (h : Hdr) (devAddr length : Nat) (payload : List Byte) (acc : Access) (s : State) : Host.Outcome State Fault Refusal :=
  .next (s.host h 0x03 (fun s =>
    let checking := match s.m.checkParcel, s.m.parcelAt devAddr with
      | some id, some p => p.id == id
      | _, _ => false
    if s.m.copyBusy devAddr || checking then s.finish h 0x03 4
    else match s.m.copyBad devAddr length with
      | some n => s.bad h 0x03 n
      | none =>
        if s.m.copyHeld devAddr length true then s.await h 0x03 (.copy (.copyIn h devAddr length payload acc))
        else
        let lost := freeBytes s.m.tiers.openCtr devAddr length
        let (s, ok) := s.copyAccess acc devAddr length
        (s.writeTiles (length / 32768 + 2) devAddr (if ok then slice payload 0 length else lost)).finish h 0x03 (if ok then 0 else 0x28)))

/-- COPY_OUT (R441): a failed read leaves its destination in host memory undefined. While its tiles cannot be reached it waits (R290). -/
def execCopyOut (h : Hdr) (devAddr length : Nat) (acc : Access) (s : State) : Host.Outcome State Fault Refusal :=
  .next (s.host h 0x04 (fun s =>
    if s.m.copyBusy devAddr then s.finish h 0x04 4
    else match s.m.copyBad devAddr length with
      | some n => s.bad h 0x04 n
      | none =>
        if s.m.copyHeld devAddr length false then s.await h 0x04 (.copy (.copyOut h devAddr length acc))
        else
        let lost := freeBytes s.m.tiers.openCtr h.ptrAddr length
        let (s, ok) := s.copyAccess acc devAddr length
        if ok then s.output h 0x04 h.payloadLen (s.mem.parcel.readBytes devAddr length) else (s.writeHost h.ptrAddr lost).finish h 0x04 0x28))

/-! Parcels (R272 to R277) -/

/-- The lowest number that a list lacks, from n up. -/
def lowestFree (used : List Nat) : Nat → Nat → Nat
  | 0, n => n
  | k + 1, n => if used.contains n then lowestFree used k (n + 1) else n

/-- The packet byte of a creation that R272 and R273 refuse. -/
def Block.createBad (b : Block) (base pages home : Nat) : Option Nat :=
  if base % 65536 != 0 || 2 ^ 51 < base + 65536 * pages
      || b.tiers.parcels.any (fun p => decide (base < p.base + 65536 * p.pages) && decide (p.base < base + 65536 * pages)) then some 24
  else if pages = 0 || 67108864 < pages then some 32
  else if home = 0 || 3 < home then some 36
  else if 65535 ≤ b.tiers.parcels.length then some 16
  else none

/-- Header of a tile of zeros (R282 to R284). -/
def zeroHeader (home : Nat) (codec : Bool) : BitVec 64 := if home == 3 && !codec then tileHeader 3 false none (List.replicate 32768 0) else 0

/-- n pages of a parcel mapped from a page number up (R273). -/
def Block.mapPages (b : Block) (id home : Nat) (codec : Bool) : Nat → Nat → Block
  | 0, _ => b
  | n + 1, page =>
    let (f, b) := b.newFrame home
    let z := zeroHeader home codec
    Block.mapPages { b with tiers := { b.tiers with pages := b.tiers.pages ++ [({ page := page, parcel := id, tier := home, frame := f, head0 := z, head1 := z } : Page)] } }
      id home codec n (page + 1)

/-- PARCEL_CREATE (R272, R273): every page RESIDENT in HOME and zero, the frames of a host-tier parcel with CODEC = 0 too. -/
def execParcelCreate (h : Hdr) (base pages home : Nat) (pin codec : Bool) (s : State) : Host.Outcome State Fault Refusal :=
  .next (s.host h 0x08 (fun s =>
    match s.m.createBad base pages home with
    | some n => s.bad h 0x08 n
    | none =>
      if s.m.framesFree home < pages then s.finish h 0x08 0x2A
      else
        let id := lowestFree (s.m.tiers.parcels.map (·.id)) s.m.tiers.parcels.length 0
        let p : Parcel := { id := id, base := base, pages := pages, codec := codec, pin := pin, home := home }
        let s := s.clearParcel base (65536 * pages)
        let s := s.on (fun b => ({ b with tiers := { b.tiers with parcels := b.tiers.parcels ++ [p] } } : Block).mapPages id home codec pages (base / 65536))
        let s := if home == 3 && !codec then
            (s.m.tiers.pages.filter (fun e => e.parcel == id)).foldl (fun s e => s.clearHost (s.m.hostAddr (65536 * e.frame)) 65536) s
          else s
        s.finish h 0x08 0 (BitVec.ofNat 128 id)))

/-- A parcel goes: its pages are unmapped, writes that waited for them go, and migrations of them end. -/
def State.freeParcel (s : State) (p : Parcel) : State :=
  let mine := (s.m.tiers.pages.filter (fun e => e.parcel == p.id)).map (·.page)
  let s := s.m.path.waits.foldl (fun s w => match w.wait with
    | .migrate id _ left moved skipped =>
      if id == p.id then s.endWait w 0 (setFld (setFld (0 : BitVec 128) 31 0 moved) 63 32 (skipped + left.length)) else s
    | _ => s) s
  let s := s.on (fun b => { b with tiers := { b.tiers with parcels := b.tiers.parcels.filter (·.id != p.id), pages := b.tiers.pages.filter (·.parcel != p.id),
                                                           heldWrites := b.tiers.heldWrites.filter (fun w => !mine.contains (pageOf w.address)) } })
  mine.foldl (fun s n => s.pageSettled n) (s.clearParcel p.base (65536 * p.pages))

/-- PARCEL_FREE (R274). -/
def execParcelFree (h : Hdr) (parcel : Nat) (s : State) : Host.Outcome State Fault Refusal :=
  .next (s.host h 0x09 (fun s =>
    match s.m.parcel parcel with
    | none => s.bad h 0x09 24
    | some p => if s.m.parcelBusy parcel || s.m.checkParcel == some parcel then s.finish h 0x09 4 else (s.freeParcel p).finish h 0x09 0))

/-- PARCEL_QUERY (R439): the descriptor, then the pages in larder, cellar and host tier. -/
def execParcelQuery (h : Hdr) (parcel : Nat) (s : State) : Host.Outcome State Fault Refusal :=
  .next (s.host h 0x0A (fun s =>
    match s.m.parcel parcel with
    | none => s.bad h 0x0A 24
    | some p =>
      let n (tier : Nat) : Nat := (s.m.tiers.pages.filter (fun e => e.parcel == p.id && e.tier == tier)).length
      s.output h 0x0A h.payloadLen (leBytes 32 (parcelDesc p) ++ leBytes 8 (n 1) ++ leBytes 8 (n 2) ++ leBytes 8 (n 3))))

/-- PARCEL_MIGRATE (R276, R277): the pages that find a frame of the tier begin to migrate, with the reads of host memory that takes (R295); the others are skipped. -/
def execParcelMigrate (h : Hdr) (parcel tier firstPage pages : Nat) (s : State) : Host.Outcome State Fault Refusal :=
  .next (s.host h 0x0B (fun s =>
    match s.m.parcel parcel with
    | none => s.bad h 0x0B 24
    | some p =>
      if p.pin then s.bad h 0x0B 24
      else if tier = 0 || 3 < tier then s.bad h 0x0B 26
      else if p.pages ≤ firstPage then s.bad h 0x0B 28
      else if p.pages < firstPage + pages then s.bad h 0x0B 32
      else
        let ns := (List.range pages).map (fun i => p.base / 65536 + firstPage + i)
        let idle := ns.filter (fun n => match s.m.page n with
          | some e => e.migrating.isNone
          | none => false)
        let s := s.on (fun b => ns.foldl (fun b n => b.startMigration n tier) b)
        let left := idle.filter (fun n => match s.m.page n with
          | some e => e.migrating.isSome
          | none => false)
        let skipped := pages - left.length
        let s := s.on (fun b => left.foldl (fun b n => b.hostRead 192 n [(false, 65536 * n, 65536)]) b)
        if left.isEmpty then s.finish h 0x0B 0 (setFld (0 : BitVec 128) 63 32 skipped) else s.await h 0x0B (.migrate parcel tier left 0 skipped)))

/-- A PAGE_QUERY record (R442). -/
def Block.pageRecord (b : Block) (page : Nat) : Nat :=
  match b.page page with
  | none => putBits 0 127 112 0xFFFF
  | some p =>
    putBits (putBits (putBits (putBits (putBits (putBits (putBits 0 255 192 p.head1.toNat) 191 128 p.head0.toNat) 127 112 p.parcel) 79 44 p.frame) 43 42 p.tier)
      41 41 (b2n p.migrating.isSome)) 40 40 (b2n (p.bear == .protected_ || p.bear == .copying))

/-- PAGE_QUERY (R439, R442). -/
def execPageQuery (h : Hdr) (address pages : Nat) (s : State) : Host.Outcome State Fault Refusal :=
  .next (s.host h 0x0C (fun s =>
    if address % 65536 != 0 then s.bad h 0x0C 24
    else if pages = 0 || 65536 < pages then s.bad h 0x0C 32
    else s.output h 0x0C h.payloadLen ((List.range pages).map (fun i => leBytes 32 (s.m.pageRecord (address / 65536 + i)))).flatten))

/-! Tables of the crofts (R130, R165, R612) -/

/-- Does a croft run a table-path operation (R130)? -/
def Croft.runsTable (c : Croft) : Bool := c.inFlight.any (fun e => isArray e.op && !opFlag e.op 7 && (drainCtrl (opDrain e.op)).table)

/-- An entry of the drain table with its reserved bits 0 (R15, R128). -/
def drainEntry (v : Nat) : BitVec 128 := BitVec.ofNat 128 (cleared drainReserved v)

/-- DRAIN_TABLE_LOAD (R128, R130). -/
def execDrainTableLoad (h : Hdr) (croft : Nat) (table : List Byte) (s : State) : Host.Outcome State Fault Refusal :=
  .next (s.host h 0x18 (fun s =>
    if (s.m.croft croft).runsTable || s.m.checkCrofts.contains croft then s.finish h 0x18 4
    else if 191 < croft then s.bad h 0x18 24
    else
      let t := (List.range 256).map (fun i => drainEntry (leAt table (16 * i) 16))
      (s.on (fun b => b.onCroft croft (fun c => { c with drainTable := t }))).finish h 0x18 0))

/-- The byte, within its slot, of the first field of a lane instruction that R613 refuses at load; `last`: it stands in the last phase or the tail. -/
def slotBad (i : W64) (last : Bool) : Option Nat :=
  let l := lopOf i
  let mode := lopMode i
  let imm := lopImm i
  let known := l ≤ 0x18 || l == 0x1E || l == 0x1F
  let modeBad := if l == 0x0F then 3 ≤ mode else if l == 0x13 then 2 < mode || (imm != 0 && mode != 0) else if l == 0x14 then 5 < mode else mode != 0
  let immBad := if l == 0x12 || l == 0x15 then false else if l == 0x16 then !(imm != 0 && imm ≤ 128 && imm == 2 ^ Nat.log2 imm) else if l == 0x13 then 8 < imm else imm != 0
  if known && immBad then some 0
  else if fld i 23 16 != 0 then some 2
  else if known && modeBad then some 3
  else if !known || (l == 0x14 && !last) then some 7
  else none

/-- The slots of a program with the number of PHASE_ENDs that come before each. -/
def phasesBefore : Nat → List W64 → List (Nat × W64)
  | _, [] => []
  | n, i :: rest => (n, i) :: phasesBefore (if lopOf i == 0x1E then n + 1 else n) rest

/-- The payload byte of the first error of the program that a VALID entry names (R165, R166, R613). -/
def programBad (store : List W64) (e : Nat) (w : W64) : Option Nat :=
  if !flag w 11 then none
  else match programSlots store 2048 (fld w 10 0) with
    | none => some (8 * e)
    | some prog =>
      let ends := (prog.filter (fun i => lopOf i == 0x1E)).length
      if ends = 0 || 4 < ends then some (8 * e)
      else ((List.range prog.length).zip (phasesBefore 0 prog)).findSome? (fun ((k, n, i) : Nat × Nat × W64) =>
        (slotBad i (ends ≤ n + 1)).map (fun x => 512 + 8 * (fld w 10 0 + k) + x))

/-- The payload byte of the first error of a program table and store (R165, R613). -/
def imageBad (table store : List W64) : Option Nat :=
  let rows := (List.range table.length).zip table
  match (rows.filterMap (fun ((e, w) : Nat × W64) => if fld w 63 12 != 0 then some (8 * e + 1) else none)).min? with
  | some n => some n
  | none => (rows.filterMap (fun ((e, w) : Nat × W64) => programBad store e w)).min?

/-- LANE_PROG_LOAD (R165, R445): one croft, or every croft or none. -/
def execLaneProgLoad (h : Hdr) (croft : Nat) (image : List Byte) (s : State) : Host.Outcome State Fault Refusal :=
  .next (s.host h 0x19 (fun s =>
    let targets := if croft == 0xFF then List.range 192 else [croft]
    if targets.any (fun n => (s.m.croft n).lane.isSome || (s.m.croft n).inFlight.any (fun e => opCode e.op == 8) || s.m.checkCrofts.contains n) then s.finish h 0x19 4
    else if 191 < croft && croft != 0xFF then s.bad h 0x19 24
    else
      let table := (List.range 64).map (fun i => BitVec.ofNat 64 (leAt image (8 * i) 8))
      let words := (List.range 2048).map (fun i => leAt image (512 + 8 * i) 8)
      let store := words.map (fun v => BitVec.ofNat 64 (cleared slotReserved v))
      match imageBad table (words.map (BitVec.ofNat 64)) with
      | some n => s.bad h 0x19 (64 + n)
      | none =>
        (s.on (fun b => targets.foldl (fun b n => b.onCroft n (fun c => { c with progTable := table, progStore := store })) b)).finish h 0x19 0))

/-! Fabric tables and groups -/

/-- Is a port enabled (R314)? -/
def Block.portEnabled (b : Block) (n : Nat) : Bool := n < 17 && (fld b.fab.cfg 127 110 &&& fld b.boot.recordBody 1359 1342) / 2 ^ n % 2 == 1

/-- Does a routing entry name a port that is not enabled, or SP0 (R321)? 0x1F names none. -/
def Block.routeBad (b : Block) (e : Nat) : Bool :=
  [bitsOf e 4 0, bitsOf e 9 5].any (fun n => n != 0x1F && !b.portEnabled n)

/-- FABRIC_TABLE_LOAD (R320, R321, R445). -/
def execFabricTableLoad (h : Hdr) (peers routes : Bool) (payload : List Byte) (s : State) : Host.Outcome State Fault Refusal :=
  .next (s.host h 0x1A (fun s =>
    let off := if peers then 72 else 0
    let rs := if routes then (List.range 104).map (fun i => leAt payload (off + 2 * i) 2) else []
    if s.m.jobRuns then s.finish h 0x1A 4
    else match (List.range (if peers then 18 else 0)).find? (fun i => noPort (leAt payload (4 * i) 4 % 32)) with
    | some i => s.bad h 0x1A (64 + 4 * i)
    | none => match ((List.range rs.length).zip rs).find? (fun ((_, e) : Nat × Nat) => s.m.routeBad e) with
      | some (i, _) => s.bad h 0x1A (64 + off + 2 * i)
      | none =>
        let route (i n : Nat) : List (BitVec 16) := ((rs.drop i).take n).map (fun e => BitVec.ofNat 16 (putBits e 14 10 0))
        let s := if peers then
            s.on (fun b => { b with fab := { b.fab with peers := (List.range 18).map (fun i => BitVec.ofNat 32 (putBits (leAt payload (4 * i) 4) 30 19 0)) } })
          else s
        let s := if routes then
            s.on (fun b => { b with fab := { b.fab with hamletRoute := route 0 8, villageRoute := route 8 16, hallRoute := route 24 80 } })
          else s
        s.finish h 0x1A 0))

/-- Do the ranks of a group break R362: MODULE_IDs strictly increasing by rank, no TWIN a member or another TWIN, and this module at MY_RANK. -/
def ranksBad (ranks : List (Nat × Nat)) (rank me : Nat) : Bool :=
  let ids := ranks.map (·.1)
  let twins := (ranks.map (·.2)).filter (· != 0x3FFF)
  let here := ranks.getD rank (0x4000, 0x4000)
  (ids.zip (ids.drop 1)).any (fun (a, b) => b ≤ a) || twins.any ids.contains || !twins.Nodup || (here.1 != me && here.2 != me)

/-- The lowest bits of the fields of a group descriptor that R362 refuses. -/
def State.groupBad (s : State) (v : Nat) : List Nat :=
  let d := BitVec.ofNat 512 v
  let n := gMembers d
  let membersOk := 1 ≤ n && n ≤ 10240
  let edges := (List.range (gEdges d)).map (fun i => s.mem.parcel.readNat (gEdgeTable d + 4 * i) 4)
  failing [(gKind d == 3, 212), (!membersOk, 248), (gMicro d = 0, 240), (n ≤ gRank d, 262), (gKq24 d && 256 < n * gMicro d, 211),
    (membersOk && gRank d < n && ranksBad ((List.range n).map (fun r => s.rankEntry d r)) (gRank d) s.m.moduleId, 460), (edges.any s.m.routeBad, 356)]

/-- GROUP_LOAD (R359 to R362, R445). -/
def execGroupLoad (h : Hdr) (group : Nat) (payload : List Byte) (s : State) : Host.Outcome State Fault Refusal :=
  .next (s.host h 0x1B (fun s =>
    let v := putBits (leAt payload 0 64) 209 0 0
    if s.m.jobRuns then s.finish h 0x1B 4
    else if 0x3FF < group then s.bad h 0x1B 24
    else match s.groupBad v with
      | [] =>
        (s.on (fun b => { b with desc := { b.desc with groups := b.desc.groups.filter (·.index != group) ++ [({ index := group, desc := BitVec.ofNat 512 v } : Group)] } })).finish
          h 0x1B 0
      | bad => s.bad h 0x1B (64 + bad.foldl Nat.min 0xFFFFFF / 8)))

end Sys2Proof.Machine
end

