-- ==== Sys2Proof/Machine/HostJob.lean ====
section
/-! DEFINITION. Host commands of the job: the almanac image and the checks at its load (R227, R245, R253, R266, R276, R278, R362, R373, R443, R444, R474), JOB_START and its
ends (R443, R376, R485, R525, R535), and RESTORE (R521 to R527). -/
namespace Sys2Proof.Machine

/-! The almanac image (R444) -/

/-- A directory entry: where it stands in the image, TYPE, COUNT, OFFSET, LENGTH. -/
structure Section where
  at_ : Nat
  typ : Nat
  count : Nat
  off : Nat
  len : Nat
deriving DecidableEq, Repr

/-- Bytes of an entry of a section TYPE; none for a reserved TYPE. -/
def sectionWidth : Nat → Option Nat
  | 1 => some 32 | 2 => some 16 | 3 => some 16 | 4 => some 64 | 5 => some 8 | 6 => some 16 | 7 => some 8 | 8 => some 64
  | _ => none

/-- A header field of an almanac image. -/
def almanacHead (img : List Byte) (hi lo : Nat) : Nat := bitsOf (leAt img 0 64) hi lo

/-- The directory. -/
def sectionsOf (img : List Byte) : List Section :=
  (List.range (almanacHead img 71 64)).map (fun i =>
    let d := leAt img (64 + 16 * i) 16
    { at_ := 64 + 16 * i, typ := bitsOf d 7 0, count := bitsOf d 63 32, off := bitsOf d 95 64, len := bitsOf d 127 96 })

/-- The entries of a section TYPE; none where the image has no such section. -/
def entriesOf (img : List Byte) (typ : Nat) : List Nat :=
  match (sectionsOf img).find? (fun x => x.typ == typ) with
  | some x => entriesAt img x.off ((sectionWidth typ).getD 0) x.count
  | none => []

/-- Image bytes of the first errors in the entries of a section: `bad` gives the lowest bits of the offending fields of entry i. -/
def entryErrors (img : List Byte) (typ : Nat) (bad : Nat → Nat → List Nat) : List Nat :=
  match (sectionsOf img).find? (fun x => x.typ == typ) with
  | some x =>
    let w := (sectionWidth typ).getD 0
    ((List.range x.count).map (fun i => (bad i (leAt img (x.off + w * i) w)).map (fun lo => x.off + w * i + lo / 8))).flatten
  | none => []

/-- Image bytes of what a directory entry breaks. -/
def sectionErrors (img : List Byte) (earlier : List Section) (x : Section) : List Nat :=
  let layers := almanacHead img 95 80
  failing [((sectionWidth x.typ).isNone || earlier.any (fun y => y.typ == x.typ), x.at_), ((x.typ == 4 || x.typ == 5) && x.count != layers, x.at_ + 4),
    (x.typ == 8 && x.count != 0 && x.count < 192, x.at_ + 4), (img.length < x.off + x.len, x.at_ + 8),
    (x.len != x.count * (sectionWidth x.typ).getD 0 && (sectionWidth x.typ).isSome, x.at_ + 12)]

/-- Image bytes of every error of an image that gives BAD_PARAMETER (R124, R137, R230, R231, R444). -/
def almanacErrors (img : List Byte) : List Nat :=
  let ss := sectionsOf img
  let layers := almanacHead img 95 80
  let chunk := almanacHead img 63 32
  let guards := entriesOf img 5
  let ops := (ss.find? (fun x => x.typ == 8)).map (·.count)
  failing [(chunk % 128 != 0 || chunk < 1024 || 65536 < chunk, 4), (0xFFFE < layers || (0 < layers && !ss.any (fun x => x.typ == 4)), 10),
      (almanacHead img 159 96 = 0, 12), (almanacHead img 223 160 = 0, 20)]
    ++ ((List.range ss.length).zip ss |>.map (fun ((i, x) : Nat × Section) => sectionErrors img (ss.take i) x)).flatten
    ++ entryErrors img 4 (fun _ v => badLayer v)
    ++ entryErrors img 5 (fun i v => badGuard v (((guards.take i).filter (fun g => bitsOf g 5 4 == 1)).length))
    ++ entryErrors img 6 (fun _ v => badMagpie v)
    ++ entryErrors img 8 (fun i v => failing [(i < 192 && bitsOf v 63 32 != 0 && ops.getD 0 < 192 + bitsOf v 31 0 + bitsOf v 63 32, 0)])

/-- The packet byte of the first error of an image (R444, R620). -/
def almanacBad (img : List Byte) : Option Nat :=
  if almanacHead img 31 0 != img.length then some 16
  else if img.length < 64 + 16 * almanacHead img 71 64 then some 72
  else (almanacErrors img).min?.map (64 + ·)

/-- The almanac of an image. -/
def almanacOf (img : List Byte) : Almanac :=
  let es := entriesOf img 8
  { crc := crc64 img, narrowNs := almanacHead img 159 96, wideNs := almanacHead img 223 160, layers := almanacHead img 95 80, micro := almanacHead img 79 72,
    chunk := almanacHead img 63 32, tensors := (entriesOf img 1).map (BitVec.ofNat 256), companions := (entriesOf img 2).map (BitVec.ofNat 128),
    bcast := (entriesOf img 3).map (BitVec.ofNat 128), mbPred := (entriesOf img 7).map (fun v => (bitsOf v 31 0, bitsOf v 63 32)),
    streams := (List.range 192).map (fun n =>
      let v := es.getD n 0
      ((es.drop (192 + bitsOf v 31 0)).take (bitsOf v 63 32)).map (BitVec.ofNat 512)) }

/-! Checks at load that give BAD_OPERATION -/

/-- Does a tensor break R143, R177, R266 or R278? -/
def Block.tensorBad (b : Block) (t : Tensor) : Bool :=
  11 < t.format || (t.scaled && 7 < t.format) || (t.magpie && (!t.scaled || ! [0, 3, 4, 5, 6].contains t.format)) || t.address % 32768 != 0
    || (if t.inStore then 2 ^ 22 < t.address + 32768 * t.tiles else !b.inOneParcel t.address (32768 * t.tiles))
    || (t.magpie && !b.inOneParcel t.ovfBase 0x600000)

/-- Does a companion entry break R245? -/
def Block.companionBad (b : Block) (ops : List (BitVec 512)) (c : BitVec 128) : Bool :=
  match b.tensor (fld c 15 0), b.tensor (fld c 31 16) with
  | some t, some x =>
    let patch := fld c 65 64 == 2
    !(patch || fld c 65 64 == 1) || x.rows != t.rows || x.cols != t.cols || x.magpie || !x.scaled
      || (if patch then some x.format != targetOf (rungOf t.format) || x.square != t.square
              || ops.any (fun op => isArray op && (opOut op).tensor == fld c 15 0 && (opOut op).row % 128 != 0)
          else (match targetOf (rungOf t.format) with
            | some y => rungOf x.format < rungOf y
            | none => false))
  | _, _ => true

/-- Does a MOVE break R266 or R276? -/
def Block.moveBad (b : Block) (op : BitVec 512) : Bool :=
  let n := 32768 * moveTiles op
  let side (x : Bool × Nat) : Bool := x.1 || b.inOneParcel x.2 n
  opCode op == 0x10 && (!side (moveSide op 4) || (if moveKind op == 1 then (match b.parcelAt (moveSide op 4).2 with
      | some p => p.pin
      | none => true)
    else !side (moveSide op 6)))

/-- Does an operation or a broadcast name a group that is not VALID, or one whose KIND does not suit it (R362)? -/
def Block.groupsBad (b : Block) (ops : List (BitVec 512)) : Bool :=
  let unsuited (g kind : Nat) : Bool := match b.group g with
    | some d => gKind d != kind
    | none => true
  ops.any (fun op => isArray op && opFlag op 7 && unsuited (opAux op) 0) || b.bcasts.any (fun e => unsuited e.group 2)

/-- Do two weight-gradient tensors name one layer, or has one other rows than its layer's master tensor (R373)? -/
def Block.gradsBad (b : Block) (ops : List (BitVec 512)) : Bool :=
  let gs := ops.filter (fun op => opCode op == 3 && opFlag op 7)
  gs.any (fun x => gs.any (fun y => opAux x == opAux y && opLayer x == opLayer y && (opOut x).tensor != (opOut y).tensor)
    || (match b.tensor (opOut x).tensor, b.tensor (fld (b.layer (opLayer x)) 159 144) with
      | some t, some m => t.rows != m.rows
      | _, _ => false))

/-- The parts of a stream between COMMITs: is there a COMMIT before, is there one after, and the operations. -/
def spanParts (opened : Bool) (acc : List (BitVec 512)) : List (BitVec 512) → List (Bool × Bool × List (BitVec 512))
  | [] => [(opened, false, acc)]
  | op :: rest => if opCode op == 0x18 then (opened, true, acc) :: spanParts true [] rest else spanParts opened (acc ++ [op]) rest

/-- Does a part that holds operations of a RESCALE_REPLAY layer break R253? -/
def Block.spanBad (b : Block) : Bool × Bool × List (BitVec 512) → Bool
  | (opened, closed, ops) =>
    let filler (op : BitVec 512) : Bool := [0x19, 0x1A, 0x1F].contains (opCode op)
    match ops.find? (fun op => !filler op && b.inSpan op) with
    | none => false
    | some x => !opened || !closed || ops.any (fun op => !filler op && (opCode op == 0x10 || opLayer op != opLayer x)) || 200000 < ops.foldl (fun n op => n + opPred op) 0

/-- Does an array operation's tile cover that of another on the same array (R154)? -/
def coversTile (x op : BitVec 512) : Bool :=
  isArray x && isArray op && unitOf (opCode x) == unitOf (opCode op) && opRows op ≤ opRows x && opCols op ≤ opCols x

/-- The operations after one, up to the last that consumes its output (R473): none where nothing does. A store range is consumed until it is overwritten, piece by piece; its barrels are consumed by every ACC_ADD that continues the sum,
until a tile overwrites them (log 105). -/
def Block.lastUse (b : Block) (op : BitVec 512) (after : List (BitVec 512)) : Nat :=
  let idx := (List.range after.length).zip after
  let readers := (idx.filter (fun ((i, x) : Nat × BitVec 512) => b.readsStore (b.storeLeft op (after.take i)) x)).map (·.1 + 1)
  let open_ := idx.takeWhile (fun ((_, x) : Nat × BitVec 512) => !(coversTile x op && bitsOf (opAcc x) 5 5 == 0))
  let acc := (open_.filter (fun ((_, x) : Nat × BitVec 512) => isArray op && isArray x && unitOf (opCode x) == unitOf (opCode op) && bitsOf (opAcc x) 5 5 == 1)).map (·.1 + 1)
  (readers ++ acc).foldl Nat.max 0

/-- Does an operation of a stream break R474, with the operations before and after it? It does where its output is consumed too late, or where it reads what the step
writes only later: a part of a range, or barrels, which a part of a split other than part 0 does not read (R102). -/
def Block.retainBad (b : Block) (before : List (BitVec 512)) (op : BitVec 512) (after : List (BitVec 512)) (laterPart : Bool) : Bool :=
  let n := b.lastUse op after
  let old := leftOver (b.storeReads op) (before.map b.storeWrites).flatten
  (n != 0 && 100000 < (op :: after.take n).foldl (fun k x => k + opPred x) 0)
    || old.any (fun r => (op :: after).any (fun x => (b.storeWrites x).any (meets r)))
    || (isArray op && bitsOf (opAcc op) 5 5 == 1 && !laterPart && !before.any (fun x => coversTile x op))

/-- Does a croft's stream break R253 or R474 under one schedule? -/
def Block.streamBad (b : Block) (croft sched : Nat) (stream : List (BitVec 512)) : Bool :=
  let is_ := (List.range stream.length).filter (fun i => let op := stream.getD i 0; opKnown (opCode op) && (opSched op == 0 || opSched op == sched))
  let ops := is_.map (fun i => stream.getD i 0)
  (spanParts false [] ops).any b.spanBad || (List.range ops.length).any (fun k =>
    b.retainBad (ops.take k) (ops.getD k 0) (ops.drop (k + 1)) ((b.splitOf croft (is_.getD k 0)).head? != some (croft, is_.getD k 0)))

/-- Is the loaded almanac refused with BAD_OPERATION (R444)? -/
def Block.loadBad (b : Block) : Bool :=
  match b.job.almanac with
  | none => false
  | some a =>
    let ops := a.streams.flatten
    a.tensors.any (fun v => b.tensorBad (tensorOf v)) || a.companions.any (b.companionBad ops) || !(a.companions.map (fun c => fld c 15 0)).Nodup
      || b.groupsBad ops || b.gradsBad ops || ops.any b.moveBad
      || ((List.range a.streams.length).zip a.streams).any (fun x => b.streamBad x.1 1 x.2 || b.streamBad x.1 2 x.2)

/-! JOB_LOAD and JOB_UNLOAD -/

/-- Magpie descriptors of an image (R15, R137, R440, R444). -/
def magpiesOf (img : List Byte) : List (Nat × BitVec 64) := (entriesOf img 6).map (fun v => (bitsOf v 79 64, BitVec.ofNat 64 (writable 5 (bitsOf v 63 0))))

/-- Layer descriptors of an image (R15, R204, R444): a load writes E_L, and so both E_GEN. -/
def layersOf (img : List Byte) : List (BitVec 512) :=
  (entriesOf img 4).map (fun v => BitVec.ofNat 512 (putBits (putBits (writable 1 v) 87 78 (bitsOf v 67 58)) 77 68 (bitsOf v 67 58)))

/-- Guard descriptors of an image, or their reset values (R15, R230, R444). -/
def guardsOf (img : List Byte) (layers : Nat) : List (BitVec 64) :=
  let gs := entriesOf img 5
  if gs.isEmpty then List.replicate layers guardReset else gs.map (fun v => BitVec.ofNat 64 (writable 2 v))

/-- The block with an almanac loaded: its descriptors in place, nothing counted for the job yet, EPOCH_SHIFT 0 until a restore (R509). -/
def Block.loadAlmanac (b : Block) (jobId : Nat) (img : List Byte) (sites : List RotationSite) : Block :=
  let a := { almanacOf img with rotations := sites }
  let b := b.closeSession.idle
  { b with dev := { b.dev with state := 3 }, job := { id := jobId, almanac := some a }, tally := {}, mill := {},
           desc := { b.desc with layer := layersOf img, guard := guardsOf img a.layers, magpie := magpiesOf img, snap := setFld b.desc.snap 575 512 0 } }

/-- Would a slot of the tally buffer exceed STRIDE (R227)? -/
def Block.slotTooLong (b : Block) : Bool :=
  fld b.desc.tallyBuf 115 96 * 4096 < (b.slotBytes {} b.tallyTags).length + 64

/-- JOB_LOAD (R227, R443, R444, R569, R612). -/
def execJobLoad (h : Hdr) (jobId : Nat) (image : JobImage) (s : State) : Host.Outcome State Fault Refusal :=
  .next (s.host h 0x10 (fun s =>
    let img := slice image.bytes 0 h.payloadLen
    let b := s.m.loadAlmanac jobId img image.sites
    if s.m.boot.committing || !s.m.checkCrofts.isEmpty then s.finish h 0x10 4
    else match (almanacBad img).toList ++ (if 0xFFFE < jobId then [24] else []) with
      | n :: ns => s.bad h 0x10 (ns.foldl Nat.min n)
      | [] => if b.slotTooLong then s.bad h 0x10 16 else if b.loadBad then s.finish h 0x10 3 else (s.on (fun _ => b)).finish h 0x10 0))

/-- Suspect crofts are remapped before the module leaves LOADED (R535); the spare begins empty (R172, R187). One whose die has given its spare to another croft meanwhile runs the
diagnostic (R482), whose verdict no row brings: it is a free value (log 41). -/
def State.remapSuspects (s : State) : State :=
  (List.range s.m.crofts.length).foldl (fun s n =>
    if !(s.m.croft n).suspect then s
    else if s.m.spareFree (dieOf n) then (s.on (·.remapCroft n)).wipeCroft n
    else
      let (k, b) := s.m.freeNat 2
      (s.on (fun _ => b)).diagnosed n (k == 0)) s

/-- The norm and storm descriptors at their Reset columns (R200, R259). -/
def Block.freshJobDescs (b : Block) : Block :=
  let d : Desc := {}
  { b with desc := { b.desc with layer := [], guard := [], magpie := [], norm := d.norm, storm := d.storm } }

/-- JOB_UNLOAD (R443, R456, R520, R541): the almanac, its tables and its descriptors go; parcels and their contents stay. A module that a failed
diagnostic has taken out of service stays so (R482). -/
def execJobUnload (h : Hdr) (s : State) : Host.Outcome State Fault Refusal :=
  .next (s.host h 0x11 (fun s =>
    ((s.abandonImage 8).remapSuspects.on (fun b =>
      let b := b.idle.freshJobDescs
      { b with faults := { b.faults with ownJ := false }, dev := { b.dev with state := if b.dev.state == 6 then 6 else 2, bellPassed := false, bellDone := false }, job := {},
               safety := { b.safety with faultLine := false } })).finish h 0x11 0))

/-! JOB_START, JOB_STOP, JOB_ABORT -/

/-- The packet byte of a JOB_START field refused (R443, R525). -/
def Block.startBad (b : Block) (takenAt : Nat) (jobKey : W64) (tStart firstStep : Nat) : Option Nat :=
  let (keyBad, stepBad) := match b.job.restored with
    | .done id check _ _ => (mix jobKey != check, firstStep != id)
    | _ => (false, false)
  if keyBad then some 24 else if tStart < takenAt + 1000000 then some 32 else if stepBad then some 40 else none

/-- The job begins to run: its key, first step and start (R443), fault epochs at 0 (R485), NORM_ANCHOR at ANCHOR_INIT unless restored, whatever FIRST_STEP is (R200 says so of step 0;
DESIGN CHOICE, log 110), LAST_BARRIER (R509) and, after
a restore, EPOCH_SHIFT (R525). -/
def Block.startJob (b : Block) (jobKey : W64) (tStart firstStep : Nat) : Block :=
  let b := { b with mill := { b.mill with digests := b.mill.digests.filter (fun y => y.step < firstStep), lastStep := b.mill.lastStep.filter (· < firstStep), rank0 := [], twinDigests := [] },
                    tally := { b.tally with normSat := false, layerNow := [] }, clk := { b.clk with offset := 0, offsetLate := false } }
  let b := b.idle
  let snap := setFld b.desc.snap 703 640 tStart
  let (snap, norm) := match b.job.restored with
    | .done _ _ barrier shift => (setFld snap 575 512 (shift + (tStart - barrier)), b.desc.norm)
    | _ => (snap, setFld b.desc.norm 111 100 (fld b.desc.norm 99 88))
  { b with dev := { b.dev with state := 4, bellDone := false, bellPending := false }, desc := { b.desc with snap := snap, norm := norm },
           job := { b.job with key := jobKey, firstStep := firstStep, tStart := tStart, step := firstStep, begun := false, boundaryAt := tStart, stops := [],
                               postAbort := false, mbStart := [] },
           faults := { b.faults with epochs := [], open_ := [], clears := [], bells := [], watches := [], ownJ := false },
           snap := { b.snap with anyBarrier := false } }

/-- Every entry of the slice-exponent table of each REDUCE_OWNER group is written with EXP_INIT (R376). -/
def State.writeExpInit (s : State) (firstStep : Nat) : State :=
  s.m.desc.groups.foldl (fun s g =>
    if !flag g.desc 210 || gKind g.desc != 0 then s
    else (List.range (s.m.sliceCount g.index)).foldl (fun s i => s.writeExp g.desc i firstStep (signed 10 (fld g.desc 239 230))) s) s

/-- JOB_START (R443, R524, R525). A failed diagnostic takes the module out of service instead (R482, R535). -/
def execJobStart (h : Hdr) (jobKey : W64) (tStart firstStep : Nat) (s : State) : Host.Outcome State Fault Refusal :=
  .next (s.host h 0x12 (fun s =>
    if !s.m.clk.locked || s.m.job.restored == .failed then s.finish h 0x12 5
    else match s.m.startBad (((s.m.takenCmd h.ring h.tag).map (·.takenAt)).getD s.m.fabNs) jobKey tStart firstStep with
      | some n => s.bad h 0x12 n
      | none =>
        let s := match s.m.job.restored with
          | .done .. => s
          | _ => s.writeExpInit firstStep
        let s := s.remapSuspects
        if s.m.dev.state == 6 then s.finish h 0x12 7
        else (s.on (fun b => (b.startJob jobKey tStart firstStep).announce true)).await h 0x12 (.jobStart tStart)))

/-- JOB_STOP (R443): the job ends at the boundary that ends LAST_STEP, or at the next where that has passed. -/
def execJobStop (h : Hdr) (lastStep : Nat) (s : State) : Host.Outcome State Fault Refusal :=
  .next (s.host h 0x13 (fun s => (s.on (fun b => { b with job := { b.job with stops := b.job.stops ++ [lastStep] } })).await h 0x13 .jobStop))

/-- JOB_ABORT (R443, R494, R499): the bell is raised with this module as origin, also while another is pending; the command completes at the earliest Ta. -/
def execJobAbort (h : Hdr) (hostReason : BitVec 32) (s : State) : Host.Outcome State Fault Refusal :=
  let abort (s : State) : State :=
    (s.raiseBell s.m.moduleId (s.m.lastEpoch s.m.moduleId + 1) 0 true hostReason.toNat).await h 0x14 .jobAbort
  .next (if s.m.dev.state == 5 && s.m.dev.bellPending then abort s else s.host h 0x14 abort)

/-! RESTORE (R521 to R527) -/

/-- A field of an image's header (R515). -/
def snapHead (img : List Byte) (hi lo : Nat) : Nat := bitsOf (leAt img 0 64) hi lo
/-- The image's trailer (R517). -/
def snapTail (img : List Byte) : Nat := leAt img (snapHead img 191 128 - 64) 64

/-- Is an image the complete image of a SNAP_ID (R517)? -/
def isImageOf (img : List Byte) (snapId : Nat) : Bool :=
  64 ≤ snapHead img 191 128 && snapHead img 191 128 ≤ img.length && bitsOf (snapTail img) 191 128 == snapHead img 191 128 && snapHead img 255 192 == snapId && bitsOf (snapTail img) 63 0 == snapId

/-- The image of a SNAP_ID in the host slots (R519, R521). -/
def State.hostImage (s : State) (snapId : Nat) : List Byte :=
  let units := fld s.m.desc.snap 175 144
  let slot (k : Nat) : List Byte :=
    let a := s.m.hostAddr (fld s.m.desc.snap 279 228 + k * units * 65536)
    s.mem.host.readBytes a (Nat.min (bitsOf (s.mem.host.readNat a 64) 191 128) (units * 65536))
  let a := slot 0
  if isImageOf a snapId then a else slot 1

/-- Is the SENDER acceptable (R521): this module, its partner or its twin, or a module that is not in the job, whose place this one takes? -/
def State.senderOk (s : State) (sender : Nat) : Bool :=
  sender == s.m.moduleId || (match s.m.normGroup with
    | none => true
    | some (_, d) =>
      let e := s.rankEntry d (gRank d)
      sender == e.1 || sender == e.2 || (s.rankOf d sender).isNone)

/-- The twin or partner of this module in the NORM_GROUP (R523); 0x3FFF: none. -/
def State.twinOf (s : State) : Nat :=
  match s.m.normGroup with
  | none => 0x3FFF
  | some (_, d) =>
    let e := s.rankEntry d (gRank d)
    if e.1 == s.m.moduleId then e.2 else if e.2 == s.m.moduleId then e.1 else 0x3FFF

/-- A page record of an image (R516): address, tile headers, stored tiles. -/
structure PageRec where
  address : Nat
  head0 : BitVec 64
  head1 : BitVec 64
  tile0 : List Byte
  tile1 : List Byte
deriving DecidableEq, Repr

/-- The page records of an image from an offset. -/
def pageRecs (img : List Byte) : Nat → Nat → List PageRec
  | 0, _ => []
  | n + 1, off =>
    let h0 := BitVec.ofNat 64 (leAt img (off + 8) 8)
    let h1 := BitVec.ofNat 64 (leAt img (off + 16) 8)
    let l0 := 64 * fld h0 19 10
    let l1 := 64 * fld h1 19 10
    { address := leAt img off 8, head0 := h0, head1 := h1, tile0 := slice img (off + 32) l0, tile1 := slice img (off + 32 + l0) l1 } :: pageRecs img n (off + 32 + l0 + l1)

/-- A decoded page of a record, unless a tile fails its CRC (R285). -/
def State.decodePage (s : State) (r : PageRec) : Option (List Byte) :=
  let t0 := decodeTile r.head0 (s.m.elemsAt r.address) r.tile0
  let t1 := decodeTile r.head1 (s.m.elemsAt (r.address + 32768)) r.tile1
  let ok (h : BitVec 64) (t : List Byte) : Bool := fld h 1 0 == 0 || (crc32c t).toNat == fld h 63 32
  if ok r.head0 t0 && ok r.head1 t1 then some (t0 ++ t1) else none

/-- Page records written in order (R522 step 5): the pages with their bytes, or none at the first that fails. -/
def State.writeRecs (s : State) : List PageRec → State × Option (List (Nat × List Byte))
  | [] => (s, some [])
  | r :: rs =>
    match s.decodePage r with
    | none => (s, none)
    | some bytes =>
      match (s.writeTiles 3 r.address bytes).writeRecs rs with
      | (s, some l) => (s, some ((r.address, bytes) :: l))
      | (s, none) => (s, none)

/-- The pages flushed of every slot, as they stand at a barrier (R407, R408): those before the page of the first position not yet written. -/
def Block.flushedAtBarrier (b : Block) : Cache :=
  let c := b.cacheD
  { flushed := if !c.valid then [] else ((List.range c.slots).map (fun n =>
      let e := b.seq n
      let held := if seqState e == 1 then seqTokens e - seqAppend e else seqTokens e
      (List.range (c.pageOf held).1).map (fun i => (n, i)))).flatten }

/-- The digest of the written bytes and the applied job part (R518, R522 step 7). -/
def Block.restoredDigest (b : Block) (pages : List (Nat × List Byte)) (jobPart : List Byte) : BitVec 64 :=
  pages.foldl (fun d ((a, bytes) : Nat × List Byte) => if b.edgePage (a / 65536) then d else d + crc64 (leBytes 8 a ++ bytes)) (crc64 jobPart)

/-- Steps 6 to 9 of R522: the state is applied, and the digest sent to the twin, compared with one that came, or with the recorded one. -/
def State.applyImage (s : State) (h : Hdr) (img : List Byte) (pages : List (Nat × List Byte)) : State :=
  let section_ := slice img 64 (snapHead img 95 64)
  let jobPart := section_.take (section_.length - 280)
  let s := s.on (fun b =>
    let b := b.applyJobPart jobPart
    let b := if snapHead img 63 50 == b.moduleId then b.applyIdentity (section_.drop (section_.length - 280)) else b
    { b with cache := b.flushedAtBarrier })
  let digest := s.m.restoredDigest pages jobPart
  let id := snapHead img 255 192
  let twin := s.twinOf
  let w : Wait := { ring := h.ring, tag := h.tag, opcode := 0x15, noIrq := h.noIrq,
                    wait := .restore id digest (BitVec.ofNat 64 (bitsOf (snapTail img) 127 64)) (BitVec.ofNat 64 (snapHead img 447 384)) (snapHead img 383 320) (snapHead img 319 256)
                      twin s.m.span }
  let s := s.await h 0x15 w.wait
  if twin == 0x3FFF then s.recordedDigest w
  else
    let s := match s.m.normGroup with
      | some (g, d) =>
        s.on (fun b => (b.send (mkPkt twin 16 b.moduleId 16 false 9 0 (millParam g 0 7 (s.amTwin d) false) b.job.id (millExt 0 0xFFFFFFE)
          (leBytes 32 (putBits (putBits 0 255 192 id) 63 0 digest.toNat))) (s.edgeOf d twin)).bump .contribsSent)
      | none => s
    match s.m.snap.twinDigest with
    | some (source, i, t, came) => s.twinSays source i t came
    | none => s

/-- RESTORE (R521 to R524): from the host slots the module reads the image itself; from another module it comes over the fabric, with the command. `tries` attempts at reading it failed
(R306). -/
def execRestore (h : Hdr) (snapshotId source _sourceModule : Nat) (image : List Byte) (tries : Nat) (s : State) : Host.Outcome State Fault Refusal :=
  .next (s.host h 0x15 (fun s =>
    let img := if source == 2 then s.hostImage snapshotId else image
    let rs := pageRecs img (snapHead img 127 96) (64 + snapHead img 95 64)
    let pageOk (r : PageRec) : Bool := match s.m.parcelAt r.address with
      | some p => r.address % 65536 == 0 && !s.m.excludedIds.contains p.id
      | none => false
    if flag s.m.desc.snap 3 || s.m.snap.image.isSome then s.finish h 0x15 4
    else if source = 0 || 3 < source then s.bad h 0x15 32
    else if !isImageOf img snapshotId || !s.senderOk (snapHead img 63 50) then s.bad h 0x15 24
    else if some (snapHead img 511 448) != s.m.job.almanac.map (·.crc.toNat) then s.finish h 0x15 3
    else if !rs.all pageOk then s.bad h 0x15 24
    else
      let s := s.on (fun b => { b with job := { b.job with restored := .failed } })
      let lost := 3 ≤ tries || (source == 2 && s.m.dev.ideState == 2)
      let s := if source == 2 then s.on (·.bump .retries (if lost then 2 else tries)) else s
      if lost then s.finish h 0x15 (if source == 2 then 8 else 0x30)
      else match s.writeRecs rs with
        | (s, some pages) => s.applyImage h img pages
        | (s, none) => (s.on (fun b => (b.bump .ioFailed).raiseC 0x28)).finish h 0x15 0x28))

end Sys2Proof.Machine
end

