-- ==== Sys2Proof/Machine/Power.lean ====
section
/-! DEFINITION. Input power, rails, the power cap and the thermal limits (R453, R576 to R588, R593, R600). -/
namespace Sys2Proof.Machine

/-! The main domain goes down (R541, R578 to R584) -/

/-- A class M error that the safety monitor carries out itself (R458, R494, R541): counted and posted while the main domain still runs, the bell raised where a job
runs, the fault line asserted. -/
def State.classM (s : State) (e : ErrorRec) : State :=
  let e := { e with at_ := s.m.now, suspectAt := s.m.now }
  let s := (s.countError e).on (fun b => { b.detection e with safety := { (b.detection e).safety with faultLine := true } })
  if s.m.jobRuns then s.raiseBell s.m.moduleId (s.m.lastEpoch s.m.moduleId + 1) e.code false 0 e.suspectAt else s

/-- Does any of the main domain have power? -/
def Block.powered (b : Block) : Bool := b.power.main == .on || b.power.main == .island

/-- The main domain is to power down, `delay` ns from now, unless that is due already. -/
def Block.shedAt (b : Block) (delay : Nat) : Block :=
  { b with power := { b.power with downAt := if b.powered then some (Nat.min (b.power.downAt.getD (b.span + delay)) (b.span + delay)) else b.power.downAt } }

/-- An input condition of R578: class M where a job runs. -/
def State.shedInput (s : State) (delay : Nat) : State :=
  let s := if s.m.jobRuns && !s.m.power.inputShed then s.classM { cls := .m, code := 0x0A, at_ := 0 } else s
  s.on (fun b => ({ b with power := { b.power with inputShed := true } } : Block).shedAt delay)

/-- POWER_FAIL_WARNING (R579, R580): several causes make one warning. FAULT_N, the bell, the power-down 50 us later, and a commit of the log, one with a
scheduled commit of the same instant (R600); a flash write ends. -/
def execPowerFailWarning (t : Nat) (s : State) : Host.Outcome State Fault Refusal :=
  let s := s.on (·.advanceTo t)
  if !s.m.power.standby || s.m.power.warnedAt.isSome then .next s
  else
    let s := (s.on (fun b => { b with safety := { b.safety with faultLine := true }, power := { b.power with warnedAt := some b.span } })).shedInput 50000
    .next (s.on (fun b =>
      let b : Block := if b.boot.committing then { b with boot := { b.boot with committing := false, flashImage := [] } } else b
      let scheduled := b.life.savedSpan == b.span && Nat.ble 600000000000 b.span
      let was := b.life
      let b := b.commitLife
      if scheduled then { b with life := { b.life with copyB := was.copyB, before := was.before } } else b))

/-- INPUT_OVERVOLTAGE (R578). -/
def execInputOvervoltage (t : Nat) (s : State) : Host.Outcome State Fault Refusal :=
  let s := s.on (·.advanceTo t)
  .next (if s.m.power.standby then s.shedInput 0 else s)

/-- INPUT_OVERCURRENT (R578). -/
def execInputOvercurrent (t : Nat) (s : State) : Host.Outcome State Fault Refusal :=
  let s := s.on (·.advanceTo t)
  .next (if s.m.power.standby then s.shedInput 0 else s)

/-- PRSNT_N_BREAK (R578, R599). -/
def execPrsntNBreak (t : Nat) (s : State) : Host.Outcome State Fault Refusal :=
  let s := s.on (·.advanceTo t)
  if !s.m.power.prsntOk then .next s
  else
    let s := if s.m.jobRuns then s.classM { cls := .m, code := 0x0A, at_ := 0 } else s
    .next (s.on (fun b => ({ b with power := { b.power with prsntOk := false } } : Block).shedAt 0))

/-- INPUT_TRANSIENT (R576, R616): counted in section 0x03 of the lifetime log, and class C, ENVIRONMENT. -/
def execInputTransient (t : Nat) (s : State) : Host.Outcome State Fault Refusal :=
  .next (atTime t (fun b => (b.bump (.life 3 28)).raiseC 0x36) s)

/-- The main domain powers down (R584): no port transmits, no write leaves, and what it held is lost. -/
def State.powerDown (s : State) : State :=
  s.dropMain.on (fun b => { b with power := { b.power with main := .falling, downAt := none } })

/-- POWER_DOWN_START (R579, R584). -/
def execPowerDownStart (t : Nat) (s : State) : Host.Outcome State Fault Refusal :=
  let s := s.on (·.advanceTo t)
  match s.m.power.downAt with
  | some d => .next (if s.m.powered && Nat.ble d s.m.span then s.powerDown else s)
  | none => .next s

/-- POWER_DOWN_COMPLETE (R584). -/
def execPowerDownComplete (t : Nat) (s : State) : Host.Outcome State Fault Refusal :=
  .next (atTime t (fun b => if b.power.main == .falling then { b with power := { b.power with main := .off } } else b) s)

/-- INPUT_RETURN (R581): the input has stayed at or above 40 V for 100 ms; the power-down has completed, and boot runs from step 3 as a module reset, unless PERST_N or
PRSNT_N forbids it. -/
def execInputReturn (t : Nat) (b : BootSense) (s : State) : Host.Outcome State Fault Refusal :=
  let s := s.on (·.advanceTo t)
  if !s.m.power.standby || !s.m.power.inputShed then .next s
  else
    let s := (if s.m.powered then s.powerDown else s).on (fun b => { b with power := { b.power with main := .off, downAt := none, warnedAt := none, inputShed := false } })
    .next (if s.m.mayBoot then s.moduleReset b else s.on (fun b => { b with boot := { b.boot with resetDueAt := some b.clk.own } }))

/-! PERST_N (R593) -/

/-- PERST_N_ASSERT (R593): low for 1 us: the bell first where a job runs (the manual gives its ERROR no value; log 8), then the power-down. -/
def execPerstNAssert (t : Nat) (s : State) : Host.Outcome State Fault Refusal :=
  let s := s.on (·.advanceTo t)
  if s.m.power.perstLow || !s.m.power.standby then .next s
  else
    let s := if s.m.jobRuns then
        let (e, b) := s.m.freeNat 256
        let s := { s with m := b }
        s.raiseBell s.m.moduleId (s.m.lastEpoch s.m.moduleId + 1) e false 0
      else s
    let s := if s.m.powered then s.powerDown else s
    .next (s.on (fun b => { b with power := { b.power with perstLow := true } }))

/-- PERST_N_RELEASE (R593): boot from step 3, or a module reset owed until the power-down is complete. -/
def execPerstNRelease (t : Nat) (b : BootSense) (s : State) : Host.Outcome State Fault Refusal :=
  let s := s.on (·.advanceTo t)
  if !s.m.power.perstLow then .next s
  else
    let s := s.on (fun b => { b with power := { b.power with perstLow := false } })
    .next (if s.m.mayBoot then s.moduleReset b else s.on (fun b => { b with boot := { b.boot with resetDueAt := some b.clk.own } }))

/-! The power cap (R585, R586) -/

/-- Is the clock or the issue duty below its full value (R585)? -/
def throttled (d : BitVec 256) : Bool := Nat.blt (fld d 95 80) 3000 || Nat.blt (fld d 79 64) 256

/-- A change of the power descriptor: THROTTLE_EVENTS counts each entry into throttling, THROTTLE_NS its time (R585). -/
def Block.onPower (b : Block) (f : BitVec 256 → BitVec 256) : Block :=
  let d := f b.desc.power
  match b.power.throttledAt, throttled d with
  | none, true => { b with desc := { b.desc with power := setFld d 191 160 (addSatW 32 (fld d 191 160) 1) }, power := { b.power with throttledAt := some b.span } }
  | some since, false => { b with desc := { b.desc with power := setFld d 255 192 (addSat (fld d 255 192) (b.span - since)) }, power := { b.power with throttledAt := none } }
  | _, _ => { b with desc := { b.desc with power := d } }

/-- One step down: the clock by 100 MHz to 1,500 MHz, then the duty by 0x10 to 0x40 (R586, R588). -/
def throttleDown (d : BitVec 256) : BitVec 256 :=
  if Nat.blt 1500 (fld d 95 80) then setFld d 95 80 (Nat.max 1500 (fld d 95 80 - 100)) else setFld d 79 64 (Nat.max 0x40 (fld d 79 64 - 0x10))

/-- P_LIM (R586). -/
def powerLimit (d : BitVec 256) : Nat := if flag d 2 then 2000 else Nat.min (fld d 63 48) 3000

/-- Has a cause other than the power cap held within the last 500 us (R586)? -/
def Block.otherCause (b : Block) : Bool :=
  flag b.desc.power 1 || (match b.power.causeAt with
  | some c => Nat.blt b.span (c + 500000)
  | none => false)

/-- One comparison of P100 with P_LIM (R586). -/
def Block.capCheck (b : Block) (p100 : Nat) : Block :=
  let d := b.desc.power
  let lim := powerLimit d
  if Nat.blt (97 * lim) (100 * p100) then
    let b := b.onPower (fun d => setFld (throttleDown d) 0 0 1)
    { b with power := { b.power with movedAt := b.span } }
  else if Nat.blt (100 * p100) (90 * lim) && !b.otherCause && throttled d then
    if Nat.blt (fld d 79 64) 256 then
      let b := b.onPower (fun d =>
        let d := setFld d 79 64 (Nat.min 256 (fld d 79 64 + 0x10))
        if throttled d then d else setFld d 0 0 0)
      { b with power := { b.power with movedAt := b.span } }
    else if b.power.movedAt + 500000 ≤ b.span then
      let b := b.onPower (fun d =>
        let d := setFld d 95 80 (Nat.min 3000 (fld d 95 80 + 100))
        if throttled d then d else setFld d 0 0 0)
      { b with power := { b.power with movedAt := b.span } }
    else b
  else b

/-- Has a period passed since an instant, if it has come at all? -/
def Block.periodPast (b : Block) (at_ : Option Nat) (period : Nat) : Bool :=
  match at_ with
  | some a => Nat.ble (a + period) b.span
  | none => true

/-- POWER_CAP_CHECK (R585, R586): every 10 us; INPUT_W and VIN are shown. -/
def execPowerCapCheck (t p100 p1ms vin : Nat) (s : State) : Host.Outcome State Fault Refusal :=
  .next (atTime t (fun b =>
    if b.power.main != .on || !b.periodPast b.power.comparedAt 10000 then b
    else ({ b with desc := { b.desc with power := setFld (setFld b.desc.power 159 144 p1ms) 111 96 vin },
                   power := { b.power with comparedAt := some b.span } } : Block).capCheck p100) s)

/-! Thermal limits (R587, R588) -/

/-- The largest of some readings. -/
def hottest (l : List Int) : Int := l.foldl max (l.headD 0)

/-- A throttle entered is counted in section 0x02 (R587). -/
def Block.countThrottle (b : Block) (before after : Bool) : Block := if !before && after then b.bump (.life 2 200) else b

/-- The junction throttle (R588): set at 100 degrees; cleared once every junction has stayed below 97 degrees for 10 ms. -/
def Block.junctions (b : Block) (hot : Int) : Block :=
  let was := flag b.desc.power 1
  let b : Block := { b with power := { b.power with coolSince := if hot < 970 then some (b.power.coolSince.getD b.span) else none } }
  let cool := match b.power.coolSince with
    | some c => Nat.ble (c + 10000000) b.span
    | none => false
  let on := if 1000 ≤ hot then true else if cool then false else was
  let b := b.countThrottle was on
  let b : Block := { b with desc := { b.desc with power := setFld b.desc.power 1 1 (b2n on) } }
  if on || was then { b with power := { b.power with causeAt := some b.span } } else b

/-- The package throttle (R587): per package from 95 degrees until 92. -/
def Block.packageThrottle (b : Block) (temps : List Int) : Block :=
  let now := ((List.range temps.length).zip temps).filter (fun ((k, x) : Nat × Int) => 950 ≤ x || (920 < x && b.power.packages.contains k)) |>.map (·.1)
  let b := b.bump (.life 2 200) (now.filter (fun k => !b.power.packages.contains k)).length
  { b with power := { b.power with packages := now }, desc := { b.desc with power := setFld b.desc.power 3 3 (b2n !now.isEmpty) } }

/-- The power-stage throttle (R587): from 120 degrees until 117. -/
def Block.stageThrottle (b : Block) (x : Int) : Block :=
  let was := flag b.desc.power 2
  let on := if 1200 ≤ x then true else if x ≤ 1170 then false else was
  let b := b.countThrottle was on
  { b with desc := { b.desc with power := setFld b.desc.power 2 2 (b2n on) } }

/-- The coolant inlet out of range (R587): class C, ENVIRONMENT, once per second. -/
def Block.inletCheck (b : Block) (x : Int) : Block :=
  let due := match b.power.inletLoggedAt with
    | some l => Nat.ble (l + 1000000000) b.span
    | none => true
  if (450 < x || x < 150) && due then ({ b with power := { b.power with inletLoggedAt := some b.span } } : Block).raiseC 0x36 else b

/-- A shutdown of the main domain (R587): class M, counted, and a module reset is owed. -/
def State.shutdown (s : State) : State :=
  ((s.classM { cls := .m, code := 0x0A, at_ := 0 }).on (fun b => ((b.bump (.life 2 201)).shedAt 0))).on (fun b => { b with boot := { b.boot with resetDueAt := some b.clk.own } })

/-- Is a sensor at its shutdown limit (R587)? -/
def tooHot (r : Thermals) : Bool :=
  r.junctions.any (fun x => 1150 ≤ x) || r.ioControl.any (fun x => 1150 ≤ x) || r.packages.any (fun x => 1050 ≤ x) || 1300 ≤ r.stage

/-- THERMAL_SENSOR_READ (R585, R587, R588): every sensor is read. The first sixteen junctions are the compute dies', the others the larder dies'. -/
def execThermalSensorRead (t : Nat) (r : Thermals) (s : State) : Host.Outcome State Fault Refusal :=
  let s := s.on (·.advanceTo t)
  if s.m.power.main != .on then .next s
  else
    let hot := hottest r.junctions
    let s := s.on (fun b =>
      let b : Block := { b with power := { b.power with thermals := [hottest (r.junctions.take 16), hottest (r.junctions.drop 16), hottest r.packages, r.stage, r.inlet],
                                                        junctions := r.junctions ++ r.ioControl },
                                desc := { b.desc with power := setFld (setFld b.desc.power 143 128 (unsigned 16 hot)) 127 112 (unsigned 16 r.inlet) } }
      (((b.junctions hot).packageThrottle r.packages).stageThrottle r.stage).inletCheck r.inlet)
    let s := r.optics.foldl (fun s ((n, x) : Nat × Int) =>
      if 800 ≤ x && optical n && (s.m.port n).linkState != 4 && (s.m.port n).linkState != 5 then (s.on (·.bump (.life 2 201))).failPortAll n else s) s
    .next (if tooHot r && s.m.power.downAt.isNone then s.shutdown else s)

/-- THERMAL_THROTTLE_STEP (R588): while THERMAL is set, the clock falls by 100 MHz every 100 us, then the duty as in R586. -/
def execThermalThrottleStep (t : Nat) (s : State) : Host.Outcome State Fault Refusal :=
  .next (atTime t (fun b =>
    if flag b.desc.power 1 && b.periodPast b.power.stepAt 100000 then
      { b.onPower throttleDown with power := { (b.onPower throttleDown).power with movedAt := b.span, causeAt := some b.span, stepAt := some b.span } }
    else b) s)

/-- IDE_INTEGRITY_FAILURE (R453): a secure stream becomes insecure, and IDE_FAILED is posted. -/
def execIdeIntegrityFailure (t : Nat) (s : State) : Host.Outcome State Fault Refusal :=
  let s := s.on (·.advanceTo t)
  if s.m.dev.ideState != 1 then .next s
  else .next ((s.on (fun b => { b with dev := { b.dev with ideState := 2, ideOn := (false, false), ideKeys := [], idePending := [] } })).event 0x0C 7 (s.m.job.step % 2 ^ 32))

end Sys2Proof.Machine
end

