-- ==== Sys2Proof/Machine/Dispatch.lean ====
section
/-! DEFINITION. The dispatch: one arm per command. -/
namespace Sys2Proof.Machine

def exec (i : Instr) (s : State) : Host.Outcome State Fault Refusal :=
  match i with
  | .nop h => Sys2Proof.Machine.execNop h s
  | .descWrite h kind index payload => Sys2Proof.Machine.execDescWrite h kind index payload s
  | .descRead h kind index shadow => Sys2Proof.Machine.execDescRead h kind index shadow s
  | .copyIn h devAddr length payload acc => Sys2Proof.Machine.execCopyIn h devAddr length payload acc s
  | .copyOut h devAddr length acc => Sys2Proof.Machine.execCopyOut h devAddr length acc s
  | .parcelCreate h base pages home pin codec => Sys2Proof.Machine.execParcelCreate h base pages home pin codec s
  | .parcelFree h parcel => Sys2Proof.Machine.execParcelFree h parcel s
  | .parcelQuery h parcel => Sys2Proof.Machine.execParcelQuery h parcel s
  | .parcelMigrate h parcel tier firstPage pages => Sys2Proof.Machine.execParcelMigrate h parcel tier firstPage pages s
  | .pageQuery h address pages => Sys2Proof.Machine.execPageQuery h address pages s
  | .jobLoad h jobId image => Sys2Proof.Machine.execJobLoad h jobId image s
  | .jobUnload h => Sys2Proof.Machine.execJobUnload h s
  | .jobStart h jobKey tStart firstStep => Sys2Proof.Machine.execJobStart h jobKey tStart firstStep s
  | .jobStop h lastStep => Sys2Proof.Machine.execJobStop h lastStep s
  | .jobAbort h hostReason => Sys2Proof.Machine.execJobAbort h hostReason s
  | .restore h snapshotId source sourceModule image tries => Sys2Proof.Machine.execRestore h snapshotId source sourceModule image tries s
  | .drainTableLoad h croft table => Sys2Proof.Machine.execDrainTableLoad h croft table s
  | .laneProgLoad h croft image => Sys2Proof.Machine.execLaneProgLoad h croft image s
  | .fabricTableLoad h peers routes payload => Sys2Proof.Machine.execFabricTableLoad h peers routes payload s
  | .groupLoad h group payload => Sys2Proof.Machine.execGroupLoad h group payload s
  | .tallyRead h firstTag lastTag => Sys2Proof.Machine.execTallyRead h firstTag lastTag s
  | .digestRead h group => Sys2Proof.Machine.execDigestRead h group s
  | .fenceModule h => Sys2Proof.Machine.execFenceModule h s
  | .fenceGroup h group fenceId timeoutUs => Sys2Proof.Machine.execFenceGroup h group fenceId timeoutUs s
  | .fenceHost h => Sys2Proof.Machine.execFenceHost h s
  | .ideKeySet h streamId substream dir keySet payload => Sys2Proof.Machine.execIdeKeySet h streamId substream dir keySet payload s
  | .ideKeyGo h streamId dir keySet enable => Sys2Proof.Machine.execIdeKeyGo h streamId dir keySet enable s
  | .fwStage h offset payload => Sys2Proof.Machine.execFwStage h offset payload s
  | .fwCommit h imageLen => Sys2Proof.Machine.execFwCommit h imageLen s
  | .attest h outLen nonce => Sys2Proof.Machine.execAttest h outLen nonce s
  | .selfCheck h set croft result => Sys2Proof.Machine.execSelfCheck h set croft result s
  | .ringPoll t failed => Sys2Proof.Machine.execRingPoll t failed s
  | .payloadReadDone t ring tag tries => Sys2Proof.Machine.execPayloadReadDone t ring tag tries s
  | .ringEnWrite t ring value => Sys2Proof.Machine.execRingEnWrite t ring value s
  | .pollCtrlWrite t value => Sys2Proof.Machine.execPollCtrlWrite t value s
  | .mmioRefusedClear t => Sys2Proof.Machine.execMmioRefusedClear t s
  | .registerWrite t offset bytes value => Sys2Proof.Machine.execRegisterWrite t offset bytes value s
  | .faMatmul croft acc => Sys2Proof.Machine.execFaMatmul croft acc s
  | .baMatmulWs croft acc => Sys2Proof.Machine.execBaMatmulWs croft acc s
  | .baMatmulOs croft acc => Sys2Proof.Machine.execBaMatmulOs croft acc s
  | .laneRun croft acc => Sys2Proof.Machine.execLaneRun croft acc s
  | .stileWiden on_ => Sys2Proof.Machine.execStileWiden on_ s
  | .stileNarrow on_ => Sys2Proof.Machine.execStileNarrow on_ s
  | .moveCopy croft acc => Sys2Proof.Machine.execMoveCopy croft acc s
  | .moveMigrate on_ => Sys2Proof.Machine.execMoveMigrate on_ s
  | .moveOffload croft => Sys2Proof.Machine.execMoveOffload croft s
  | .movePrefetch croft => Sys2Proof.Machine.execMovePrefetch croft s
  | .commit croft adderOk => Sys2Proof.Machine.execCommit croft adderOk s
  | .fenceCroft croft => Sys2Proof.Machine.execFenceCroft croft s
  | .waitTime croft => Sys2Proof.Machine.execWaitTime croft s
  | .waitTimeExpiry t croft => Sys2Proof.Machine.execWaitTimeExpiry t croft s
  | .almanacNop croft => Sys2Proof.Machine.execAlmanacNop croft s
  | .tileDrain croft arr checks => Sys2Proof.Machine.execTileDrain croft arr checks s
  | .sliceExport croft adderOk => Sys2Proof.Machine.execSliceExport croft adderOk s
  | .repeatWider on_ => Sys2Proof.Machine.execRepeatWider on_ s
  | .spanReplay on_ => Sys2Proof.Machine.execSpanReplay on_ s
  | .laneNop croft => Sys2Proof.Machine.execLaneNop croft s
  | .add croft => Sys2Proof.Machine.execAdd croft s
  | .sub croft => Sys2Proof.Machine.execSub croft s
  | .mul croft => Sys2Proof.Machine.execMul croft s
  | .fma croft => Sys2Proof.Machine.execFma croft s
  | .div croft => Sys2Proof.Machine.execDiv croft s
  | .max croft => Sys2Proof.Machine.execMax croft s
  | .min croft => Sys2Proof.Machine.execMin croft s
  | .abs croft => Sys2Proof.Machine.execAbs croft s
  | .neg croft => Sys2Proof.Machine.execNeg croft s
  | .recip croft => Sys2Proof.Machine.execRecip croft s
  | .sqrt croft => Sys2Proof.Machine.execSqrt croft s
  | .rsqrt croft => Sys2Proof.Machine.execRsqrt croft s
  | .exp2 croft => Sys2Proof.Machine.execExp2 croft s
  | .log2 croft => Sys2Proof.Machine.execLog2 croft s
  | .cmp croft => Sys2Proof.Machine.execCmp croft s
  | .sel croft => Sys2Proof.Machine.execSel croft s
  | .mov croft => Sys2Proof.Machine.execMov croft s
  | .const croft => Sys2Proof.Machine.execConst croft s
  | .load croft => Sys2Proof.Machine.execLoad croft s
  | .loadMasterWeight croft => Sys2Proof.Machine.execLoadMasterWeight croft s
  | .loadClipFactor croft => Sys2Proof.Machine.execLoadClipFactor croft s
  | .loadLr croft => Sys2Proof.Machine.execLoadLr croft s
  | .loadHyp croft => Sys2Proof.Machine.execLoadHyp croft s
  | .loadStepNumber croft => Sys2Proof.Machine.execLoadStepNumber croft s
  | .store croft => Sys2Proof.Machine.execStore croft s
  | .storeMaster croft => Sys2Proof.Machine.execStoreMaster croft s
  | .storeFirstMoment croft => Sys2Proof.Machine.execStoreFirstMoment croft s
  | .storeSecondMoment croft => Sys2Proof.Machine.execStoreSecondMoment croft s
  | .storeForwardCopy croft => Sys2Proof.Machine.execStoreForwardCopy croft s
  | .storeBackwardCopy croft => Sys2Proof.Machine.execStoreBackwardCopy croft s
  | .draw croft => Sys2Proof.Machine.execDraw croft s
  | .shuf croft => Sys2Proof.Machine.execShuf croft s
  | .redAdd croft => Sys2Proof.Machine.execRedAdd croft s
  | .redMax croft => Sys2Proof.Machine.execRedMax croft s
  | .phaseEnd croft => Sys2Proof.Machine.execPhaseEnd croft s
  | .endProgram croft => Sys2Proof.Machine.execEndProgram croft s
  | .cacheFlushDone t slot tries => Sys2Proof.Machine.execCacheFlushDone t slot tries s
  | .forcedCommit t croft => Sys2Proof.Machine.execForcedCommit t croft s
  | .commitHoldLimit t crofts => Sys2Proof.Machine.execCommitHoldLimit t crofts s
  | .stepBoundary t => Sys2Proof.Machine.execStepBoundary t s
  | .tallySlotTrailer t => Sys2Proof.Machine.execTallySlotTrailer t s
  | .retiredPageRetry t page tries => Sys2Proof.Machine.execRetiredPageRetry t page tries s
  | .pageMigrationSwitch t page tries => Sys2Proof.Machine.execPageMigrationSwitch t page tries s
  | .squirrelMoveStart t queue => Sys2Proof.Machine.execSquirrelMoveStart t queue s
  | .completionTimeout t croft => Sys2Proof.Machine.execCompletionTimeout t croft s
  | .cellarCalibration t channel => Sys2Proof.Machine.execCellarCalibration t channel s
  | .cellarRetrain t channel => Sys2Proof.Machine.execCellarRetrain t channel s
  | .cellarRetrainDone t channel => Sys2Proof.Machine.execCellarRetrainDone t channel s
  | .scrub t tier frame found pass => Sys2Proof.Machine.execScrub t tier frame found pass s
  | .nullFlit t port f => Sys2Proof.Machine.execNullFlit t port f s
  | .dataFlit t port f adderOk => Sys2Proof.Machine.execDataFlit t port f adderOk s
  | .linkFlit t port f msg => Sys2Proof.Machine.execLinkFlit t port f msg s
  | .timeFlit t port f t4 => Sys2Proof.Machine.execTimeFlit t port f t4 s
  | .timeFlitSend t => Sys2Proof.Machine.execTimeFlitSend t s
  | .write t port p => Sys2Proof.Machine.execWrite t port p s
  | .readReq t port p => Sys2Proof.Machine.execReadReq t port p s
  | .readResp t port p => Sys2Proof.Machine.execReadResp t port p s
  | .e2eAck t flow seq => Sys2Proof.Machine.execE2eAck t flow seq s
  | .e2eAckSend t flow => Sys2Proof.Machine.execE2eAckSend t flow s
  | .e2eRetransmit t flow seq => Sys2Proof.Machine.execE2eRetransmit t flow seq s
  | .millContrib t port p adderOk => Sys2Proof.Machine.execMillContrib t port p adderOk s
  | .excessQuarter t port p adderOk => Sys2Proof.Machine.execExcessQuarter t port p adderOk s
  | .millResult t port p => Sys2Proof.Machine.execMillResult t port p s
  | .raisedExponent t port p => Sys2Proof.Machine.execRaisedExponent t port p s
  | .broadcast t port p adderOk => Sys2Proof.Machine.execBroadcast t port p adderOk s
  | .millDeadline t group slice mb part level adderOk => Sys2Proof.Machine.execMillDeadline t group slice mb part level adderOk s
  | .fenceGroupTimeout t group fenceId => Sys2Proof.Machine.execFenceGroupTimeout t group fenceId s
  | .suspect t port p => Sys2Proof.Machine.execSuspect t port p s
  | .confirm t port p => Sys2Proof.Machine.execConfirm t port p s
  | .clear t port p => Sys2Proof.Machine.execClear t port p s
  | .neighbours t port p => Sys2Proof.Machine.execNeighbours t port p s
  | .bell t port p => Sys2Proof.Machine.execBell t port p s
  | .bellTa t => Sys2Proof.Machine.execBellTa t s
  | .abortStopLimit t unstopped => Sys2Proof.Machine.execAbortStopLimit t unstopped s
  | .linkIdleTimeout t port => Sys2Proof.Machine.execLinkIdleTimeout t port s
  | .laneLossOfLock t port lanes => Sys2Proof.Machine.execLaneLossOfLock t port lanes s
  | .laneCorrectionLimit t port lane symbols => Sys2Proof.Machine.execLaneCorrectionLimit t port lane symbols s
  | .laneRetrainDone t port trained => Sys2Proof.Machine.execLaneRetrainDone t port trained s
  | .portRetrain t port => Sys2Proof.Machine.execPortRetrain t port s
  | .portTrainingDone t port peerModule peerPort trained => Sys2Proof.Machine.execPortTrainingDone t port peerModule peerPort trained s
  | .sp0Trained t peerModule peerPort trained => Sys2Proof.Machine.execSp0Trained t peerModule peerPort trained s
  | .parentTimeout t => Sys2Proof.Machine.execParentTimeout t s
  | .parentRestore t => Sys2Proof.Machine.execParentRestore t s
  | .timeLost t => Sys2Proof.Machine.execTimeLost t s
  | .ppsInEdge t => Sys2Proof.Machine.execPpsInEdge t s
  | .ppsLoss t => Sys2Proof.Machine.execPpsLoss t s
  | .croftWatchdog t croft u counted => Sys2Proof.Machine.execCroftWatchdog t croft u counted s
  | .localStallLimit t croft u => Sys2Proof.Machine.execLocalStallLimit t croft u s
  | .remoteWatch t producer => Sys2Proof.Machine.execRemoteWatch t producer s
  | .remoteBound t producer => Sys2Proof.Machine.execRemoteBound t producer s
  | .handlerTake t failed => Sys2Proof.Machine.execHandlerTake t failed s
  | .resetTimeout t => Sys2Proof.Machine.execResetTimeout t s
  | .resetComplete t failing => Sys2Proof.Machine.execResetComplete t failing s
  | .replay t on_ => Sys2Proof.Machine.execReplay t on_ s
  | .croftFaultWindow t croft => Sys2Proof.Machine.execCroftFaultWindow t croft s
  | .moduleReset t b => Sys2Proof.Machine.execModuleReset t b s
  | .selfTestSlot t slot passed released diagnosticOk => Sys2Proof.Machine.execSelfTestSlot t slot passed released diagnosticOk s
  | .bellLineTest t passed => Sys2Proof.Machine.execBellLineTest t passed s
  | .lockstepMismatch t pair => Sys2Proof.Machine.execLockstepMismatch t pair s
  | .monitorExcursion t src => Sys2Proof.Machine.execMonitorExcursion t src s
  | .monitorReturn t src => Sys2Proof.Machine.execMonitorReturn t src s
  | .monitorTrip t src => Sys2Proof.Machine.execMonitorTrip t src s
  | .telemetrySample t inputW => Sys2Proof.Machine.execTelemetrySample t inputW s
  | .logExport t seq => Sys2Proof.Machine.execLogExport t seq s
  | .logCommit t => Sys2Proof.Machine.execLogCommit t s
  | .bearBackgroundCopy t tries => Sys2Proof.Machine.execBearBackgroundCopy t tries s
  | .pageCopied t page tries => Sys2Proof.Machine.execPageCopied t page tries s
  | .imageTrailer t => Sys2Proof.Machine.execImageTrailer t s
  | .restoreTwinTimeout t => Sys2Proof.Machine.execRestoreTwinTimeout t s
  | .standbyPowerUp t b => Sys2Proof.Machine.execStandbyPowerUp t b s
  | .startupSelfTest t r => Sys2Proof.Machine.execStartupSelfTest t r s
  | .recoveryReset t b => Sys2Proof.Machine.execRecoveryReset t b s
  | .standbyPowerLoss t => Sys2Proof.Machine.execStandbyPowerLoss t s
  | .powerFailWarning t => Sys2Proof.Machine.execPowerFailWarning t s
  | .powerDownStart t => Sys2Proof.Machine.execPowerDownStart t s
  | .powerDownComplete t => Sys2Proof.Machine.execPowerDownComplete t s
  | .inputOvervoltage t => Sys2Proof.Machine.execInputOvervoltage t s
  | .inputOvercurrent t => Sys2Proof.Machine.execInputOvercurrent t s
  | .inputTransient t => Sys2Proof.Machine.execInputTransient t s
  | .inputReturn t b => Sys2Proof.Machine.execInputReturn t b s
  | .prsntNBreak t => Sys2Proof.Machine.execPrsntNBreak t s
  | .perstNAssert t => Sys2Proof.Machine.execPerstNAssert t s
  | .perstNRelease t b => Sys2Proof.Machine.execPerstNRelease t b s
  | .powerCapCheck t p100 p1ms vin => Sys2Proof.Machine.execPowerCapCheck t p100 p1ms vin s
  | .thermalSensorRead t r => Sys2Proof.Machine.execThermalSensorRead t r s
  | .thermalThrottleStep t => Sys2Proof.Machine.execThermalThrottleStep t s
  | .ideIntegrityFailure t => Sys2Proof.Machine.execIdeIntegrityFailure t s
  | .vectorTimeout t vectorId croft => Sys2Proof.Machine.execVectorTimeout t vectorId croft s
  | .getBlock b block => Sys2Proof.Machine.execGetBlock b block s
  | .logInfo b => Sys2Proof.Machine.execLogInfo b s
  | .logRead b offset length => Sys2Proof.Machine.execLogRead b offset length s
  | .pldmSensorRead b sensor => Sys2Proof.Machine.execPldmSensorRead b sensor s
  | .setEndpointId b eid => Sys2Proof.Machine.execSetEndpointId b eid s
  | .getEndpointId b => Sys2Proof.Machine.execGetEndpointId b s
  | .getMctpVersionSupport b typ => Sys2Proof.Machine.execGetMctpVersionSupport b typ s
  | .getMessageTypeSupport b => Sys2Proof.Machine.execGetMessageTypeSupport b s
  | .getVendorMessageSupport b => Sys2Proof.Machine.execGetVendorMessageSupport b s
  | .getTid b => Sys2Proof.Machine.execGetTid b s
  | .getPldmVersion b typ => Sys2Proof.Machine.execGetPldmVersion b typ s
  | .getPldmTypes b => Sys2Proof.Machine.execGetPldmTypes b s
  | .getPldmCommands b typ => Sys2Proof.Machine.execGetPldmCommands b typ s
  | .queryDeviceIdentifiers b => Sys2Proof.Machine.execQueryDeviceIdentifiers b s
  | .getFirmwareParameters b => Sys2Proof.Machine.execGetFirmwareParameters b s
  | .requestUpdate b => Sys2Proof.Machine.execRequestUpdate b s
  | .passComponentTable b c => Sys2Proof.Machine.execPassComponentTable b c s
  | .updateComponent b c imageSize => Sys2Proof.Machine.execUpdateComponent b c imageSize s
  | .requestFirmwareData b bytes => Sys2Proof.Machine.execRequestFirmwareData b bytes s
  | .verifyComplete b => Sys2Proof.Machine.execVerifyComplete b s
  | .applyComplete b ok => Sys2Proof.Machine.execApplyComplete b ok s
  | .activateFirmware b => Sys2Proof.Machine.execActivateFirmware b s
  | .getStatus b => Sys2Proof.Machine.execGetStatus b s
  | .cancelUpdateComponent b => Sys2Proof.Machine.execCancelUpdateComponent b s
  | .cancelUpdate b => Sys2Proof.Machine.execCancelUpdate b s
  | .moveTilesWritten t croft opIndex => Sys2Proof.Machine.execMoveTilesWritten t croft opIndex s
  | .orderingReadComplete t ring tag => Sys2Proof.Machine.execOrderingReadComplete t ring tag s
  | .imageRegionWriteDone t ok => Sys2Proof.Machine.execImageRegionWriteDone t ok s
  | .ideKeySetBoundary t dir => Sys2Proof.Machine.execIdeKeySetBoundary t dir s
  | .managementLinkFailure t b => Sys2Proof.Machine.execManagementLinkFailure t b s
  | .managementPlaneRecovery t => Sys2Proof.Machine.execManagementPlaneRecovery t s
  | .tapInstruction t ir => Sys2Proof.Machine.execTapInstruction t ir s

end Sys2Proof.Machine
end

