-- ==== Sys2Proof/Machine/Step.lean ====
section
/-! DEFINITION. One step of the block: the command at the front of the queue, then the entry at the front of the command mailbox (R32), else idle. -/
namespace Sys2Proof.Machine

/-- The outcome of a mailbox entry (R32). -/
def applied : Host.Outcome State Fault Refusal → Host.Outcome State Fault Refusal
  | .next s => .next (s.on (fun b => { b with path := { b.path with applying := false } }))
  | o => o

/-- One step. With commands waiting, the first runs on the state without it. With none waiting, the command mailbox applies its first entry (R32:
one at a time, in order of arrival; log 1). With neither, the block idles: fences and self-checks with
nothing left to do complete, and commands whose turn has come enter the mailbox (R423, R448, R449). -/
def step (s : State) : Host.Outcome State Fault Refusal :=
  match s.pending with
  | c :: rest => exec c { s with pending := rest }
  | [] =>
    match s.m.path.mailbox with
    | c :: rest => applied (exec c { s with m := { s.m with path := { s.m.path with mailbox := rest, applying := true } } })
    | [] => .next s.settleIdle

/-- The command that a word of the table's bits spells is put at the front of the queue. No row of this table has bits, so the state stays as it
is. -/
def State.withFetchWord (s : State) (nbits w : Nat) : State :=
  match decodeTableWord nbits w with
  | some c => { s with pending := c :: s.pending }
  | none => s

end Sys2Proof.Machine
end

