-- ==== Sys2Proof/WellFormed.lean ====
section
/-! DEFINITION. Well-formed commands: every operand within the width or range that the manual gives the field it stands for. The machine itself is total and
refuses by the rules of each command; this says what a packet, a flit, a register or a pin can carry. -/
namespace Sys2Proof

/-- Is a number below a bound. -/
def below (bound n : Nat) : Bool := decide (n < bound)

/-- The header fields of a command packet (R425): four rings, a 64-bit PTR_ADDR and a 32-bit PAYLOAD_LEN. -/
def hdrOk (h : Hdr) : Bool := below 4 h.ring && below (2 ^ 64) h.ptrAddr && below (2 ^ 32) h.payloadLen

/-- The header of a command without payload (R617): PTR_ADDR and PAYLOAD_LEN 0. -/
def bareOk (h : Hdr) : Bool := hdrOk h && h.ptrAddr == 0 && h.payloadLen == 0

/-- The header of a command with a payload of its own: PAYLOAD_LEN bytes of it (R426). -/
def loadOk (h : Hdr) (payload : List Byte) : Bool := hdrOk h && payload.length == h.payloadLen

/-- The header of a command with an inline payload (R426, R617). -/
def inlineOk (h : Hdr) (payload : List Byte) (n : Nat) : Bool := loadOk h payload && payload.length == n

/-- A time in ns (R17). -/
def timeOk (t : Nat) : Bool := below (2 ^ 64) t

/-- One of the 18 ports (R310), or an end of a die-to-die link (R343, log 89). -/
def linkNumberOk (n : Nat) : Bool := below 18 n || (below 100 n && decide (32 ≤ n))

/-- A flit on a port or a die-to-die link: 240 payload bytes, and symbols corrected on the five physical lanes of a port (R310, R325, R336, R343). -/
def flitOk (t port : Nat) (f : Flit) : Bool := timeOk t && linkNumberOk port && f.payload.length == 240 && f.corrected.all (fun x => below 5 x.1)

/-- A packet on one of the 18 ports: at most 512 payload bytes, in units of 16 (R329). -/
def pktOk (t port : Nat) (p : Pkt) : Bool := timeOk t && below 18 port && p.payload.length % 16 == 0 && below 513 p.payload.length

/-- A flow (R331): 14-bit modules and 5-bit dies. -/
def flowOk (k : FlowKey) : Bool := below (2 ^ 14) k.srcModule && below 32 k.srcDie && below (2 ^ 14) k.dstModule && below 32 k.dstDie

/-- How the accesses of a command went: addresses of at most 64 bits, and the three codes of R289. -/
def accOk (acc : Access) : Bool :=
  acc.store.all (fun x => below (2 ^ 51) x.1) && acc.failed.all (fun x => below (2 ^ 64) x.1) && acc.corrected.all (fun x => below (2 ^ 64) x.1 && below 3 x.2)

/-- What a scrub found: a byte of a frame of 64 KiB, or of a croft store of 4 MiB (R171), and one of the three codes of R289. -/
def foundOk (tier : Nat) : ScrubResult → Bool
  | .clean => true
  | .corrected offset code => below (if tier == 0 then 2 ^ 22 else 65536) offset && below 3 code
  | .uncorrectable offset => below (if tier == 0 then 2 ^ 22 else 65536) offset

/-- Attempts at a read that failed: three at the most (R306). -/
def triesOk (n : Nat) : Bool := below 4 n

/-- What boot senses: a GA of 5 pins, 8 KiB of SRAM, and an EEPROM that holds a record of at most 32 KiB and helper data of as much (R557, R561). -/
def senseOk (b : BootSense) : Bool :=
  below 32 b.ga && below 16 b.stepping && below 8193 b.sram.length && b.service.all (fun (r, h) => below 32769 r.length && below 32769 h.length)

/-- A management request: over SGMII a 16-bit EtherType and a 48-bit MAC address (R574). -/
def bindingOk : Binding → Bool
  | .i3c => true
  | .sgmii e dst => below (2 ^ 16) e && below (2 ^ 48) dst

/-- A component of an update: 16-bit classification and identifier, a 32-bit comparison stamp (R572). -/
def componentOk (c : Component) : Bool := below (2 ^ 16) c.classification && below (2 ^ 16) c.identifier && below (2 ^ 32) c.stamp

/-- Is every operand of a command within its field. -/
def wellFormed : Instr → Bool
  | .nop h | .jobUnload h | .fenceModule h | .fenceHost h => bareOk h
  | .descWrite h kind index payload => loadOk h payload && below 256 kind && below 65536 index && descSize kind == some payload.length
  | .descRead h kind index _ => hdrOk h && below 65536 index && (match descSize kind with
      | some n => decide (n ≤ h.payloadLen)
      | none => false)
  | .copyIn h devAddr length payload acc => loadOk h payload && below (2 ^ 64) devAddr && length == h.payloadLen && accOk acc
  | .copyOut h devAddr length acc => hdrOk h && below (2 ^ 64) devAddr && length == h.payloadLen && accOk acc
  | .parcelCreate h base pages home _ _ => bareOk h && below (2 ^ 64) base && below (2 ^ 32) pages && below 4 home
  | .parcelFree h parcel => bareOk h && below 65536 parcel
  | .parcelQuery h parcel => hdrOk h && below 65536 parcel && decide (56 ≤ h.payloadLen)
  | .parcelMigrate h parcel tier firstPage pages => bareOk h && below 65536 parcel && below 256 tier && below (2 ^ 32) firstPage && below (2 ^ 32) pages
  | .pageQuery h address pages => hdrOk h && below (2 ^ 64) address && below (2 ^ 32) pages && decide (32 * pages ≤ h.payloadLen)
  | .jobLoad h jobId image => loadOk h image.bytes && below 65536 jobId && decide (64 ≤ image.bytes.length)
    && image.sites.all (fun r => below 65536 r.tensor && below (2 ^ 32) r.stream)
  | .jobStart h _ tStart firstStep => bareOk h && timeOk tStart && below (2 ^ 64) firstStep
  | .jobStop h lastStep => bareOk h && below (2 ^ 64) lastStep
  | .jobAbort h _ => bareOk h
  | .restore h snapshotId source sourceModule _ tries => bareOk h && below (2 ^ 64) snapshotId && below 256 source && below 65536 sourceModule && triesOk tries
  | .drainTableLoad h croft table => loadOk h table && below 256 croft && table.length == 4096
  | .laneProgLoad h croft image => loadOk h image && below 256 croft && image.length == 16896
  | .fabricTableLoad h peers routes payload => inlineOk h payload (72 * Machine.b2n peers + 208 * Machine.b2n routes) && (peers || routes)
  | .groupLoad h group payload => inlineOk h payload 64 && below 65536 group
  | .tallyRead h firstTag lastTag => hdrOk h && below 65536 firstTag && below 65536 lastTag && decide (64 ≤ h.payloadLen)
  | .digestRead h group => hdrOk h && below 65536 group && decide (96 ≤ h.payloadLen)
  | .fenceGroup h group fenceId timeoutUs => bareOk h && below 65536 group && below 256 fenceId && below (2 ^ 32) timeoutUs
  | .ideKeySet h streamId substream _ _ payload => inlineOk h payload 40 && below 256 streamId && below 4 substream
  | .ideKeyGo h streamId _ _ _ => bareOk h && below 256 streamId
  | .fwStage h offset payload => loadOk h payload && below (2 ^ 32) offset && payload.length % 64 == 0 && decide (64 ≤ payload.length)
  | .fwCommit h imageLen => bareOk h && below (2 ^ 32) imageLen
  | .attest h outLen nonce => inlineOk h nonce 32 && below (2 ^ 32) outLen
  | .selfCheck h set croft _ => hdrOk h && below (2 ^ 32) set && below 256 croft && decide (64 ≤ h.payloadLen)
  | .ringPoll t failed => timeOk t && failed.all (below 4)
  | .payloadReadDone t ring _ tries => timeOk t && below 4 ring && triesOk tries
  | .orderingReadComplete t ring _ => timeOk t && below 4 ring
  | .ringEnWrite t ring _ => timeOk t && below 4 ring
  | .registerWrite t offset bytes _ => timeOk t && below 65536 offset && (bytes == 4 || bytes == 8)
  | .pollCtrlWrite t _ | .mmioRefusedClear t | .stepBoundary t | .tallySlotTrailer t | .timeFlitSend t | .bellTa t | .parentTimeout t
  | .parentRestore t | .timeLost t | .ppsInEdge t | .ppsLoss t | .handlerTake t _ | .resetTimeout t | .logCommit t | .imageTrailer t | .restoreTwinTimeout t
  | .standbyPowerLoss t | .powerFailWarning t | .powerDownStart t | .powerDownComplete t | .inputOvervoltage t | .inputOvercurrent t | .inputTransient t
  | .prsntNBreak t | .perstNAssert t | .thermalThrottleStep t | .ideIntegrityFailure t | .managementPlaneRecovery t => timeOk t
  | .faMatmul croft acc | .baMatmulWs croft acc | .baMatmulOs croft acc | .laneRun croft acc | .moveCopy croft acc => below 192 croft && accOk acc
  | .stileWiden x | .stileNarrow x | .moveMigrate x | .repeatWider x | .spanReplay x => below 192 x.croft && accOk x.acc
  | .tileDrain croft _ _ => below 192 croft
  | .moveOffload croft | .movePrefetch croft | .commit croft _ | .fenceCroft croft | .waitTime croft
  | .almanacNop croft | .sliceExport croft _ | .laneNop croft | .add croft | .sub croft | .mul croft | .fma croft
  | .div croft | .max croft | .min croft | .abs croft | .neg croft | .recip croft | .sqrt croft | .rsqrt croft | .exp2 croft | .log2 croft | .cmp croft
  | .sel croft | .mov croft | .const croft | .load croft | .loadMasterWeight croft | .loadClipFactor croft | .loadLr croft | .loadHyp croft
  | .loadStepNumber croft | .store croft | .storeMaster croft | .storeFirstMoment croft | .storeSecondMoment croft | .storeForwardCopy croft
  | .storeBackwardCopy croft | .draw croft | .shuf croft | .redAdd croft | .redMax croft | .phaseEnd croft | .endProgram croft => below 192 croft
  | .waitTimeExpiry t croft | .forcedCommit t croft | .croftFaultWindow t croft => timeOk t && below 192 croft
  | .replay t x => timeOk t && below 192 x.croft && accOk x.acc
  | .completionTimeout t croft => timeOk t && below 193 croft
  | .cacheFlushDone t slot tries => timeOk t && below 4095 slot && triesOk tries
  | .commitHoldLimit t crofts | .resetComplete t crofts | .abortStopLimit t crofts => timeOk t && crofts.all (below 192)
  | .retiredPageRetry t page tries | .pageMigrationSwitch t page tries | .pageCopied t page tries => timeOk t && below (2 ^ 35) page && triesOk tries
  | .squirrelMoveStart t queue => timeOk t && accOk queue.acc
  | .bellLineTest t _ | .bearBackgroundCopy t _ | .imageRegionWriteDone t _ | .ideKeySetBoundary t _ => timeOk t
  | .cellarCalibration t channel | .cellarRetrain t channel | .cellarRetrainDone t channel => timeOk t && below 80 channel
  | .scrub t tier frame found _ => timeOk t && below 3 tier && below (if tier == 0 then 192 else 2 ^ 36) frame && foundOk tier found
  | .nullFlit t port f | .dataFlit t port f _ => flitOk t port f
  | .linkFlit t port f msg => flitOk t port f && (match msg with
      | .identity m p => below (2 ^ 14) m && below 32 p
      | .substitute n | .substituteAck n => below (if port < 18 then 4 else 64) n)
  | .timeFlit t port f t4 => flitOk t port f && timeOk t4
  | .write t port p | .readReq t port p | .readResp t port p | .millResult t port p | .raisedExponent t port p | .broadcast t port p _ | .suspect t port p
  | .confirm t port p | .clear t port p | .neighbours t port p | .bell t port p => pktOk t port p
  | .millContrib t port p _ | .excessQuarter t port p _ => pktOk t port p
  | .e2eAck t flow _ | .e2eRetransmit t flow _ => timeOk t && flowOk flow
  | .e2eAckSend t flow => timeOk t && flowOk flow
  | .millDeadline t group slice mb part level _ =>
    timeOk t && below 1024 group && below (2 ^ 28) slice && below 256 mb && below 8 part && below 16 level
  | .fenceGroupTimeout t group fenceId => timeOk t && below 1024 group && below 256 fenceId
  | .linkIdleTimeout t port => timeOk t && linkNumberOk port
  | .portRetrain t port => timeOk t && below 18 port
  | .laneLossOfLock t port lanes => timeOk t && linkNumberOk port && lanes.all (below (if port < 18 then 5 else 64))
  | .laneCorrectionLimit t port lane symbols => timeOk t && below 18 port && below 5 lane && decide (4096 < symbols)
  | .laneRetrainDone t port _ => timeOk t && linkNumberOk port
  | .portTrainingDone t port peerModule peerPort _ => timeOk t && below 18 port && below (2 ^ 14) peerModule && below 32 peerPort
  | .sp0Trained t peerModule peerPort _ => timeOk t && below (2 ^ 14) peerModule && below 32 peerPort
  | .croftWatchdog t croft _ counted => timeOk t && below 192 croft && timeOk counted
  | .localStallLimit t croft _ => timeOk t && below 192 croft
  | .remoteWatch t producer | .remoteBound t producer => timeOk t && below (2 ^ 14) producer
  | .moduleReset t b | .standbyPowerUp t b | .recoveryReset t b | .inputReturn t b | .perstNRelease t b => timeOk t && senseOk b
  | .selfTestSlot t slot _ _ _ => timeOk t && below 209 slot
  | .lockstepMismatch t pair => timeOk t && below 5 pair
  | .monitorExcursion t src | .monitorReturn t src | .monitorTrip t src => timeOk t && (match src with
      | .computeDie d _ => below 16 d
      | .other n => below 46 n)
  | .telemetrySample t inputW => timeOk t && below 65536 inputW
  | .logExport t seq => timeOk t && below 256 seq
  | .startupSelfTest t r => timeOk t && r.failingSlots.all (fun x => below 16 x.1 && below 13 x.2) && r.failedLanes.all (fun x => linkNumberOk x.1)
  | .powerCapCheck t p100 p1ms vin => timeOk t && below 65536 p100 && below 65536 p1ms && below 65536 vin
  | .thermalSensorRead t r => timeOk t && r.packages.length == 20
  | .vectorTimeout t vectorId croft => timeOk t && below (2 ^ 32) vectorId && below 192 croft
  | .getBlock v block => bindingOk v && below 256 block
  | .logInfo v | .setEndpointId v _ | .getEndpointId v | .getMessageTypeSupport v | .getVendorMessageSupport v | .getTid v | .getPldmTypes v
  | .queryDeviceIdentifiers v | .getFirmwareParameters v | .requestUpdate v | .verifyComplete v | .activateFirmware v | .getStatus v
  | .cancelUpdateComponent v | .cancelUpdate v | .applyComplete v _ => bindingOk v
  | .passComponentTable v c => bindingOk v && componentOk c
  | .logRead v offset length => bindingOk v && below (2 ^ 32) offset && below (2 ^ 16) length
  | .pldmSensorRead v sensor => bindingOk v && below 65536 sensor
  | .getMctpVersionSupport v typ | .getPldmVersion v typ | .getPldmCommands v typ => bindingOk v && below 256 typ
  | .updateComponent v c imageSize => bindingOk v && componentOk c && below (2 ^ 32) imageSize
  | .requestFirmwareData v bytes => bindingOk v && below (2 ^ 32) bytes.length
  | .moveTilesWritten t croft _ => timeOk t && below 192 croft
  | .managementLinkFailure t _ => timeOk t
  | .tapInstruction t ir => timeOk t && below 256 ir

end Sys2Proof
end

