-- ==== Sys2Proof/Safety.lean ====
section
/-! DEFINITION. What counts as a safe step and a sound state, in the terms the statements use. -/
namespace Sys2Proof.Machine

/-- Every memory of the state is in canonical form. -/
def State.wf (s : State) : Prop := s.mem.wf = true

/-- What a step keeps: the queue of waiting commands as it is, and the canonical form of the memories. -/
def State.Keeps (s t : State) : Prop := t.pending = s.pending ∧ (s.wf → t.wf)

/-- The block may change; the memories and the queue do not. -/
def State.BlockOnly (s t : State) : Prop := t.mem = s.mem ∧ t.pending = s.pending

/-- A command runs to a next state in which P holds. -/
def Runs (i : Instr) (s : State) (P : State → Prop) : Prop := ∃ t, exec i s = .next t ∧ P t

/-- The device state accepts an opcode (R434, R439). -/
def Accepts (s : State) (op : Nat) : Prop := (acceptedIn op).contains s.m.dev.state = true

/-- A host command has its effect, which leaves a state that P describes, and then completes with SUCCESS and a RESULT. -/
def Succeeds (i : Instr) (s : State) (h : Hdr) (op : Nat) (result : BitVec 128) (P : State → Prop) : Prop :=
  ∃ u, P u ∧ exec i s = .next (u.finish h op 0 result)

/-- A host command goes on after its effect: it waits under its tag, in a state that P describes, for what `w` says. -/
def Waits (i : Instr) (s : State) (h : Hdr) (op : Nat) (w : WaitFor) (P : State → Prop) : Prop :=
  ∃ t, exec i s = .next t ∧ P t
    ∧ ({ ring := h.ring, tag := h.tag, opcode := op, noIrq := h.noIrq, wait := w } : Wait) ∈ t.m.path.waits

/-- A command of the host as its packet says it: what it finds on physical hardware in order, what it reads over the fabric empty (log 21). -/
def asRead : Instr → Instr
  | .copyIn h a n pl _ => .copyIn h a n pl {}
  | .copyOut h a n _ => .copyOut h a n {}
  | .jobLoad h j im => .jobLoad h j { bytes := im.bytes }
  | .restore h i so sm _ _ => .restore h i so sm [] 0
  | .selfCheck h st c _ => .selfCheck h st c { run := 0, failed := 0, entries := [] }
  | i => i

/-- A packet on a port is the next of its flow, for this module, intact and of a type and job that are taken; nothing on its way to its die holds it at the I/O die
(R322, R330 to R332, R343, R358). -/
def InTurn (s : State) (t port : Nat) (p : Pkt) : Prop :=
  port < 32 ∧ (s.m.advanceTo t).takesFrom port p = true ∧ (s.m.advanceTo t).waitsAt port p = false ∧ p.dstModule = s.m.moduleId ∧ pktIntact p = true
    ∧ p.seq = (s.m.rxFlow p.flow).next ∧ (s.m.rxFlow p.flow).held = [] ∧ s.m.rejects p = false

/-- The state in which a packet in turn is handed over: the clock has moved on, its slots are owed to the peer, it has crossed the package to its die, and the flow expects
the next number (R324, R331, R332, R343). -/
def taken (s : State) (t port : Nat) (p : Pkt) : State :=
  let b := ((s.m.advanceTo t).oweCredit port p).carry p (16 + ioDieOf port) p.dstDie
  let f := b.rxFlow p.flow
  s.on (fun _ => b.setRx { f with next := (f.next + 1) % 65536, held := [], sinceAck := f.sinceAck + 1, firstUnacked := some (f.firstUnacked.getD b.span) })

/-- Every suspect croft finds the spare of its die free (R480, R482). -/
def SuspectsFit (s : State) : Prop :=
  ∀ c, (s.m.croft c).suspect = true → s.m.spareFree (dieOf c) = true ∧ ∀ d, (s.m.croft d).suspect = true → dieOf d = dieOf c → d = c

/-- Nothing holds back or fails a write to a page: no migration, no bear, no earlier write that waits, no cellar channel out of service, no reader uncommitted, and the link's IDE stream
secure where the page lies in host memory (R277, R290, R453, R475, R510). -/
def PageFree (s : State) (page : Nat) : Prop :=
  (∃ e, s.m.page page = some e ∧ e.migrating = none ∧ e.bear ≠ .protected_ ∧ e.bear ≠ .copying ∧ (e.tier = 3 → s.m.dev.ideState ≠ 2))
    ∧ s.m.tiers.retraining = [] ∧ s.m.tiers.calibrating = [] ∧ s.m.tiers.heldWrites = []
    ∧ ∀ c, c < s.m.crofts.length → (s.m.croft c).journal = []

/-- A register instruction gives every lane's DST the value `f` gives that lane, moves to the next slot, and changes nothing else of the machine. -/
def LaneWrites (i : Instr) (s : State) (croft : Nat) (l : LaneRun) (ins : W64) (f : Nat → F32) : Prop :=
  ∃ regs : List (List F32), exec i s = .next (s.on (fun b => b.setLane croft (some { l with regs := regs, pc := l.pc + 1 })))
    ∧ ∀ n rs, n < 256 → l.regs[n]? = some rs → regs[n]? = some (rs.set (fld ins 55 50) (f n))

end Sys2Proof.Machine
end

