-- ==== Sys2Proof/Certificates/Slice0/Obligations.lean ====
section
/-! DEFINITION. The statements for the provers. Each says of the module what rules of the manual say, in the terms of Safety.lean and of the model. -/

open Sys2Proof Sys2Proof.Machine

/-- A step takes the command at the front of the queue and runs it on the state with the rest of the queue (log 1). -/
def Obligations.StepRunsFront : Prop :=
  ∀ (c : Instr) (s : State), step { s with pending := c :: s.pending } = exec c s

/-- With nothing pending, the command mailbox applies its first entry (R32: one at a time, in order of arrival); with neither, the block idles (log 1). -/
def Obligations.StepWithEmptyQueue : Prop :=
  ∀ s : State, s.pending = [] →
    (∀ c rest, s.m.path.mailbox = c :: rest → step s = applied (exec c (s.on (fun b => { b with path := { b.path with mailbox := rest, applying := true } }))))
    ∧ (s.m.path.mailbox = [] → step s = .next s.settleIdle)

/-- State.reset is sound: canonical memories, an empty queue and mailbox, DEVICE_STATE SELF_TEST (R433). -/
def Obligations.ResetIsSound : Prop :=
  State.reset.wf ∧ State.reset.pending = [] ∧ State.reset.m.path.mailbox = [] ∧ State.reset.m.dev.state = 1
    ∧ (∀ a, State.reset.mem.parcel.read a = 0) ∧ State.reset.m.bar0 0x40 = 1

/-- Every step keeps parcel space, host memory and the croft stores in canonical form: equal memories stay equal data. -/
def Obligations.StepKeepsMemory : Prop :=
  ∀ s t : State, s.wf → step s = .next t → t.wf

/-- The meaning of a command changes everything but the queue of the commands that wait. -/
def Obligations.ExecKeepsQueue : Prop :=
  ∀ (i : Instr) (s t : State), exec i s = .next t → t.pending = s.pending

/-- No command ever stops the model: each has an effect in every state, if only that the time moves on, a command is turned away or an error is logged. -/
def Obligations.EveryCommandRuns : Prop :=
  ∀ (i : Instr) (s : State), ∃ t, exec i s = .next t

/-- Reading a packet undoes writing it, for every host command and every operand that its fields allow (R425, R426, R439). -/
def Obligations.HostCommandRoundTrip : Prop :=
  ∀ (i : Instr) (op : Nat) (h : Hdr) (ps payload rest : List Byte) (byPtr : Bool) (nslots : Nat),
    wellFormed i = true → Packet.ofCommand i = some (op, h, ps, payload) → nslots < 8 →
    Packet.toCommand h.ring (Packet.headerSlot op h byPtr nslots ps ++ rest) payload = some (asRead i)

/-- The checks of R432 steps 1 and 2 refuse no well-formed command. -/
def Obligations.WellFormedPacketAccepted : Prop :=
  ∀ (i : Instr) (op : Nat) (h : Hdr) (ps payload : List Byte),
    wellFormed i = true → Packet.ofCommand i = some (op, h, ps, payload) → h.payloadLen ≤ 268435456 →
    ∃ (byPtr : Bool) (nslots : Nat), nslots < 8 ∧ Packet.check (Packet.headerSlot op h byPtr nslots ps) = none

/-- R434 with the States column of R439: which device states accept an opcode, and the status of a command refused for its state. FW_STAGE and FW_COMMIT are accepted in RECOVERY too (R568). -/
def Obligations.HostRefusedByState : Prop :=
  (∀ op, (acceptedIn op).contains 6 = true ↔ op ∈ [0x00, 0x02, 0x04, 0x0A, 0x0C, 0x20, 0x3A])
  ∧ (∀ n, (∀ op ∈ [0x01, 0x03, 0x0B, 0x21, 0x28, 0x2A, 0x02, 0x04, 0x0A, 0x0C, 0x20], n < 6 → ((acceptedIn op).contains n = true ↔ 2 ≤ n))
    ∧ (n < 6 → (∀ op ∈ [0x00, 0x3A], (acceptedIn op).contains n = true ↔ n ≠ 0) ∧ (∀ op ∈ [0x08, 0x1A, 0x1B], (acceptedIn op).contains n = true ↔ n = 2 ∨ n = 3)
      ∧ (∀ op ∈ [0x09, 0x18, 0x19, 0x30, 0x31], (acceptedIn op).contains n = true ↔ n = 2 ∨ n = 3 ∨ n = 4)
      ∧ (∀ op ∈ [0x10, 0x40], (acceptedIn op).contains n = true ↔ n = 2) ∧ (∀ op ∈ [0x11, 0x12, 0x15], (acceptedIn op).contains n = true ↔ n = 3)
      ∧ (∀ op ∈ [0x13, 0x14], (acceptedIn op).contains n = true ↔ n = 4) ∧ ((acceptedIn 0x29).contains n = true ↔ n = 3 ∨ n = 4)
      ∧ (∀ op ∈ [0x38, 0x39], (acceptedIn op).contains n = true ↔ n = 0 ∨ n = 2)))
  ∧ ∀ (i : Instr) (s : State) (op : Nat) (h : Hdr) (ps payload : List Byte), Packet.ofCommand i = some (op, h, ps, payload) →
      (acceptedIn op).contains s.m.dev.state = false → ¬ (op = 0x14 ∧ s.m.dev.state = 5 ∧ s.m.dev.bellPending = true) →
      exec i s = .next (s.finish h op (if s.m.dev.state = 6 then 0x07 else 0x05))

/-- A completion is posted as R428 lays it out and R429 orders it, and what it leaves alone. -/
def Obligations.CompletionIsPosted : Prop :=
  ∀ (s : State) (h : Hdr) (op status : Nat) (result : BitVec 128), h.ring < s.m.rings.length → (s.m.ring h.ring).usable = true → (s.m.ring h.ring).postq = [] →
    (s.m.ring h.ring).unread < 4096 → s.m.dev.ideState ≠ 2 →
    let r := s.m.ring h.ring
    let prod := (r.cmplProd + 1) % 2 ^ 32
    let entry := leBytes 8 s.m.now ++ leBytes 16 result.toNat ++ leBytes 2 h.tag.toNat ++ leBytes 1 status ++ leBytes 1 op
      ++ leBytes 1 (if r.cmplProd / 4096 % 2 = 0 then 1 else 0) ++ leBytes 3 0
    let t := s.finish h op status result
    t.mem.host = (s.mem.host.writeBytes (r.cmplBase + 32 * (r.cmplProd % 4096)) entry).writeBytes (r.ctrlBase + 12) (leBytes 4 prod)
      ∧ (t.m.ring h.ring).cmplProd = prod ∧ (∀ c ∈ (t.m.ring h.ring).cmds, c.tag ≠ h.tag)
      ∧ t.mem.parcel = s.mem.parcel ∧ t.mem.stores = s.mem.stores ∧ t.pending = s.pending ∧ t.m.crofts = s.m.crofts ∧ t.m.tiers = s.m.tiers
      ∧ t.m.desc = s.m.desc ∧ t.m.job = s.m.job

/-- The commands that only read, and COPY_IN and COPY_OUT: where their states, ranges and buffers allow (R439 to R442), each has its effect and completes with SUCCESS. -/
def Obligations.HostReads : Prop :=
  ∀ (s : State) (h : Hdr),
    (Accepts s 0x00 → exec (.nop h) s = .next (s.finish h 0x00 0))
    ∧ (∀ a n acc, Accepts s 0x04 → s.m.copyBusy a = false → s.m.copyHeld a n false = false → a % 64 = 0 → n % 64 = 0 → 64 ≤ n → n ≤ 268435456 →
        s.m.inOneParcel a n = true → n ≤ h.payloadLen → (∀ x k, acc.failed = some (x, k) → k < 3) →
        exec (.copyOut h a n acc) s = .next (((s.copyAccess acc a n).1.writeHost h.ptrAddr (s.mem.parcel.readBytes a n)).finish h 0x04 0))
    ∧ (∀ a n pl acc, Accepts s 0x03 → s.m.copyBusy a = false → s.m.checkParcel = none → s.m.copyHeld a n true = false → a % 64 = 0 → n % 64 = 0 → 64 ≤ n →
        n ≤ 268435456 → s.m.inOneParcel a n = true → (∀ x k, acc.failed = some (x, k) → k < 3) →
        exec (.copyIn h a n pl acc) s = .next (((s.copyAccess acc a n).1.writeTiles (n / 32768 + 2) a (slice pl 0 n)).finish h 0x03 0))
    ∧ (∀ kind index shadow n v, Accepts s 0x02 → descSize kind = some n → n ≤ h.payloadLen → (kind ∈ [1, 2, 5] → s.m.job.almanac.isSome = true) →
        s.m.indexOk kind index = true → s.m.getDesc kind index = some v →
        exec (.descRead h kind index shadow) s
          = .next ((s.writeHost h.ptrAddr (leBytes n (if shadow then s.m.withShadows kind index v else v))).finish h 0x02 0
              (setFld (0 : BitVec 128) 0 0 (b2n (s.m.path.shadows.any (fun x => x.kind == kind && x.index == index))))))
    ∧ (∀ id p, Accepts s 0x0A → s.m.parcel id = some p → 56 ≤ h.payloadLen →
        let pages (tier : Nat) := (s.m.tiers.pages.filter (fun e => e.parcel == p.id && e.tier == tier)).length
        exec (.parcelQuery h id) s = .next ((s.writeHost h.ptrAddr (leBytes 32 (parcelDesc p) ++ leBytes 8 (pages 1) ++ leBytes 8 (pages 2) ++ leBytes 8 (pages 3))).finish h 0x0A 0))
    ∧ (∀ a n, Accepts s 0x0C → a % 65536 = 0 → 1 ≤ n → n ≤ 65536 → 32 * n ≤ h.payloadLen →
        exec (.pageQuery h a n) s = .next ((s.writeHost h.ptrAddr ((List.range n).map (fun i => leBytes 32 (s.m.pageRecord (a / 65536 + i)))).flatten).finish h 0x0C 0))
    ∧ (∀ lo hi, Accepts s 0x20 →
        let f := s.m.tally.frozen
        let tags := s.m.slotBytes f (s.m.tallyTags.filter (fun t => lo ≤ t && t ≤ hi))
        (tags ++ slotTrailer f.step (tags.length + 64)).length ≤ h.payloadLen →
        exec (.tallyRead h lo hi) s = .next ((s.writeHost h.ptrAddr (tags ++ slotTrailer f.step (tags.length + 64))).finish h 0x20 0 (BitVec.ofNat 128 f.step)))
    ∧ (∀ g d, Accepts s 0x21 → s.m.group g = some d → (s.m.digestRecords g).length ≤ h.payloadLen →
        exec (.digestRead h g) s = .next ((s.writeHost h.ptrAddr (s.m.digestRecords g)).finish h 0x21 0))
    ∧ (∀ n nonce, Accepts s 0x3A → 80160 ≤ n →
        exec (.attest h n nonce) s = .next ((s.writeHost h.ptrAddr (s.m.attestReport nonce)).finish h 0x3A 0 (setFld (0 : BitVec 128) 31 0 80160)))

/-- The table loads of R439: what they put where, for each operand form, and what they leave alone. -/
def Obligations.TableLoads : Prop :=
  ∀ (s : State) (h : Hdr) (pl : List Byte),
    (∀ c, Accepts s 0x18 → c < 192 → (s.m.croft c).runsTable = false → s.m.checkCrofts.contains c = false →
      exec (.drainTableLoad h c pl) s
        = .next ((s.on (fun b => b.onCroft c (fun x => { x with drainTable := (List.range 256).map (fun i => drainEntry (leAt pl (16 * i) 16)) }))).finish h 0x18 0))
    ∧ (∀ c ts, Accepts s 0x19 → (c = 0xFF ∧ ts = List.range 192 ∨ c < 192 ∧ ts = [c]) →
        (∀ n ∈ ts, (s.m.croft n).lane = none ∧ (∀ e ∈ (s.m.croft n).inFlight, opCode e.op ≠ 8) ∧ s.m.checkCrofts.contains n = false) →
        let table := (List.range 64).map (fun i => BitVec.ofNat 64 (leAt pl (8 * i) 8))
        let words := (List.range 2048).map (fun i => leAt pl (512 + 8 * i) 8)
        imageBad table (words.map (BitVec.ofNat 64)) = none →
        exec (.laneProgLoad h c pl) s
          = .next ((s.on (fun b => ts.foldl (fun b n => b.onCroft n (fun x => { x with progTable := table, progStore := words.map (fun v => BitVec.ofNat 64 (putBits v 23 16 0)) })) b)).finish h 0x19 0))
    ∧ (∀ peers routes, Accepts s 0x1A → s.m.jobRuns = false →
        let off := if peers then 72 else 0
        let entry (i : Nat) : Nat := leAt pl (off + 2 * i) 2
        (peers = true → ∀ i, i < 18 → noPort (leAt pl (4 * i) 4 % 32) = false) →
        (routes = true → ∀ i, i < 104 → s.m.routeBad (entry i) = false) →
        Succeeds (.fabricTableLoad h peers routes pl) s h 0x1A 0 (fun u => u.mem = s.mem ∧ u.pending = s.pending ∧ u.m.crofts = s.m.crofts ∧ u.m.desc = s.m.desc
          ∧ u.m.fab.cfg = s.m.fab.cfg ∧ (∀ i, i < 18 → peers = true → u.m.fab.peers[i]? = some (BitVec.ofNat 32 (putBits (leAt pl (4 * i) 4) 30 19 0)))
          ∧ (peers = false → u.m.fab.peers = s.m.fab.peers)
          ∧ (routes = true → (∀ i, i < 8 → u.m.fab.hamletRoute[i]? = some (BitVec.ofNat 16 (putBits (entry i) 14 10 0)))
            ∧ (∀ i, i < 16 → u.m.fab.villageRoute[i]? = some (BitVec.ofNat 16 (putBits (entry (8 + i)) 14 10 0)))
            ∧ (∀ i, i < 80 → u.m.fab.hallRoute[i]? = some (BitVec.ofNat 16 (putBits (entry (24 + i)) 14 10 0))))
          ∧ (routes = false → u.m.fab.hamletRoute = s.m.fab.hamletRoute ∧ u.m.fab.villageRoute = s.m.fab.villageRoute ∧ u.m.fab.hallRoute = s.m.fab.hallRoute)))
    ∧ (∀ g, Accepts s 0x1B → s.m.jobRuns = false → g ≤ 0x3FF → s.groupBad (putBits (leAt pl 0 64) 209 0 0) = [] →
        Succeeds (.groupLoad h g pl) s h 0x1B 0 (fun u => u.mem = s.mem ∧ u.pending = s.pending ∧ u.m.crofts = s.m.crofts
          ∧ u.m.desc.groups.find? (fun x => x.index == g) = some { index := g, desc := BitVec.ofNat 512 (putBits (leAt pl 0 64) 209 0 0) }
          ∧ (∀ k, k ≠ g → u.m.desc.groups.find? (fun x => x.index == k) = s.m.desc.groups.find? (fun x => x.index == k))))

/-- DESC_WRITE by R438: CONFIG_BUSY, BAD_PARAMETER, applied at once, or held in shadows while a job runs (R436). -/
def Obligations.DescWriteApplies : Prop :=
  ∀ (s : State) (h : Hdr) (kind index old : Nat) (pl : List Byte), Accepts s 0x01 → (kind ∈ [1, 2, 5] → s.m.job.almanac.isSome = true) →
    s.m.indexOk kind index = true → s.m.getDesc kind index = some old →
    let fs := s.m.written kind index old (leNat pl)
    let busy := (fs.filter (fun f => f.cls == .idle)) ≠ [] ∧ s.m.idleBusy kind index = true
    let bad := s.m.descBad kind index old (afterWrite (s.m.withShadows kind index old) (leNat pl) fs) fs
    (busy → ∃ d, exec (.descWrite h kind index pl) s = .next (s.finish h 0x01 4 0 d))
    ∧ (¬ busy → bad ≠ [] → ∃ d, exec (.descWrite h kind index pl) s = .next (s.finish h 0x01 2 0 d))
    ∧ (¬ busy → bad = [] → s.m.jobRuns = false → exec (.descWrite h kind index pl) s = .next ((s.applyNow kind index (leNat pl) fs).finish h 0x01 0))
    ∧ (¬ busy → bad = [] → s.m.jobRuns = true → s.m.dev.bellDone = false → fs.any (fun f => f.cls == .step) = true →
        ∃ w, Waits (.descWrite h kind index pl) s h 0x01 w (fun t => t.pending = s.pending
          ∧ ∀ f ∈ fs, f.cls = .step → ∃ x ∈ t.m.path.shadows, x.kind = kind ∧ x.index = index ∧ x.hi = f.hi ∧ x.lo = f.lo ∧ x.value = bitsOf (leNat pl) f.hi f.lo ∧ x.tag = h.tag))

/-- Applying a guard descriptor (R230) field by field: written fields take the payload, the others keep their value, other layers are untouched. -/
def Obligations.GuardDescriptorWrites : Prop :=
  ∀ (s : State) (index : Nat) (old : BitVec 64) (new : Nat) (fs : List DField), s.m.desc.guard[index]? = some old →
    fs = s.m.written 0x02 index old.toNat new → (∀ f ∈ fs, f.cls = .step) → s.m.path.shadows = [] →
    ∃ d : BitVec 64, (s.applyNow 0x02 index new fs).m.desc.guard[index]? = some d
      ∧ (∀ f ∈ [(63, 48), (47, 32), (15, 12), (7, 7)], fld d f.1 f.2 = bitsOf new f.1 f.2)
      ∧ fld d 31 16 = fld old 31 16 ∧ fld d 11 8 = fld old 11 8 ∧ fld d 6 0 = fld old 6 0
      ∧ (∀ j, j ≠ index → (s.applyNow 0x02 index new fs).m.desc.guard[j]? = s.m.desc.guard[j]?)
      ∧ (s.applyNow 0x02 index new fs).mem = s.mem

/-- Parcels by R272 to R277: creation, migration and freeing. -/
def Obligations.ParcelLifecycle : Prop :=
  ∀ (s : State) (h : Hdr), s.wf →
    (∀ base pages home pin codec, Accepts s 0x08 → s.m.createBad base pages home = none → pages ≤ s.m.framesFree home →
        let id := lowestFree (s.m.tiers.parcels.map (·.id)) s.m.tiers.parcels.length 0
        Succeeds (.parcelCreate h base pages home pin codec) s h 0x08 (BitVec.ofNat 128 id) (fun u =>
          u.m.tiers.parcels = s.m.tiers.parcels ++ [{ id := id, base := base, pages := pages, codec := codec, pin := pin, home := home }]
          ∧ u.m.tiers.pages.map (fun e => (e.page, e.parcel, e.tier, e.bear))
              = s.m.tiers.pages.map (fun e => (e.page, e.parcel, e.tier, e.bear)) ++ (List.range pages).map (fun i => (base / 65536 + i, id, home, Bear.clear))
          ∧ (∀ a, base ≤ a → a < base + 65536 * pages → u.mem.parcel.read a = 0)
          ∧ (∀ a, (a < base ∨ base + 65536 * pages ≤ a) → u.mem.parcel.read a = s.mem.parcel.read a)
          ∧ u.mem.stores = s.mem.stores ∧ u.m.crofts = s.m.crofts))
    ∧ (∀ id p, Accepts s 0x09 → s.m.parcel id = some p → s.m.parcelBusy id = false → s.m.checkParcel ≠ some id → s.m.path.waits = [] → s.m.tiers.heldWrites = [] →
        Succeeds (.parcelFree h id) s h 0x09 0 (fun u => u.m.parcel id = none ∧ (∀ e ∈ u.m.tiers.pages, e.parcel ≠ id) ∧ u.pending = s.pending))
    ∧ (∀ id p tier first pages, Accepts s 0x0B → s.m.parcel id = some p → p.pin = false → 1 ≤ tier → tier ≤ 3 → first < p.pages → first + pages ≤ p.pages →
        let ns := (List.range pages).map (fun i => p.base / 65536 + first + i)
        let b := ns.foldl (fun b n => b.startMigration n tier) s.m
        let left := ns.filter (fun n => (s.m.page n).any (fun e => e.migrating.isNone) && (b.page n).any (fun e => e.migrating.isSome))
        (left = [] → exec (.parcelMigrate h id tier first pages) s
            = .next ((s.on (fun _ => b)).finish h 0x0B 0 (setFld (0 : BitVec 128) 63 32 pages)))
        ∧ (left ≠ [] → Waits (.parcelMigrate h id tier first pages) s h 0x0B (.migrate id tier left 0 (pages - left.length)) (fun t => t.mem = s.mem
            ∧ t.m.tiers.pages = b.tiers.pages ∧ t.m.tiers.parcels = s.m.tiers.parcels ∧ t.m.tiers.heldWrites = s.m.tiers.heldWrites ∧ t.m.tiers.retired = s.m.tiers.retired)))

/-- COPY_IN (R441): a read after it gives what it wrote, and other addresses are as they were. -/
def Obligations.CopyInWrites : Prop :=
  ∀ (s : State) (h : Hdr) (a n : Nat) (pl : List Byte), s.wf → Accepts s 0x03 → s.m.copyBusy a = false → s.m.checkParcel = none →
    a % 64 = 0 → n % 64 = 0 → 64 ≤ n → n ≤ 268435456 → s.m.inOneParcel a n = true → a + n ≤ 2 ^ 51 → pl.length = n →
    (∀ x, a ≤ x → x < a + n → PageFree s (x / 65536)) →
    (∀ acc : Access, acc.corrected = [] → (∀ f, acc.failed = some f → f.2 < 3) → Succeeds (.copyIn h a n pl acc) s h 0x03 0 (fun u =>
        (∀ x, a ≤ x → x < a + n → u.mem.parcel.read x = pl.getD (x - a) 0)
        ∧ (∀ x, (x < a ∨ a + n ≤ x) → u.mem.parcel.read x = s.mem.parcel.read x) ∧ u.mem.stores = s.mem.stores ∧ u.pending = s.pending
        ∧ (∀ x k, acc.failed = some (x, k) → a ≤ x → x < a + n → u.m.count .retries = (s.m.bump .retries k).count .retries)))
    ∧ ∀ x k, a ≤ x → x < a + n → 3 ≤ k → ∃ u : State, exec (.copyIn h a n pl { failed := some (x, k) }) s = .next (u.finish h 0x03 0x28)
        ∧ u.m.count .ioFailed = (s.m.bump .ioFailed).count .ioFailed ∧ (s.m.bump .retries 2).count .retries ≤ u.m.count .retries
        ∧ ((s.m.jobRuns = true ∨ ∀ e, s.m.page (x / 65536) = some e → e.tier ≠ 2) → u.m.count .retries = (s.m.bump .retries 2).count .retries)

/-- JOB_LOAD and JOB_UNLOAD by R443 and R444. -/
def Obligations.JobLoadAndUnload : Prop :=
  ∀ (s : State) (h : Hdr),
    (∀ jobId image sites, Accepts s 0x10 → s.m.boot.committing = false → s.m.checkCrofts = [] →
        let img := slice image 0 h.payloadLen
        almanacBad img = none → jobId ≤ 0xFFFE → (s.m.loadAlmanac jobId img sites).slotTooLong = false → (s.m.loadAlmanac jobId img sites).loadBad = false →
        Succeeds (.jobLoad h jobId { bytes := image, sites := sites }) s h 0x10 0 (fun u => u.mem = s.mem ∧ u.pending = s.pending ∧ u.m.dev.state = 3 ∧ u.m.job.id = jobId
          ∧ u.m.job.almanac = some { almanacOf img with rotations := sites } ∧ u.m.desc.layer = layersOf img ∧ u.m.desc.magpie = magpiesOf img
          ∧ u.m.desc.guard = guardsOf img (almanacHead img 95 80) ∧ fld u.m.desc.snap 575 512 = 0 ∧ u.m.tiers.parcels = s.m.tiers.parcels ∧ u.m.rings = s.m.rings ∧ u.m.tally.jobTiles = 0))
    ∧ (Accepts s 0x11 → SuspectsFit s → s.m.snap.image = none → Succeeds (.jobUnload h) s h 0x11 0 (fun u => u.mem.parcel = s.mem.parcel ∧ u.mem.host = s.mem.host
        ∧ (∀ c, (s.m.croft c).suspect = false → u.mem.store c = s.mem.store c) ∧ u.pending = s.pending ∧ u.m.dev.state = 2 ∧ u.m.job.almanac = none
        ∧ u.m.job.id = 0xFFFF ∧ u.m.desc.layer = [] ∧ u.m.desc.guard = [] ∧ u.m.tiers.parcels = s.m.tiers.parcels
        ∧ u.m.tiers.pages.map (fun e => (e.page, e.parcel, e.tier, e.frame)) = s.m.tiers.pages.map (fun e => (e.page, e.parcel, e.tier, e.frame))
        ∧ u.m.safety.faultLine = false ∧ u.m.dev.bellPassed = false))

/-- JOB_START, JOB_STOP and JOB_ABORT by R443, R494 and R495. -/
def Obligations.JobStartStopAbort : Prop :=
  ∀ (s : State) (h : Hdr),
    let taken := ((s.m.takenCmd h.ring h.tag).map (·.takenAt)).getD s.m.fabNs
    (∀ key tStart first, Accepts s 0x12 → s.m.clk.locked = true → s.m.job.restored = .none → taken + 1000000 ≤ tStart → SuspectsFit s →
        Waits (.jobStart h key tStart first) s h 0x12 (.jobStart tStart) (fun t => t.m.dev.state = 4 ∧ t.m.job.key = key ∧ t.m.job.tStart = tStart
          ∧ t.m.job.firstStep = first ∧ t.m.job.step = first ∧ t.m.job.begun = false ∧ t.m.job.almanac = s.m.job.almanac ∧ t.pending = s.pending
          ∧ fld t.m.desc.norm 111 100 = fld s.m.desc.norm 99 88))
    ∧ (∀ key tStart first, Accepts s 0x12 → s.m.clk.locked = false → exec (.jobStart h key tStart first) s = .next (s.finish h 0x12 0x05))
    ∧ (∀ key tStart first, Accepts s 0x12 → s.m.clk.locked = true → s.m.job.restored = .none → tStart < taken + 1000000 →
        exec (.jobStart h key tStart first) s = .next (s.finish h 0x12 0x02 0 32))
    ∧ (∀ last, Accepts s 0x13 → Waits (.jobStop h last) s h 0x13 .jobStop (fun t => t.mem = s.mem ∧ t.pending = s.pending ∧ t.m.job.stops = s.m.job.stops ++ [last]
        ∧ t.m.dev = s.m.dev ∧ t.m.desc = s.m.desc ∧ t.m.crofts = s.m.crofts))
    ∧ (∀ reason, Accepts s 0x14 → s.m.faults.bells = [] →
        Waits (.jobAbort h reason) s h 0x14 .jobAbort (fun t => t.m.dev.state = 5 ∧ t.m.dev.bellPending = true ∧ t.m.dev.bellOrigin = s.m.moduleId
          ∧ t.m.dev.bellTa = (s.m.now + 250000 + 999) / 1000 * 1000 ∧ t.m.dev.bellEpoch = s.m.lastEpoch s.m.moduleId + 1
          ∧ t.m.count .bellsRaised = Nat.min (s.m.count .bellsRaised + 1) (2 ^ 64 - 1) ∧ t.m.job.step = s.m.job.step ∧ t.pending = s.pending))

/-- RESTORE (R521, R522): the checks, the pages and the state, or the failure. -/
def Obligations.RestoreReadsImage : Prop :=
  ∀ (s : State) (h : Hdr) (id source m : Nat) (image : List Byte), Accepts s 0x15 → flag s.m.desc.snap 3 = false → s.m.snap.image = none → 1 ≤ source → source ≤ 3 →
    let img := if source = 2 then s.hostImage id else image
    let rs := pageRecs img (snapHead img 127 96) (64 + snapHead img 95 64)
    let s' (tries : Nat) : State :=
      let u := s.on (fun b => { b with job := { b.job with restored := .failed } })
      if source = 2 then u.on (·.bump .retries tries) else u
    isImageOf img id = true → s.senderOk (snapHead img 63 50) = true → some (snapHead img 511 448) = s.m.job.almanac.map (·.crc.toNat) →
    (∀ r ∈ rs, r.address % 65536 = 0 ∧ ∃ p, s.m.parcelAt r.address = some p ∧ s.m.excludedIds.contains p.id = false) →
    (∀ u pages k, k < 3 → ¬ (source = 2 ∧ s.m.dev.ideState = 2) → (s' k).writeRecs rs = (u, some pages) → exec (.restore h id source m image k) s = .next (u.applyImage h img pages))
    ∧ (∀ u k, k < 3 → ¬ (source = 2 ∧ s.m.dev.ideState = 2) → (s' k).writeRecs rs = (u, none) →
        ∃ v : State, v.m.job.restored = .failed ∧ exec (.restore h id source m image k) s = .next (v.finish h 0x15 0x28))
    ∧ (∀ k, 3 ≤ k → exec (.restore h id source m image k) s = .next ((s' 2).finish h 0x15 (if source = 2 then 0x08 else 0x30)))
    ∧ (∀ k, source = 2 → s.m.dev.ideState = 2 → exec (.restore h id source m image k) s = .next ((s' 2).finish h 0x15 0x08))

/-- The end of a restore without a twin (R523, R524). -/
def Obligations.RestoreVerdict : Prop :=
  ∀ (s : State) (w : Wait) (id : Nat) (own recorded key : BitVec 64) (barrier shift twin since : Nat),
    w.wait = .restore id own recorded key barrier shift twin since →
    (own ≠ recorded → s.recordedDigest w = (s.on (fun b => { b with job := { b.job with restored := .failed } })).endWait w 0x2B)
    ∧ (own = recorded → s.m.streamTable.2 = 0 → ∃ r, fld r 63 0 = own.toNat ∧ fld r 95 64 = id % 2 ^ 32 ∧ fld r 112 112 = 0 ∧ fld r 113 113 = 1
        ∧ s.recordedDigest w = (s.on (fun b => { b with job := { b.job with restored := .done id key barrier shift, postAbort := false } })).endWait w 0 r)

/-- FENCE_MODULE, FENCE_HOST and FENCE_GROUP with its timeout (R449 to R451). -/
def Obligations.Fences : Prop :=
  ∀ (s : State) (h : Hdr),
    (Accepts s 0x28 → s.m.outstanding h.ring h.tag = [] → (∀ w ∈ s.m.tiers.heldWrites, w.owner ≠ none) → exec (.fenceModule h) s = .next (s.finish h 0x28 0))
    ∧ (Accepts s 0x28 → (s.m.outstanding h.ring h.tag ≠ [] ∨ ∃ w ∈ s.m.tiers.heldWrites, w.owner = none) →
        Waits (.fenceModule h) s h 0x28 (.fenceModule (s.m.outstanding h.ring h.tag)) (fun t => t.mem = s.mem ∧ t.m.rings = s.m.rings ∧ t.pending = s.pending))
    ∧ (∀ own, s.m.takenCmd h.ring h.tag = some own → ∀ n tag, (n, tag) ∈ s.m.outstanding h.ring h.tag ↔
        n < 4 ∧ (n, tag) ≠ (h.ring, h.tag) ∧ ∃ c ∈ (s.m.ring n).cmds, c.tag = tag ∧ c.order < own.order)
    ∧ (Accepts s 0x2A → Waits (.fenceHost h) s h 0x2A .fenceHost (fun t => t.mem = s.mem ∧ t.m.rings = s.m.rings ∧ t.pending = s.pending))
    ∧ (∀ t ring tag w, s.m.path.waits.find? (fun w => w.ring == ring && w.tag == tag && w.wait == .fenceHost) = some w →
        (s.m.dev.ideState ≠ 2 → exec (.orderingReadComplete t ring tag) s = .next ((s.on (·.advanceTo t)).endWait w 0))
        ∧ (s.m.dev.ideState = 2 → exec (.orderingReadComplete t ring tag) s = .next ((s.on (fun b => (b.advanceTo t).bump .retries 2)).endWait w 8)))
    ∧ (∀ g d id us, Accepts s 0x29 → s.m.group g = some d → 1 ≤ us → us ≤ 1000000 → s.m.fab.e2e ≠ [] → (∀ e ∈ s.m.fab.e2e, s.inGroup d e.flow.dstModule = true) → s.m.fab.backlog = [] →
        s.m.path.waits = [] →
        Waits (.fenceGroup h g id us) s h 0x29 (.fenceGroup g (id % 256) (s.m.span + 1000 * us)
          (s.m.fab.e2e.map (fun e => (e.flow, e.seq)) ++ s.m.fab.lost.filter (fun x => s.inGroup d x.1.dstModule)) false) (fun t => t.mem = s.mem ∧ t.pending = s.pending))
    ∧ (∀ t g id w due acks sent, s.m.path.waits = [w] → w.wait = .fenceGroup g id due acks sent → due ≤ (s.m.advanceTo t).span →
        let v := (s.on (·.advanceTo t)).endWait w 0x0A
        Runs (.fenceGroupTimeout t g id) s (fun u => u.mem = v.mem ∧ u.m.rings = v.m.rings ∧ u.m.path = v.m.path ∧ (g, id) ∈ u.m.mill.deadFences))

/-- The link IDE commands and events (R452, R453). -/
def Obligations.LinkIde : Prop :=
  ∀ (s : State) (h : Hdr),
    (∀ id sub dir set pl, Accepts s 0x30 → sub < 3 →
        Succeeds (.ideKeySet h id sub dir set pl) s h 0x30 0 (fun u => u.mem = s.mem ∧ u.pending = s.pending ∧ u.m.dev.ideStream = id % 256 ∧ u.m.dev.ideState = s.m.dev.ideState
          ∧ ({ sub := sub, dir := dir, set := set, bits := BitVec.ofNat 320 (leAt pl 0 40) } : IdeKey) ∈ u.m.dev.ideKeys
          ∧ (∀ k ∈ s.m.dev.ideKeys, (k.sub ≠ sub ∨ k.dir ≠ dir ∨ k.set ≠ set) → k ∈ u.m.dev.ideKeys)))
    ∧ (∀ dir set, Accepts s 0x31 → (∀ n, n < 3 → ∃ k ∈ s.m.dev.ideKeys, k.sub = n ∧ k.dir = dir ∧ k.set = set) →
        Succeeds (.ideKeyGo h s.m.dev.ideStream dir set true) s h 0x31 0 (fun u => u.mem = s.mem ∧ u.pending = s.pending ∧ (dir, set) ∈ u.m.dev.idePending
          ∧ u.m.dev.ideState = s.m.dev.ideState ∧ u.m.dev.ideRxSet = s.m.dev.ideRxSet ∧ u.m.dev.ideTxSet = s.m.dev.ideTxSet))
    ∧ (∀ t dir set, s.m.dev.idePending = [(dir, set)] →
        Runs (.ideKeySetBoundary t dir) s (fun u => u.mem = s.mem ∧ u.m.dev.idePending = [] ∧ (if dir then u.m.dev.ideTxSet else u.m.dev.ideRxSet) = set
          ∧ ((if dir then s.m.dev.ideOn.1 else s.m.dev.ideOn.2) = true → u.m.dev.ideState = 1) ∧ ((if dir then s.m.dev.ideOn.1 else s.m.dev.ideOn.2) = false → u.m.dev.ideState = s.m.dev.ideState)))
    ∧ (∀ t, s.m.dev.ideState = 1 → s.m.dev.eventEn = false →
        Runs (.ideIntegrityFailure t) s (fun u => u.mem = s.mem ∧ u.m.dev.ideState = 2 ∧ u.m.dev.eventsLost = Nat.min (s.m.dev.eventsLost + 1) (2 ^ 32 - 1)))

/-- Firmware staging through the rings (R569 to R571). -/
def Obligations.FirmwareStaging : Prop :=
  ∀ (s : State) (h : Hdr),
    (∀ off pl, Accepts s 0x38 → s.m.boot.session = .ring → s.m.boot.committing = false → off % 64 = 0 → h.payloadLen % 64 = 0 → off + h.payloadLen ≤ 33554432 →
        let high := Nat.max s.m.boot.highWater (off + h.payloadLen)
        Succeeds (.fwStage h off pl) s h 0x38 (setFld (0 : BitVec 128) 31 0 high) (fun u => u.mem = s.mem ∧ u.pending = s.pending ∧ u.m.boot.session = .ring
          ∧ u.m.boot.highWater = high ∧ u.m.boot.staged = s.m.boot.staged.writeBytes off (slice pl 0 h.payloadLen) ∧ u.m.boot.image = s.m.boot.image))
    ∧ (∀ n, Accepts s 0x39 → s.m.boot.session = .closed → s.m.boot.committing = false → exec (.fwCommit h n) s = .next (s.finish h 0x39 0x05))
    ∧ (∀ n, Accepts s 0x39 → s.m.boot.session = .ring → s.m.boot.committing = false → n = imageLen (s.m.stagedBytes 64) → n ≤ s.m.boot.highWater →
        s.m.imageOk (s.m.stagedBytes n) = true →
        Waits (.fwCommit h n) s h 0x39 (.fwCommit (imageVersion (s.m.stagedBytes 64)) (imageSvn (s.m.stagedBytes 64))) (fun t => t.mem = s.mem ∧ t.pending = s.pending
          ∧ t.m.boot.committing = true))
    ∧ (∀ t w v svn ok, s.m.path.waits = [w] → w.wait = .fwCommit v svn → s.m.boot.committing = false → exec (.imageRegionWriteDone t ok) s = .next (s.on (·.advanceTo t)))
    ∧ (∀ t w v svn ok, s.m.path.waits = [w] → w.wait = .fwCommit v svn → s.m.boot.committing = true → s.m.dev.state = 2 →
        let u := s.on (fun b => ((b.advanceTo t).flashWritten ok).closeSession)
        exec (.imageRegionWriteDone t ok) s = .next (if ok then u.endWait w 0 (setFld (setFld (0 : BitVec 128) 63 0 v.toNat) 79 64 svn) else u.endWait w 0x28))

/-- SELF_CHECK, VECTOR_TIMEOUT and the report (R606 to R609). -/
def Obligations.SelfCheckRuns : Prop :=
  ∀ (s : State) (h : Hdr) (set croft : Nat) (run : CheckRun),
    (Accepts s 0x40 → s.checkBad set croft = none →
      let r := s.checkRun set croft run []
      (set % 65536 = 0xFFFF → r = (run, []))
      ∧ Waits (.selfCheck h set croft run) s h 0x40 (.selfCheck set croft h.payloadLen (s.suiteVersion set) h.ptrAddr r.1) (fun t => t.mem.parcel = s.mem.parcel
          ∧ t.mem.stores = s.mem.stores ∧ (r.2 = [] → t.mem = s.mem) ∧ t.pending = s.pending))
    ∧ (∀ t v c w room version addr, s.m.path.waits = [w] → w.wait = .selfCheck set croft room version addr run → set / 2 ^ 24 % 2 = 0 →
        Runs (.vectorTimeout t v c) s (fun u => u.mem = s.mem ∧ ∃ w' r, u.m.path.waits = [w'] ∧ w'.tag = w.tag ∧ w'.wait = .selfCheck set croft room version addr r
          ∧ (set % 65536 ≠ 0xFFFF → r = ((s.on (·.advanceTo t)).checkRun set croft run ((v, c) :: lateVectors run)).1)
          ∧ (set % 65536 = 0xFFFF → r.run = run.run + 1 ∧ r.failed = run.failed + 1
              ∧ ∃ e, r.entries = run.entries ++ [e] ∧ fld e 31 0 = v % 2 ^ 32 ∧ fld e 55 48 = 0x0A)))
    ∧ (∀ w room version addr, w.wait = .selfCheck set croft room version addr run →
        s.endCheck w = (s.writeHost addr (s.m.checkReport room version run).1).endWait w 0 (s.m.checkReport room version run).2)

/-- Every packet row in its turn (R331): the flow moves on and the packet goes to its consumer. -/
def Obligations.PacketsAreHandedOver : Prop :=
  ∀ (s : State) (t port : Nat) (p : Pkt) (ok : Bool), InTurn s t port p →
    let u := taken s t port p
    (p.typ = 2 → exec (.readReq t port p) s = .next (u.on (fun b => { b with fab := { b.fab with delivered := b.fab.delivered ++ [p] } })))
    ∧ (p.typ = 3 → exec (.readResp t port p) s = .next (u.on (fun b => { b with fab := { b.fab with delivered := b.fab.delivered ++ [p] } })))
    ∧ (p.typ = 8 → (millPkt p).part < 2 ∨ 6 ≤ (millPkt p).part → exec (.millContrib t port p ok) s = .next (u.millArrive p ok))
    ∧ (p.typ = 8 → 2 ≤ (millPkt p).part → (millPkt p).part < 6 → exec (.excessQuarter t port p ok) s = .next (u.millArrive p ok))
    ∧ (p.typ = 9 → (millPkt p).part ≠ 6 → exec (.millResult t port p) s = .next (u.resultArrive p true))
    ∧ (p.typ = 9 → (millPkt p).part = 6 → exec (.raisedExponent t port p) s = .next (u.resultArrive p true))
    ∧ (p.typ = 0x0A → exec (.broadcast t port p ok) s = .next (s.judged ok (u.bcastArrive p)))
    ∧ (p.typ = 0x10 → (reportOf p).kind = 0 → exec (.suspect t port p) s = .next (u.crierArrive port p))
    ∧ (p.typ = 0x10 → (reportOf p).kind = 1 → exec (.confirm t port p) s = .next (u.crierArrive port p))
    ∧ (p.typ = 0x10 → (reportOf p).kind = 2 → exec (.clear t port p) s = .next (u.crierArrive port p))
    ∧ (p.typ = 0x10 → (reportOf p).kind = 3 → exec (.neighbours t port p) s = .next (u.crierArrive port p))
    ∧ (p.typ = 0x11 → exec (.bell t port p) s = .next (u.bellArrive port p))

/-- A delivered remote WRITE (R331): what it stores and where, and that it stores nowhere else. -/
def Obligations.RemoteWriteIsVisible : Prop :=
  ∀ (s : State) (t port : Nat) (p : Pkt), s.wf → InTurn s t port p → p.typ = 1 → p.payload ≠ [] → p.address + p.payload.length ≤ 2 ^ 51 →
    p.address / 65536 = (p.address + p.payload.length - 1) / 65536 → PageFree s (p.address / 65536) →
    Runs (.write t port p) s (fun u => (∀ x, p.address ≤ x → x < p.address + p.payload.length → u.mem.parcel.read x = p.payload.getD (x - p.address) 0)
      ∧ (∀ x, (x < p.address ∨ p.address + p.payload.length ≤ x) → u.mem.parcel.read x = s.mem.parcel.read x)
      ∧ u.mem.stores = s.mem.stores ∧ u.pending = s.pending ∧ u.m.crofts = s.m.crofts ∧ u.m.job = s.m.job
      ∧ (u.m.rxFlow p.flow).next = (p.seq + 1) % 65536)

/-- A WRITE that reaches no frame (R265, R266, R269): the packet is taken and its bytes go nowhere; nobody can read them, and R266 keeps the windows to the firmware (DEDUCED, log 27). -/
def Obligations.RemoteWriteWithoutFrame : Prop :=
  ∀ (s : State) (t port : Nat) (p : Pkt), InTurn s t port p → p.typ = 1 →
    (2 ^ 51 ≤ p.address ∨ ∀ x, p.address ≤ x → x < p.address + p.payload.length → s.m.page (x / 65536) = none) →
    exec (.write t port p) s = .next (taken s t port p) ∧ (taken s t port p).mem = s.mem ∧ (taken s t port p).m.tiers = s.m.tiers
      ∧ (taken s t port p).m.crofts = s.m.crofts

/-- The crier by the table of R489, and CLEAR and quorum (R490, R491). -/
def Obligations.ReportsByFirstRow : Prop :=
  ∀ (s : State) (r : Report) (arrived : Option Nat),
    let asked : State := if r.kind = 0 then s.on (fun b => { b with faults := { b.faults with compare := insertNew r.origin b.faults.compare } }) else s
    let open_ (x : Suspicion) : State := (asked.on (fun b => (b.setSuspicion x).forwardReport r arrived)).applyReport r x
    let fresh : Suspicion := ({ origin := r.origin, epoch := r.epoch, closed := r.kind != 0 } : Suspicion).addReport r
    (r.epoch ≤ s.m.lastEpoch r.origin → s.takeReport r arrived = s.on (·.bump .staleReports))
    ∧ (s.m.lastEpoch r.origin < r.epoch → (∀ x, s.m.suspicion r.origin = some x → x.epoch < r.epoch) → s.takeReport r arrived = open_ fresh)
    ∧ (∀ x, s.m.lastEpoch r.origin < r.epoch → s.m.suspicion r.origin = some x → x.epoch = r.epoch →
        (r.kind = 0 → r.oport ≠ 0x1F → r.oport ∉ x.witnesses → s.takeReport r arrived = open_ (x.addReport r) ∧ r.oport ∈ (x.addReport r).witnesses)
        ∧ (r.kind ≠ 0 → x.closed = false → s.takeReport r arrived = open_ { x with closed := true })
        ∧ (r.kind = 0 → r.oport ∈ x.witnesses → s.takeReport r arrived = asked.on (·.bump .suspectsCoalesced))
        ∧ (r.kind ≠ 0 → x.closed = true → s.takeReport r arrived = s.on (·.bump .suspectsCoalesced)))
    ∧ (∀ x, r.kind = 2 → (s.applyReport r x).m.suspicion r.origin = none ∧ (s.applyReport r x).m.lastEpoch r.origin = r.epoch)
    ∧ (∀ x, r.kind = 0 → (x.witnesses.filter (· < 7)).length < 4 → x.masks = 0 → s.applyReport r x = s)

/-- Bells by R494 and R495, and the bell of a CONFIRM (R490). -/
def Obligations.BellsDecideByEarliestTa : Prop :=
  ∀ (s : State) (origin epoch error raiser step reason ta : Nat) (host : Bool) (arrived : Option Nat), s.m.jobRuns = true →
    let u := s.takeBell origin epoch error raiser host step reason ta arrived
    (s.m.faults.bells = [] → u.m.dev.bellOrigin = origin ∧ u.m.dev.bellEpoch = epoch ∧ u.m.dev.bellTa = ta ∧ u.m.dev.bellPending = true ∧ u.m.dev.state = 5
      ∧ u.m.faults.bells = [{ origin := origin, epoch := epoch, ta := ta, error := error }])
    ∧ (∀ r ∈ s.m.faults.bells, r.ta ≤ ta → u.m.dev.bellTa = s.m.dev.bellTa ∧ u.m.dev.bellOrigin = s.m.dev.bellOrigin ∧ u.m.dev.bellPending = s.m.dev.bellPending ∧ u.m.dev.state = 5)
    ∧ (∀ r ∈ s.m.faults.bells, ta < r.ta → (∀ q ∈ s.m.faults.bells, ta < q.ta) → u.m.dev.bellTa = ta)
    ∧ (∀ (r : Report) (x : Suspicion), r.kind = 1 → s.m.faults.bells = [] →
        let v := s.applyReport r x
        v.m.dev.state = 5 ∧ v.m.dev.bellOrigin = r.origin ∧ v.m.dev.bellEpoch = r.epoch ∧ v.m.dev.bellTa = (s.m.now + 250000 + 999) / 1000 * 1000)

/-- The end-to-end buffer of R332 and R333. -/
def Obligations.EndToEndBuffer : Prop :=
  ∀ (s : State) (t : Nat) (k : FlowKey) (n : BitVec 16),
    let u := s.on (·.advanceTo t)
    (let acked : State := u.on (fun b => { b with fab := { b.fab with e2e := b.fab.e2e.filter (fun e => !(e.flow == k && covers n.toNat e.seq)), lost := b.fab.lost.filter (fun x => !(x.1 == k && covers n.toNat x.2)) } });
      exec (.e2eAck t k n) s = .next (acked.on (·.drainBacklog.fabricTraffic.completeImage)).sendMarkers
      ∧ acked.mem = s.mem ∧ (∀ e, e ∈ acked.m.fab.e2e ↔ e ∈ s.m.fab.e2e ∧ ¬ (e.flow = k ∧ (n.toNat + 65536 - e.seq) % 65536 < 32768)))
    ∧ (∀ f, s.m.fab.rx.find? (fun f => f.key == k) = some f →
        ((64 ≤ f.sinceAck ∨ ∃ t0, f.firstUnacked = some t0 ∧ t0 + 2000 ≤ u.m.span) →
          exec (.e2eAckSend t k) s = .next (u.on (fun b => (b.setRx { f with sinceAck := 0, firstUnacked := none }).forward (b.ackPkt f) k.dstDie)))
        ∧ (f.sinceAck < 64 → (∀ t0, f.firstUnacked = some t0 → u.m.span < t0 + 2000) → exec (.e2eAckSend t k) s = .next u)
        ∧ (u.m.ackPkt f).typ = 4 ∧ (u.m.ackPkt f).urgent = true ∧ (u.m.ackPkt f).payload = [])
    ∧ (∀ e, s.m.fab.e2e.find? (fun e => e.flow == k && e.seq == n.toNat) = some e →
        (u.m.span < e.sentAt + 20000 → exec (.e2eRetransmit t k n) s = .next u)
        ∧ (e.sentAt + 20000 ≤ u.m.span → e.sends < 4 →
            let again : E2e := { e with sentAt := u.m.span, sends := e.sends + 1 }
            let v : State := u.on (fun b => ({ b with fab := { b.fab with e2e := b.fab.e2e.map (fun x => if x = e then again else x) } } : Block).bump .e2eRetx)
            exec (.e2eRetransmit t k n) s = .next (v.on (fun b => b.depart e.pkt e.edge e.port)) ∧ again ∈ v.m.fab.e2e
            ∧ v.m.count .e2eRetx = Nat.min (s.m.count .e2eRetx + 1) (2 ^ 64 - 1))
        ∧ (e.sentAt + 20000 ≤ u.m.span → 4 ≤ e.sends → ∃ v : State, (s.m.imageWrite e.pkt = false → v.mem = s.mem ∧ (s.m.fab.backlog = [] → v.m.fab.e2e = s.m.fab.e2e.erase e))
            ∧ exec (.e2eRetransmit t k n) s = .next (v.raiseErr { cls := .j, code := 0x30, at_ := 0, named := some e.pkt.dstModule })))

/-- Flits by R325 to R328, what LINK flits say (R320, R337), and what a TIME flit leaves for R345. -/
def Obligations.FlitsAreTaken : Prop :=
  ∀ (s : State) (t n : Nat) (f : Flit) (ok : Bool), n < 18 → s.m.ports.length = 18 → s.m.power.main = .on → (s.m.port n).linkState ≠ 4 → (s.m.port n).linkState ≠ 5 →
    flag f.head 39 = false → (s.m.port n).rxAck < 4096 →
    let p := s.m.port n
    let q (u : State) : Port := u.m.port n
    let seq := fld f.head 63 52
    let bad (u : State) : Prop := u.m.count (.crcErr n) = Nat.min (s.m.count (.crcErr n) + 1) (2 ^ 64 - 1)
    let nak (u : State) : Prop := (q u).rxAck = p.rxAck ∧ (q u).discarding = true ∧ ∃ k : Flit, (q u).sent = p.sent ++ [k] ∧ Machine.flitOk k = true ∧ flag k.head 39 = true ∧ fld k.head 51 40 = p.rxAck
    (Machine.flitOk f = true → flitType f = 0 →
      Runs (.nullFlit t n f) s (fun u => u.mem = s.mem ∧ (q u).rxAck = p.rxAck ∧ (q u).lastIntact = (s.m.advanceTo t).span
        ∧ u.m.count (.flitsRx n) = Nat.min (s.m.count (.flitsRx n) + 1) (2 ^ 64 - 1)
        ∧ ∀ lane k, f.corrected = [(lane, k)] → u.m.count (.fecCorr n) = Nat.min (s.m.count (.fecCorr n) + k) (2 ^ 64 - 1)))
    ∧ (Machine.flitOk f = true → flitType f = 1 → p.isUp = true →
      (seq = (p.rxAck + 1) % 4096 → fld f.head 14 0 = 0 → p.rxPart = [] → Runs (.dataFlit t n f ok) s (fun u => u.mem = s.mem ∧ (q u).rxAck = seq ∧ (q u).discarding = false
        ∧ (q u).rxPart = [] ∧ (p.discarding = false → u.m.crofts = s.m.crofts)))
      ∧ (seq = (p.rxAck + 1) % 4096 → fld f.head 14 0 = 1 → 13 < bitsOf (leNat (slice f.payload 0 32)) 157 152 →
        Runs (.dataFlit t n f ok) s (fun u => u.mem = s.mem ∧ (q u).rxAck = seq ∧ (q u).discarding = false ∧ (q u).rxPart = slice f.payload 0 240))
      ∧ (seq = p.rxAck → Runs (.dataFlit t n f ok) s (fun u => (q u).rxAck = p.rxAck ∧ (q u).sent = p.sent ∧ (q u).discarding = p.discarding))
      ∧ (seq = (p.rxAck + 2) % 4096 → p.discarding = true → Runs (.dataFlit t n f ok) s (fun u => (q u).rxAck = p.rxAck ∧ (q u).sent = p.sent))
      ∧ (seq = (p.rxAck + 2) % 4096 → p.discarding = false → Runs (.dataFlit t n f ok) s nak))
    ∧ (p.isUp = false → exec (.dataFlit t n f ok) s = .next (s.on (·.advanceTo t)) ∧ ∀ t4, exec (.timeFlit t n f t4) s = .next (s.on (·.advanceTo t)))
    ∧ (Machine.flitOk f = true → flitType f = 2 → seq = (p.rxAck + 1) % 4096 →
      (∀ pm pp, (p.isUp = false ∨ s.m.peerOk n pm pp = true) →
        Runs (.linkFlit t n f (.identity pm pp)) s (fun u => (q u).peerModule = pm ∧ (q u).peerPort = pp ∧ (q u).linkState = p.linkState ∧ (q u).rxAck = seq))
      ∧ (∀ pm pp, p.isUp = true → s.m.peerOk n pm pp = false → s.m.jobRuns = false →
        Runs (.linkFlit t n f (.identity pm pp)) s (fun u => (q u).peerModule = pm ∧ (q u).peerPort = pp ∧ (q u).linkState = 6))
      ∧ (∀ lane, p.phy.spareOk = true → p.substPending = [] → p.retry.length < 2048 → lane < 4 → p.phy.lanes.length = 4 →
        Runs (.linkFlit t n f (.substitute lane)) s (fun u => (q u).substPending = [lane]
          ∧ (q u).switch = some { lane := lane, since := (s.m.advanceTo t).span, due := u.m.count (.flitsRx n) + 16, mine := false }
          ∧ (q u).phy = p.phy ∧ (q u).isUp = p.isUp ∧ (q u).sent.length = p.sent.length + 1))
      ∧ (∀ lane, p.phy.spareOk = false → Runs (.linkFlit t n f (.substitute lane)) s (fun u => (q u).phy = p.phy ∧ (q u).sent = p.sent ∧ (q u).rxAck = seq))
      ∧ (∀ lane x, lane ∈ p.substPending → p.switch = some x → x.lane = lane → x.mine = true →
        Runs (.linkFlit t n f (.substituteAck lane)) s (fun u => (q u).switch = some { x with acked := true } ∧ (q u).phy = p.phy ∧ (q u).isUp = p.isUp
          ∧ (q u).substPending = p.substPending)))
    ∧ (∀ x, p.switch = some x → x.lane < 4 → p.phy.lanes.length = 4 →
      let count := if x.mine then p.sent.length else s.m.count (.flitsRx n)
      let v := (s.m.switchLane n).port n
      (((x.mine = true ∧ x.acked = false) ∨ (count < x.due ∧ s.m.span < x.since + 2000)) → v = p)
      ∧ ((x.mine = true → x.acked = true) → (x.due ≤ count ∨ x.since + 2000 ≤ s.m.span) → v.phy.lanes[x.lane]? = some p.phy.spareLane
          ∧ (∀ k, k ≠ x.lane → v.phy.lanes[k]? = p.phy.lanes[k]?) ∧ v.phy.spareOk = false ∧ v.isUp = p.isUp ∧ v.substPending = [] ∧ v.switch = none))
    ∧ (Machine.flitOk f = true → flitType f = 3 → p.isUp = true →
      ∀ t4, Runs (.timeFlit t n f t4) s (fun u => u.mem = s.mem ∧ (q u).echoRx = t4 ∧ (q u).echoTx = (timeMsg f).txTime ∧ (q u).rxAck = p.rxAck))
    ∧ (Machine.flitOk f = true → 4 ≤ flitType f → Runs (.nullFlit t n f) s (fun u => bad u ∧ q u = p))
    ∧ (Machine.flitOk f = false → Runs (.nullFlit t n f) s (fun u => bad u ∧ q u = p) ∧ (p.isUp = true → Runs (.dataFlit t n f ok) s (fun u => bad u ∧ nak u)))

/-- Ports by R314, R337 to R340 and the peer check of R320. -/
def Obligations.LinksFailAndTrain : Prop :=
  ∀ (s : State) (t n symbols : Nat), n < 18 → s.m.ports.length = 18 → s.m.power.main = .on → ((s.m.port n).subst = true → (s.m.port 17).standsFor = n) →
    let p := s.m.port n
    let q (u : State) : Port := u.m.port n
    let now := (s.m.advanceTo t).span
    (p.isUp = true → p.lastIntact + 1000 ≤ now → Runs (.linkIdleTimeout t n) s (fun u => (q u).linkState = 4 ∧ (q u).retry = []))
    ∧ (∀ a b, p.linkState ≠ 5 → Runs (.laneLossOfLock t n [a, b]) s (fun u => (q u).linkState = 4))
    ∧ (∀ lane k, p.isUp = true → p.phy.lanes.findIdx? (· == lane) = some k →
        let asks (u : State) : Prop := u.mem = s.mem ∧ (q u).substPending = k :: p.substPending.erase k ∧ (q u).linkState = p.linkState
          ∧ (q u).sent.length = p.sent.length + 1 ∧ (q u).retry.length = p.retry.length + 1
          ∧ (q u).switch = some { lane := k, since := now, due := (q u).sent.length + 16, mine := true }
        (p.phy.spareOk = true → (∀ x ∈ p.substPending, x = k) → p.retry.length < 2048 → Runs (.laneLossOfLock t n [lane]) s asks
          ∧ Runs (.laneCorrectionLimit t n lane symbols) s (fun u => asks u ∧ u.m.count (.fecCorr n) = Nat.min (s.m.count (.fecCorr n) + symbols) (2 ^ 64 - 1)))
        ∧ ((p.phy.spareOk = false ∨ ∃ x ∈ p.substPending, x ≠ k) → Runs (.laneLossOfLock t n [lane]) s (fun u => (q u).linkState = 4)
          ∧ Runs (.laneCorrectionLimit t n lane symbols) s (fun u => (q u).linkState = 4)))
    ∧ (p.isUp = true → p.phy.lanes.findIdx? (· == p.phy.spareLane) = none → p.phy.spareOk = true →
        Runs (.laneLossOfLock t n [p.phy.spareLane]) s (fun u => u.mem = s.mem ∧ (q u).phy.spareOk = false ∧ (q u).phy.lanes = p.phy.lanes ∧ (q u).linkState = p.linkState))
    ∧ (∀ l, p.phy.failedLane = some l →
        (now ≤ l.since + 100000000 →
          Runs (.laneRetrainDone t n true) s (fun u => u.mem = s.mem ∧ (q u).phy.failedLane = none ∧ (q u).phy.spareOk = true ∧ (q u).phy.spareLane = l.lane ∧ (q u).isUp = p.isUp))
        ∧ Runs (.laneRetrainDone t n false) s (fun u => u.mem = s.mem ∧ (q u).phy.failedLane = none ∧ (q u).phy.spareLost = true ∧ (q u).phy.spareOk = p.phy.spareOk
            ∧ (q u).isUp = p.isUp))
    ∧ (p.linkState = 4 → p.failedAt + 100000000 ≤ now → (s.m.port 17).standsFor ≠ n → p.dead = false → Runs (.portRetrain t n) s (fun u => u.mem = s.mem ∧ (q u).linkState = 1))
    ∧ (p.dead = true → exec (.portRetrain t n) s = .next (s.on (·.advanceTo t)) ∧ ∀ pm pp ok, exec (.portTrainingDone t n pm pp ok) s = .next (s.on (·.advanceTo t)))
    ∧ (∀ pm pp, (p.linkState = 0 ∨ p.linkState = 1) → p.dead = false → s.m.jobRuns = false →
        (s.m.peerOk n pm pp = true → Runs (.portTrainingDone t n pm pp true) s (fun u => u.mem = s.mem ∧ (q u).peerModule = pm ∧ (q u).peerPort = pp ∧ (q u).isUp = true
          ∧ (q u).sent.length = p.sent.length + 1))
        ∧ (s.m.peerOk n pm pp = false → Runs (.portTrainingDone t n pm pp true) s (fun u => (q u).linkState = 6)))
    ∧ (p.linkState = 1 → p.dead = false → ∀ pm pp, Runs (.portTrainingDone t n pm pp false) s (fun u => (q u).linkState = 4))
    ∧ (∀ pm pp, n ≠ 17 → (s.m.port 17).standsFor = n → (s.m.port 17).sp0Trial = true → p.linkState = 4 → s.m.peerOk n pm pp = true → s.m.jobRuns = false →
        Runs (.sp0Trained t pm pp true) s (fun u => u.mem = s.mem ∧ (q u).isUp = true ∧ (q u).subst = true ∧ (u.m.port 17).sp0Trial = false))

/-- Fabric time by R344 to R353. -/
def Obligations.FabricTime : Prop :=
  ∀ (s : State) (t : Nat),
    let now := (s.m.advanceTo t).span
    let hears (n : Nat) : Bool := (s.m.advanceTo t).hears n && (s.m.port n).peerLocked
    let alt := fld s.m.fab.cfg 102 98
    let par := fld s.m.fab.cfg 97 93
    (∀ n, n < 18 → s.m.ports.length = 18 → s.m.power.main = .on → s.m.up n = true → Runs (.timeFlitSend t) s (fun u => u.mem = s.mem
      ∧ ∃ f, (u.m.port n).sent = (s.m.port n).sent ++ [f] ∧ Machine.flitOk f = true ∧ flitType f = 3))
    ∧ (s.m.clk.role = 0 → s.m.clk.parentInUse ≠ 0x1F → (s.m.up s.m.clk.parentInUse = false ∨ s.m.clk.parentFlitAt + 10000 ≤ now) →
        (hears alt = false → Runs (.parentTimeout t) s (fun u => u.mem = s.mem ∧ u.m.clk.holdover = true ∧ u.m.clk.parentInUse = s.m.clk.parentInUse ∧ u.m.ports = s.m.ports))
        ∧ (hears alt = true → Runs (.parentTimeout t) s (fun u => u.mem = s.mem ∧ u.m.clk.holdover = false ∧ u.m.clk.parentInUse = alt ∧ u.m.ports = s.m.ports)))
    ∧ (s.m.clk.role = 2 → s.m.clk.parentInUse ≠ 0x1F → s.m.up s.m.clk.parentInUse = false → alt = 0x1F →
        Runs (.parentTimeout t) s (fun u => u.m.clk.role = 3 ∧ u.m.clk.depth = 0 ∧ u.m.clk.holdover = false))
    ∧ (∀ since, s.m.clk.primarySince = some since → since + 1000000000 ≤ now → (s.m.clk.parentInUse ≠ par ∨ s.m.clk.holdover = true) → hears par = true →
        s.m.clk.role = 0 → Runs (.parentRestore t) s (fun u => u.mem = s.mem ∧ u.m.clk.parentInUse = par ∧ u.m.clk.holdover = false))
    ∧ (∀ at_, s.m.dev.state = 4 → s.m.clk.holdover = true → s.m.clk.holdoverAt = some at_ → at_ + 2000000 ≤ now → s.m.dev.bellPending = false → s.m.dev.bellPassed = false → s.m.faults.bells = [] →
        Runs (.timeLost t) s (fun u => u.m.dev.state = 5 ∧ u.m.dev.bellPending = true ∧ u.m.dev.bellOrigin = s.m.moduleId))
    ∧ (s.m.clk.role = 1 → Runs (.ppsInEdge t) s (fun u => u.mem = s.mem ∧ u.m.clk.ppsLast = some (s.m.advanceTo t).fabNs ∧ u.m.clk.ppsAt = some now ∧ u.m.clk.ppsLock = true
        ∧ u.m.clk.fab = (s.m.advanceTo t).clk.fab ∧ -10000 ≤ u.m.clk.ppsRate ∧ u.m.clk.ppsRate ≤ 10000))
    ∧ (∀ l, s.m.clk.ppsAt = some l → l + 1500000000 ≤ now → Runs (.ppsLoss t) s (fun u => u.mem = s.mem ∧ u.m.clk.ppsLock = false ∧ u.m.clk.ppsRate = 0))

/-- Neither clock goes back, and fabric time runs with the own clock between corrections, steered and slewed within the bounds of R346 and R353. -/
def Obligations.TimeNeverGoesBack : Prop :=
  (∀ (b : Block) (t t' : Nat), b.clk.own ≤ (b.advanceTo t).clk.own ∧ t ≤ (b.advanceTo t).clk.own ∧ b.clk.fab ≤ (b.advanceTo t).clk.fab
    ∧ (b.clk.frac < 1000000000 → b.clk.refRate = 0 → b.clk.role ≠ 1 → b.clk.role ≠ 3 →
        (b.advanceTo t).clk.fab - b.clk.fab = 16 * ((b.advanceTo t).clk.own - b.clk.own))
    ∧ (b.clk.frac < 1000000000 → b.clk.refRate = 0 → -10000 ≤ b.clk.ppsRate → b.clk.ppsRate ≤ 10000 →
        let own := (b.advanceTo t).clk.own - b.clk.own
        let fab := (b.advanceTo t).clk.fab - b.clk.fab
        100000 * fab ≤ 1600016 * own + 100000 ∧ 1599984 * own ≤ 100000 * (fab + 1))
    ∧ (t ≤ t' → (b.advanceTo t).advanceTo t' = b.advanceTo t'))
  ∧ ∀ (c : Clk) (off : Int) (m : TimeMsg) (t4 : Nat) (begun shown : Bool) (before k : Nat), c.locked = true → before ≤ c.fab →
      let d := c.follow off m t4 begun before k shown
      before ≤ d.fab ∧ d.fab ≤ c.fab + k ∧ c.fab ≤ d.fab + k
        ∧ c.mayslew off ≤ off.natAbs ∧ 1250 * c.mayslew off ≤ c.own - c.slewAt ∧ c.mayslew off ≤ 8

/-- The register instructions of R168: DST of every lane, and nothing else. -/
def Obligations.LaneRegisterInstructions : Prop :=
  ∀ (s : State) (c : Nat) (l : LaneRun) (ins : W64), s.m.nextSlot c = some (l, ins) →
    let a (n : Nat) : F32 := l.reg n (fld ins 49 44)
    let b (n : Nat) : F32 := l.reg n (fld ins 43 38)
    let k (n : Nat) : F32 := l.reg n (fld ins 37 32)
    (lopOf ins = 0x00 → exec (.laneNop c) s = .next (s.on (fun m => m.setLane c (some { l with pc := l.pc + 1 }))))
    ∧ (lopOf ins = 0x01 → LaneWrites (.add c) s c l ins (fun n => f32Add (a n) (b n)))
    ∧ (lopOf ins = 0x02 → LaneWrites (.sub c) s c l ins (fun n => f32Sub (a n) (b n)))
    ∧ (lopOf ins = 0x03 → LaneWrites (.mul c) s c l ins (fun n => f32Mul (a n) (b n)))
    ∧ (lopOf ins = 0x04 → LaneWrites (.fma c) s c l ins (fun n => f32Fma (a n) (b n) (k n)))
    ∧ (lopOf ins = 0x05 → LaneWrites (.div c) s c l ins (fun n => f32Div (a n) (b n)))
    ∧ (lopOf ins = 0x06 → LaneWrites (.max c) s c l ins (fun n => f32Max (a n) (b n)))
    ∧ (lopOf ins = 0x07 → LaneWrites (.min c) s c l ins (fun n => f32Min (a n) (b n)))
    ∧ (lopOf ins = 0x08 → LaneWrites (.abs c) s c l ins (fun n => a n &&& 0x7FFFFFFF#32))
    ∧ (lopOf ins = 0x09 → LaneWrites (.neg c) s c l ins (fun n => a n ^^^ 0x80000000#32))
    ∧ (lopOf ins = 0x0A → LaneWrites (.recip c) s c l ins (fun n => f32Recip (a n)))
    ∧ (lopOf ins = 0x0B → LaneWrites (.sqrt c) s c l ins (fun n => f32Sqrt (a n)))
    ∧ (lopOf ins = 0x0C → LaneWrites (.rsqrt c) s c l ins (fun n => f32Rsqrt (a n)))
    ∧ (lopOf ins = 0x0D → LaneWrites (.exp2 c) s c l ins (fun n => f32Exp2 (a n)))
    ∧ (lopOf ins = 0x0E → LaneWrites (.log2 c) s c l ins (fun n => f32Log2 (a n)))
    ∧ (lopOf ins = 0x0F → LaneWrites (.cmp c) s c l ins (fun n => f32Cmp (lopMode ins) (a n) (b n)))
    ∧ (lopOf ins = 0x10 → LaneWrites (.sel c) s c l ins (fun n => if f32Zero (k n) then b n else a n))
    ∧ (lopOf ins = 0x11 → LaneWrites (.mov c) s c l ins a)
    ∧ (lopOf ins = 0x12 → LaneWrites (.const c) s c l ins (fun _ => toF32 (decodeFloat kf16 (lopImm ins))))
    ∧ (lopOf ins = 0x16 → LaneWrites (.shuf c) s c l ins (fun n => l.reg (n ^^^ lopImm ins) (fld ins 49 44)))

/-- RED_ADD, RED_MAX and DRAW (R168, R169). With no input slot 0 the drawn value is free (log 8). -/
def Obligations.LaneReductionsAndDraw : Prop :=
  ∀ (s : State) (c : Nat) (l : LaneRun) (ins : W64), s.m.nextSlot c = some (l, ins) →
    let op := s.m.op c l.index
    let src (absent : F32) : List F32 := (List.range 256).map (fun n => if l.active s.m op n then l.reg n (fld ins 49 44) else absent)
    let keep (r : F32) (n : Nat) : F32 := if l.active s.m op n then r else l.reg n (fld ins 55 50)
    (lopOf ins = 0x17 → LaneWrites (.redAdd c) s c l ins (keep (pairwise f32Add 0 (src 0))))
    ∧ (lopOf ins = 0x18 → LaneWrites (.redMax c) s c l ins (keep (pairwise f32Max 0x7FC00000#32 (src 0x7FC00000#32))))
    ∧ (lopOf ins = 0x15 → (s.m.tensor (opA op).tensor).isSome = true →
        Runs (.draw c) s (fun t => t.mem = s.mem ∧ t.pending = s.pending ∧ ∃ l', (t.m.croft c).lane = some l' ∧ l'.pc = l.pc + 1 ∧ l'.stored = l.stored
          ∧ ∀ n rs, n < 256 → l.regs[n]? = some rs → l'.regs[n]? = some (rs.set (fld ins 55 50)
              (if l.active s.m op n then toF32 (.fin false (draw s.m.job.key ((opStream op + lopImm ins) % 2 ^ 32) s.m.job.step (s.m.logicalIndex op l n)) (-16)) else 0))))
    ∧ (lopOf ins = 0x15 → (s.m.tensor (opA op).tensor).isSome = false →
        Runs (.draw c) s (fun t => t.mem = s.mem ∧ t.m.tiers.openCtr = s.m.tiers.openCtr + 256 ∧ ∃ l', (t.m.croft c).lane = some l' ∧ l'.pc = l.pc + 1))

/-- LOAD of IMM 0x0002 to 0x0008 (R207). -/
def Obligations.LaneConstantLoads : Prop :=
  ∀ (s : State) (c : Nat) (l : LaneRun) (ins : W64), s.m.nextSlot c = some (l, ins) → lopOf ins = 0x13 → l.regs.length = 256 →
    let op := s.m.op c l.index
    let layer := s.m.layer (opLayer op)
    let gives (v : F32) (n : Nat) : F32 := if l.active s.m op n then v else 0
    (lopImm ins = 2 → LaneWrites (.loadClipFactor c) s c l ins (gives (s.m.job.clip.getD 0)))
    ∧ (lopImm ins = 3 → LaneWrites (.loadLr c) s c l ins (gives (asF32 (f32 (BitVec.ofNat 32 (fld layer 383 352))))))
    ∧ (4 ≤ lopImm ins → lopImm ins ≤ 7 → LaneWrites (.loadHyp c) s c l ins
        (gives (asF32 (f32 (BitVec.ofNat 32 (fld layer (415 + 32 * (lopImm ins - 4)) (384 + 32 * (lopImm ins - 4))))))))
    ∧ (lopImm ins = 8 → LaneWrites (.loadStepNumber c) s c l ins (gives (toF32 (.ofInt s.m.job.step))))

/-- LOAD of an input slot (R170) and of the master weight (R209). -/
def Obligations.LaneTensorLoads : Prop :=
  ∀ (s : State) (c : Nat) (l : LaneRun) (ins : W64), s.m.nextSlot c = some (l, ins) → lopOf ins = 0x13 → l.regs.length = 256 →
    let op := s.m.op c l.index
    (lopImm ins = 0 → (∀ n, n < 256 → (s.slotElem c op l (lopMode ins) n).2.2 = false) →
      Runs (.load c) s (fun t => t.mem = s.mem ∧ t.pending = s.pending ∧ ∃ l', (t.m.croft c).lane = some l' ∧ l'.pc = l.pc + 1 ∧ l'.stored = l.stored
        ∧ ∀ n rs, n < 256 → l.regs[n]? = some rs → l'.regs[n]? = some (rs.set (fld ins 55 50) (if l.loads s.m op (lopMode ins) n then (s.slotElem c op l (lopMode ins) n).1 else 0))))
    ∧ (lopImm ins = 0 → (∃ n, n < 256 ∧ l.loads s.m op (lopMode ins) n = true ∧ (s.slotElem c op l (lopMode ins) n).2.2 = true) →
        exec (.load c) s = .next ((s.on (fun b => b.setLane c none)).mismatch c l.index (s.m.slotTensor op (lopMode ins)).tag false (s.m.slotReads op (lopMode ins))))
    ∧ (lopImm ins = 1 → (∀ n, n < 256 → l.active s.m op n = true → (s.masterWeight c op ((opOut op).row + l.row) ((opOut op).col + 256 * l.group + n)).2.1 = false) →
        LaneWrites (.loadMasterWeight c) s c l ins (fun n => if l.active s.m op n then
        asF32 ((Ext.ofInt (s.masterWeight c op ((opOut op).row + l.row) ((opOut op).col + 256 * l.group + n)).1).scale (layerExp (s.m.layer (opLayer op)))) else 0))
    ∧ (∀ k n, s.m.isCache (s.m.slotTensor op k) = false → s.m.attends op k = none →
        (s.m.slotRef op 0 = opA op ∧ s.m.slotRef op 1 = opB op)
        ∧ ∃ first, s.slotElem c op l k n = loadElem s.mem c (s.m.slotTensor op k) (layerExp (s.m.layer (opLayer op))) ((s.m.slotRef op k).row + l.row)
            ((s.m.slotRef op k).col + (256 * l.group + n)) first)

/-- STORE waits for the end of the run (R124, R170, R208). -/
def Obligations.LaneStoresWait : Prop :=
  ∀ (s : State) (c : Nat) (l : LaneRun) (ins : W64), s.m.nextSlot c = some (l, ins) → lopOf ins = 0x14 →
    let op := s.m.op c l.index
    let kept (i : Instr) (mode : Nat) : Prop := Runs i s (fun t => t.mem = s.mem ∧ t.pending = s.pending ∧ ∃ l', (t.m.croft c).lane = some l' ∧ l'.pc = l.pc + 1 ∧ l'.regs = l.regs
      ∧ (∀ n, n < 256 → l.stores s.m op n = true → ({ mode := mode, row := l.row, col := 256 * l.group + n, value := l.reg n (fld ins 49 44) } : Stored) ∈ l'.stored)
      ∧ (∀ x ∈ l.stored, (x.mode ≠ mode ∨ x.row ≠ l.row) → x ∈ l'.stored))
    (lopMode ins = 0 → kept (.store c) 0) ∧ (lopMode ins = 2 → kept (.storeFirstMoment c) 2) ∧ (lopMode ins = 3 → kept (.storeSecondMoment c) 3)
    ∧ (lopMode ins = 4 → kept (.storeForwardCopy c) 4) ∧ (lopMode ins = 5 → kept (.storeBackwardCopy c) 5)
    ∧ (lopMode ins = 1 → Runs (.storeMaster c) s (fun t => t.mem = s.mem ∧ t.pending = s.pending ∧ ∃ l', (t.m.croft c).lane = some l' ∧ l'.pc = l.pc + 1
        ∧ ∀ n rs, n < 256 → l.regs.length = 256 → l.regs[n]? = some rs →
            (l.active s.m op n = true → l'.regs[n]? = some (rs.set (fld ins 55 50) (s.masterStore c op l ins n).2.1)
              ∧ ({ mode := 1, row := l.row, col := 256 * l.group + n, value := BitVec.ofInt 32 (s.masterStore c op l ins n).1 } : Stored) ∈ l'.stored)
            ∧ (l.active s.m op n = false → l'.regs[n]? = some rs)))

/-- PHASE_END and END (R166). -/
def Obligations.LaneSequencing : Prop :=
  ∀ (s : State) (c : Nat) (l : LaneRun) (ins : W64), s.m.nextSlot c = some (l, ins) →
    let op := s.m.op c l.index
    let tout := (s.m.tensor (opOut op).tensor).getD {}
    let groups := ceilDiv (s.m.rowLen op) 256
    (lopOf ins = 0x1E → l.group + 1 < groups → Runs (.phaseEnd c) s (fun t => t.mem = s.mem ∧ (t.m.croft c).lane = some { l with group := l.group + 1, pc := l.phasePc }))
    ∧ (lopOf ins = 0x1E → groups ≤ l.group + 1 → Runs (.phaseEnd c) s (fun t => t.mem = s.mem
        ∧ (t.m.croft c).lane = some { l with group := 0, phase := l.phase + 1, pc := l.pc + 1, phasePc := l.pc + 1 }))
    ∧ (∀ first prog, lopOf ins = 0x1F → l.row + 1 < opRows op → (s.m.croft c).program (opWord op 1 % 64) = some (first, prog) →
        Runs (.endProgram c) s (fun t => t.mem = s.mem ∧ ∃ l', (t.m.croft c).lane = some l' ∧ l'.row = l.row + 1 ∧ l'.pc = first ∧ l'.group = 0 ∧ l'.phase = 0
          ∧ l'.stored = l.stored ∧ ∀ n r, l'.reg n r = 0))
    ∧ (lopOf ins = 0x1F → opRows op ≤ l.row + 1 → (s.m.isCache tout = false ∨ s.m.isUpdate op = true) →
        ∃ u : State, u.pending = s.pending ∧ exec (.endProgram c) s = .next (u.opDone c l.index))
    ∧ (lopOf ins = 0x1F → opRows op ≤ l.row + 1 → s.m.isCache tout = true → s.m.isUpdate op = false →
        let r := (s.on (fun b => (b.onBank c l.index (fun k => k.release l.counts)).setLane c none)).storeCache c l op tout
        (r.2 = [] → exec (.endProgram c) s = .next (r.1.opDone c l.index))
        ∧ (r.2 ≠ [] → exec (.endProgram c) s
            = .next (r.1.on (fun b => b.setLane c (some { l with stored := l.stored.filter (fun x => r.2.contains x.row), counts := [] })))))

/-- What R56, R80 and R82 say of KF32 arithmetic, whatever the operands. -/
def Obligations.KF32Arithmetic : Prop :=
  ∀ a b c : F32, f32Add a b = f32Add b a ∧ f32Mul a b = f32Mul b a ∧ f32Fma a b c = f32Fma b a c
    ∧ (isNan (f32Add a b) = true → f32Add a b = 0x7FC00000#32) ∧ (isNan (f32Mul a b) = true → f32Mul a b = 0x7FC00000#32)
    ∧ (isNan (f32Fma a b c) = true → f32Fma a b c = 0x7FC00000#32) ∧ (isNan (f32Div a b) = true → f32Div a b = 0x7FC00000#32)
    ∧ (isNan a = true → isNan (f32Add a b) = true ∧ isNan (f32Mul a b) = true ∧ isNan (f32Div a b) = true)
    ∧ f32Neg (f32Neg a) = a ∧ f32Abs (f32Neg a) = f32Abs a

/-- Issue by R180: the operation runs on its unit, journaled; the check of R179 keeps one that breaks a rule from issuing (log 36). -/
def Obligations.OperationsIssue : Prop :=
  ∀ (s : State) (c i : Nat),
    let op := s.m.op c i
    let on (u : CroftUnit) : State := s.on (fun b => (b.endStall c u).journalIssue c i)
    let plain : State := s.on (fun b => b.journalIssue c i)
    (∀ u code, s.head c u [code] = .ready i → badArray s.m s.mem c op = false → s.m.dev.ideState ≠ 2 →
        let a := (on u).m.firstAttempt c i
        let noted : State := (on u).on (fun b => b.notePrior c i)
        let pa := noted.patched op true
        let pb := noted.patched op false
        let runs (t : State) : Prop := (u = .fa → code = 1 → exec (.faMatmul c {}) s = .next t) ∧ (u = .ba → code = 2 → exec (.baMatmulWs c {}) s = .next t)
          ∧ (u = .ba → code = 3 → exec (.baMatmulOs c {}) s = .next t)
        let spans : Bool := noted.m.inSpan op && !noted.m.spanSpent c i
        (((pa = none ∧ pb = none) ∨ noted.m.pinned (opLayer op) = true) → runs ((noted.on (fun b => b.hostRead c i (b.opReads op))).runArray c i a))
        ∧ ((pa ≠ none ∨ pb ≠ none) → noted.m.pinned (opLayer op) = false → spans = true → runs (noted.discardSpan c i []))
        ∧ ((pa ≠ none ∨ pb ≠ none) → noted.m.pinned (opLayer op) = false → spans = false →
            runs (noted.on (fun b => (b.countFailed c i a).cascadeAs c i a (Nat.max (pa.getD 0) (pb.getD 0))))))
    ∧ (∀ acc, s.head c .fa [1] = .ready i → badArray s.m s.mem c op = true → exec (.faMatmul c acc) s = .next (s.reject c i))
    ∧ (∀ acc, s.head c .lane [8] = .ready i → badLane s.m c op = true → exec (.laneRun c acc) s = .next (s.reject c i))
    ∧ (∀ acc, s.head c .stile [0x0C] = .ready i → badStile s.m op = true → exec (.stileWiden { croft := c, acc := acc }) s = .next (s.reject c i))
    ∧ (∀ acc, s.head c .move [0x10] = .ready i → moveKind op = 0 → badMove s.m op = true → exec (.moveCopy c acc) s = .next (s.reject c i))
    ∧ (s.head c .lane [8] = .ready i → badLane s.m c op = false → s.m.isUpdate op = false → s.m.dev.ideState ≠ 2 →
        exec (.laneRun c {}) s = .next ((on .lane).startLane c i ((on .lane).m.firstAttempt c i)))
    ∧ (s.head c .lane [8] = .ready i → badLane s.m c op = false → s.m.isUpdate op = true → s.m.job.clip.isSome = true → s.m.shardPending op = false → s.m.dev.ideState ≠ 2 →
        ((on .lane).m.heldComplete op = true → exec (.laneRun c {}) s = .next ((on .lane).startLane c i ((on .lane).m.firstAttempt c i)))
        ∧ ((on .lane).m.heldComplete op = false → exec (.laneRun c {}) s = .next ((on .lane).stopCroft c i { cls := .j, code := 0x26, at_ := 0 })))
    ∧ (s.head c .stile [0x0C] = .ready i → badStile s.m op = false → s.m.dev.ideState ≠ 2 → exec (.stileWiden { croft := c }) s = .next (plain.runStile c i))
    ∧ (s.head c .stile [0x0D] = .ready i → badStile s.m op = false → s.m.dev.ideState ≠ 2 → exec (.stileNarrow { croft := c }) s = .next (plain.runStile c i))
    ∧ (∀ kind, s.head c .move [0x10] = .ready i → moveKind op = kind → badMove s.m op = false → (kind < 2 → s.m.notBefore op ≤ s.m.now) → s.m.squirrelFull kind = false → s.m.dev.ideState ≠ 2 →
        (kind = 0 → exec (.moveCopy c {}) s = .next (plain.runMove c i)) ∧ (kind = 1 → exec (.moveMigrate { croft := c }) s = .next (plain.runMove c i))
        ∧ (kind = 2 → exec (.moveOffload c) s = .next (plain.runMove c i)) ∧ (kind = 3 → exec (.movePrefetch c) s = .next (plain.runMove c i)))

/-- The tile of an array operation (R154): which barrels it holds, and what it leaves alone; or the mismatch that stops it (R150). -/
def Obligations.ArrayTileIsFormed : Prop :=
  ∀ (s : State) (c i : Nat) (a : Attempt), c < s.m.crofts.length →
    let op := s.m.op c i
    let la := operandLines s.mem c (s.m.source (opA op) a) (opA op) (opFlag op 0) (opRows op) (opBlocks op)
    let lb := operandLines s.mem c (s.m.source (opB op) a) (opB op) (opFlag op 1) (opCols op) (opBlocks op)
    let u := arrOf ((unitAt op a).getD .ba)
    let parts := s.m.splitOf c i
    let fixed := (((s.m.croft c).entry i).bind (fun e => assocGet (a.rung, a.extra) e.anchors)).getD []
    let whole : Bool := parts.length != 1 && bitsOf (opAcc op) 7 6 == 0
    let t := s.runArray c i a
    ((∀ l ∈ la ++ lb, ∀ x ∈ l, x.tagBad = none ∧ x.squareBad = none) →
      t.mem = s.mem ∧ t.pending = s.pending ∧ t.m.tiers = s.m.tiers ∧ (∀ n, n ≠ c → t.m.croft n = s.m.croft n)
        ∧ (t.m.croft c).journal.map (fun e => (e.index, e.state, e.attempt)) = (s.m.croft c).journal.map (fun e => (e.index, e.state, e.attempt))
        ∧ ∃ x, ((t.m.croft c).unit u).tile = some x ∧ x.index = i ∧ x.attempt = a ∧ x.prior = s.m.startOf c i
          ∧ x.cells = (accumulateTile (u == .fa) (opCode op == 3) (opAcc op) a.extra (s.m.startOf c i) fixed la lb (if whole then s.wholeLines parts a true else la)
              (if whole then s.wholeLines parts a false else lb)).barrels)
    ∧ ∀ isA x, (issueOrder la lb (opBlocks op) (passBlocks op u a)).find? (fun y => y.2.tagBad.isSome || y.2.squareBad.isSome) = some (isA, x) →
        (∀ tag, x.tagBad = some tag → t = s.mismatch c i tag false (s.m.sourceReads op isA a))
        ∧ (∀ tag, x.tagBad = none → x.squareBad = some tag → t = s.mismatch c i tag true (s.m.sourceReads op isA a))

/-- The operations that no unit runs (R178), and forced commits (R471, R475). -/
def Obligations.ControlOperations : Prop :=
  ∀ (s : State) (c i : Nat) (ok : Bool),
    (s.m.controlHead c 0x18 = .ready i → badControl (s.m.op c i) = false → (s.m.croft c).quietBefore i = true → (s.m.die (dieOf c)).hold = none →
        s.m.flushFirst c ((s.m.croft c).todo.drop 1) = false →
        exec (.commit c ok) s = .next (s.judged ok ((((s.runExports c true).on (·.closeSpan c)).on (fun b => b.passControl c i)).commitCroft c)))
    ∧ (s.m.controlHead c 0x18 = .ready i → badControl (s.m.op c i) = true → exec (.commit c ok) s = .next (s.reject c i))
    ∧ (s.m.controlHead c 0x19 = .ready i → (s.m.croft c).quietBefore i = true → exec (.fenceCroft c) s = .next (s.on (fun b => b.passControl c i)))
    ∧ (s.m.controlHead c 0x1A = .ready i → badControl (s.m.op c i) = false → s.m.waitTime (s.m.op c i) ≤ s.m.now → exec (.waitTime c) s = .next (s.on (fun b => b.passControl c i)))
    ∧ (s.m.controlHead c 0x1A = .ready i → badControl (s.m.op c i) = false → s.m.now < s.m.waitTime (s.m.op c i) → c < s.m.crofts.length →
        Runs (.waitTime c) s (fun t => t.mem = s.mem ∧ (t.m.croft c).waitUntil = some (s.m.waitTime (s.m.op c i)) ∧ (t.m.croft c).todo = (s.m.croft c).todo))
    ∧ (∀ t w rest, (s.m.croft c).waitUntil = some w → (s.m.croft c).todo = i :: rest → opCode (s.m.op c i) = 0x1A → s.m.waitTime (s.m.op c i) = w → w ≤ (s.m.advanceTo t).now →
        (s.m.advanceTo t).waitTime (s.m.op c i) = w →
        Runs (.waitTimeExpiry t c) s (fun u => u.mem = s.mem ∧ (u.m.croft c).waitUntil = none ∧ i ∉ (u.m.croft c).todo))
    ∧ (s.m.controlHead c 0x18 = .skip i → exec (.commit c ok) s = .next (s.on (·.skipControl c i)))
    ∧ (s.m.controlHead c 0x19 = .skip i → exec (.fenceCroft c) s = .next (s.on (·.skipControl c i)))
    ∧ (s.m.controlHead c 0x1A = .skip i → exec (.waitTime c) s = .next (s.on (·.skipControl c i)))
    ∧ (s.m.controlHead c 0x1F = .skip i → exec (.almanacNop c) s = .next (s.on (·.skipControl c i)))
    ∧ (s.m.controlHead c 0x1F = .ready i → exec (.almanacNop c) s = .next (s.on (fun b => b.passControl c i)))
    ∧ (∀ t, c < 192 → (((s.m.advanceTo t).croft c).forcing = true ∨ ((s.m.advanceTo t).croft c).commitAt + 200000 ≤ (s.m.advanceTo t).now) → exec (.forcedCommit t c) s = .next ((s.on (·.advanceTo t)).forceCommit c))
    ∧ (∀ t cs, exec (.commitHoldLimit t cs) s = .next ((List.range 192).foldl (fun u k => if u.holdsOn k then u.forceCommit k else u) (s.on (·.advanceTo t))))
    ∧ ((s.m.croft c).spanOpen = false → (∃ e ∈ (s.m.croft c).journal, e.state ≠ .retained) → (s.m.croft c).forcing = false → (∃ e ∈ (s.m.croft c).inFlight, ∀ w ∈ s.m.tiers.heldWrites, w.owner ≠ some (c, e.index)) → c < s.m.crofts.length →
        (s.forceCommit c).m.count .forcedCommits = Nat.min (s.m.count .forcedCommits + 1) (2 ^ 64 - 1) ∧ ((s.forceCommit c).m.croft c).forcing = true)
    ∧ (i ∉ ((s.m.passControl c i).croft c).todo)

/-- What becomes of a tile that an array has formed (R105, R106, R113, R164, R246, R255). -/
def Obligations.TilesDrainAndRepeat : Prop :=
  ∀ (s : State) (c : Nat) (ok : Bool), (s.m.croft c).stopped = false →
    (∀ arr t k, ((s.m.croft c).unit arr).tile = some t →
        let op := s.m.op c t.index
        let ids := s.m.splitOf c t.index
        (tileOk op t k = false → exec (.tileDrain c arr k) s
          = .next (s.judged k.adders ((s.on (fun b => b.clearTile c t.index)).stopCroft c t.index { cls := .t, code := 0x21, at_ := 0, croftSide := true, cause := 1 })))
        ∧ (tileOk op t k = true → opFlag op 7 = false → ids.length = 1 → exec (.tileDrain c arr k) s = .next (s.judged k.adders (s.judge c t [{ croft := c, tile := t }])))
        ∧ (tileOk op t k = true → opFlag op 7 = false → ids.length ≠ 1 → exec (.tileDrain c arr k) s = .next (s.judged k.adders (s.partDone c t ids)))
        ∧ (tileOk op t k = true → opFlag op 7 = true → exec (.tileDrain c arr k) s = .next s)
        ∧ (k.product = false ∨ k.run = false → tileOk op t k = false))
    ∧ (∀ t, ((s.m.croft c).unit .ba).tile = some t → opFlag (s.m.op c t.index) 7 = true → exec (.sliceExport c ok) s = .next (s.judged ok (s.finishTile c t {})))
    ∧ (((s.m.croft c).unit .ba).tile = none → ((s.m.croft c).unit .fa).tile = none → exec (.sliceExport c ok) s = .next (s.judged ok (s.runExports c)))
    ∧ (∀ i a, s.m.nextRedo c (fun a => a.repeated || a.cascade) = some (i, a) → s.m.dev.ideState ≠ 2 →
        exec (.repeatWider { croft := c }) s = .next ((s.on (fun b => (b.takeRedo c (i, a)).notePrior c i)).runArray c i a))
    ∧ (∀ i a, s.m.nextRedo c (fun a => a.spanReplay && !a.replay && !a.repeated && !a.cascade) = some (i, a) →
        ∃ u : State, u.mem = s.mem ∧ u.pending = s.pending ∧ exec (.spanReplay { croft := c }) s = .next (u.reissue c i a {}))

/-- The boundaries of a job (R35, R443), the abort at Ta (R497) and the tally slot's trailer (R229). -/
def Obligations.StepBoundaries : Prop :=
  ∀ (s : State) (t : Nat),
    let u := s.on (fun b => b.advanceTo t)
    (u.m.jobRuns = true → u.m.dev.bellDone = false → u.m.dev.bellPending = false →
      (u.m.job.begun = false → u.m.job.tStart ≤ u.m.now → exec (.stepBoundary t) s = .next u.firstBoundary)
      ∧ (u.m.job.begun = true → u.m.job.boundaryAt ≤ u.m.now → u.m.stepDone = true → (∀ x ∈ u.m.job.stops, u.m.job.step < x) →
          exec (.stepBoundary t) s = .next (u.turnStep u.m.job.step u.m.job.boundaryAt))
      ∧ (u.m.job.begun = true → u.m.job.boundaryAt ≤ u.m.now → u.m.stepDone = true → (∃ x ∈ u.m.job.stops, x ≤ u.m.job.step) →
          exec (.stepBoundary t) s = .next (u.stopAt u.m.job.step))
      ∧ (u.m.job.begun = true → (u.m.now < u.m.job.boundaryAt ∨ u.m.stepDone = false) → exec (.stepBoundary t) s = .next u))
    ∧ (∀ n, (u.stopAt n).m.dev.state = 3 ∧ (u.stopAt n).m.job.stops = [])
    ∧ (∀ n time, (u.turnStep n time).m.job.step = n + 1 ∧ (u.turnStep n time).m.job.begun = true)
    ∧ (u.firstBoundary.m.job.step = u.m.job.firstStep ∧ u.firstBoundary.m.job.begun = true)
    ∧ (u.m.jobRuns = true → u.m.dev.bellPending = true → u.m.dev.bellTa ≤ u.m.now → exec (.bellTa t) s = .next u.abortNow)
    ∧ ((∃ r ∈ u.m.faults.bells, some r.ta = u.m.earliestTa) → u.abortNow.m.dev.bellDone = true ∧ u.abortNow.m.dev.bellPending = false)
    ∧ (u.m.dev.state = 5 → u.m.dev.bellDone = true → u.m.dev.bellTa + 100000 ≤ u.m.now →
        ∀ xs, (u.m.faults.oosPending = 0 → Runs (.abortStopLimit t xs) s (fun v => v.mem = s.mem ∧ v.m.dev.state = 3
            ∧ ∀ n ∈ xs, ∃ e ∈ v.m.faults.arrived, e.croft = some n ∧ e.cls = .t ∧ e.croftSide = true))
        ∧ (u.m.faults.oosPending ≠ 0 → Runs (.abortStopLimit t xs) s (fun v => v.m.dev.state = 6 ∧ v.m.dev.oosReason = u.m.faults.oosPending)))
    ∧ (∀ step, u.m.tally.slotStep = some step →
        let n := (u.m.slotBytes u.m.tally.frozen u.m.tallyTags).length
        Runs (.tallySlotTrailer t) s (fun v => v.mem = (s.writeHost (u.m.slotAddr step + n) (slotTrailer step (n + 64))).mem ∧ v.m.tally.slotStep = none))

/-- What ends in the tiers at its own time: flushes, migrations, moves and late reads. -/
def Obligations.StorageEvents : Prop :=
  ∀ (s : State) (t : Nat),
    let u := s.on (fun b => b.advanceTo t)
    (∀ slot f tries, u.m.cache.flushes.find? (fun f => f.1 == slot) = some f →
        let r := u.flushRanges slot f.2
        let held (x : State) : Bool := x.m.tiers.heldWrites.any (fun w => meets r.1 (false, w.address, w.bytes.length) || meets r.2 (false, w.address, w.bytes.length))
        let w := (u.on (·.bump .retries tries)).devWrite r.2.2.1 (u.mem.parcel.readBytes r.1.2.1 r.1.2.2) none (!u.m.cache.before.contains (slot, f.2))
        ((held u = true ∨ u.m.channelHeld [r.1, r.2] = true) → exec (.cacheFlushDone t slot tries) s = .next u)
        ∧ (held u = false → u.m.channelHeld [r.1, r.2] = false → 3 ≤ tries → exec (.cacheFlushDone t slot tries) s
            = .next ((u.on (fun b => ((b.bump .retries 2).bump .ioFailed).failedAt r.1.2.1)).tierErr [r.1]))
        ∧ (held u = false → u.m.channelHeld [r.1, r.2] = false → u.m.insecureAccess [r.1] [r.2] = none → tries < 3 →
            (held w = false → Runs (.cacheFlushDone t slot tries) s (fun v =>
              v.mem = w.mem ∧ (slot, f.2) ∈ v.m.cache.flushed ∧ v.m.cache.flushes = u.m.cache.flushes.erase (slot, f.2)))
            ∧ (held w = true → exec (.cacheFlushDone t slot tries) s = .next w)))
    ∧ (∀ page e tier frame tries, u.m.page page = some e → e.migrating = some (tier, frame) →
        let w := (u.on (·.bump .retries tries)).switchPage page (u.m.switchKind page)
        let unread : Bool := 3 ≤ tries || (u.m.insecureAccess [(false, 65536 * page, 65536)] []).isSome || (tier == 3 && u.m.dev.ideState == 2)
        ((tier ≠ 2 ∧ e.tier ≠ 2) ∨ u.m.waitingChannels = [] → unread = false →
            exec (.pageMigrationSwitch t page tries) s = .next ((w.releaseWrites.pageSettled page).on (fun b => b.settleBcasts)))
        ∧ ((tier ≠ 2 ∧ e.tier ≠ 2) ∨ u.m.waitingChannels = [] → unread = true → exec (.pageMigrationSwitch t page tries) s = .next (u.pageUnread page))
        ∧ (tier = 2 ∨ e.tier = 2 → u.m.waitingChannels ≠ [] → exec (.pageMigrationSwitch t page tries) s = .next u)
        ∧ ∃ e', w.m.page page = some e' ∧ e'.tier = tier ∧ e'.frame = frame ∧ e'.migrating = none)
    ∧ (∀ m, u.m.nextMove u.m.tiers.prefetch = some m → u.m.notBefore m.op ≤ u.m.now → u.m.dev.bellDone = false → u.m.dev.ideState ≠ 2 →
        ∃ w : State, exec (.squirrelMoveStart t { prefetch := true }) s = .next (w.copyMove m.croft m.index) ∧ w.mem = s.mem ∧ w.m.tiers.prefetch = u.m.tiers.prefetch.erase m)
    ∧ (∀ m, u.m.nextMove u.m.tiers.offload = some m → u.m.notBefore m.op ≤ u.m.now → u.m.dev.bellDone = false → u.m.dev.ideState ≠ 2 →
        ∃ w : State, exec (.squirrelMoveStart t { prefetch := false }) s = .next (w.copyMove m.croft m.index) ∧ w.mem = s.mem ∧ w.m.tiers.offload = u.m.tiers.offload.erase m)
    ∧ (∀ c i m, (u.m.croft c).moves.find? (fun m => m.index == i) = some m → m.pages = [] →
        (∀ x ∈ u.m.tiers.offload ++ u.m.tiers.prefetch, ¬(x.croft = c ∧ x.index = i)) →
        (u.waitsOnTier c m.op = false → u.m.dev.ideState ≠ 2 → exec (.moveTilesWritten t c i) s = .next (u.moveDone c i))
        ∧ (u.waitsOnTier c m.op = true → exec (.moveTilesWritten t c i) s = .next u))
    ∧ (∀ page tries, let last := (assocGet page u.m.tiers.tried).getD 0
        (u.m.jobRuns = true ∨ u.m.clk.own < last + 10000000000 → exec (.retiredPageRetry t page tries) s = .next u)
        ∧ (u.m.jobRuns = false → last + 10000000000 ≤ u.m.clk.own → exec (.retiredPageRetry t page tries) s = .next (u.on (fun b => b.tryRetired page tries)))
        ∧ (∀ e, u.m.page page = some e → e.tier = 2 → u.m.tiers.retired.contains e.frame = true → e.migrating = none →
            (u.m.tryRetired page 3).count .migrateSkipped = Nat.min (u.m.count .migrateSkipped + 1) (2 ^ 64 - 1)
              ∧ (tries < 3 → u.m.tryRetired page tries = (({ u.m with tiers := { u.m.tiers with tried := assocSet page u.m.clk.own u.m.tiers.tried } } : Block).bump .retries tries).startMigration page 2 true)))
    ∧ (∀ c r, u.m.tiers.reads.find? (fun r => r.croft == c && r.since + 50000 ≤ u.m.span) = some r →
        (r.attempts < 3 → Runs (.completionTimeout t c) s (fun v => v.mem = s.mem ∧ v.m.count .retries = Nat.min (u.m.count .retries + 1) (2 ^ 64 - 1)
          ∧ v.m.tiers.reads.length = u.m.tiers.reads.length))
        ∧ (3 ≤ r.attempts → c ≠ 192 → ∃ (w : State) (x : ErrorRec), (x.cls = .t ∨ x.cls = .j) ∧ (x.cls = .j ↔ x.writer = none) ∧ x.code = 0x28
            ∧ exec (.completionTimeout t c) s = .next (w.stopCroft c r.index x))
        ∧ (3 ≤ r.attempts → c = 192 → ∃ w : State, w.mem = s.mem ∧ exec (.completionTimeout t c) s = .next (w.migrateFailed r.index)))

/-- Cellar channels, the scrubber and the deadlines of operands. -/
def Obligations.CellarScrubAndDeadlines : Prop :=
  ∀ (s : State) (t : Nat),
    let u := s.on (fun b => b.advanceTo t)
    (∀ ch, ch < 80 → (∀ x ∈ u.m.tiers.calibrating, u.m.span < x.2 + 400 → channelDie x.1 ≠ channelDie ch) →
        Runs (.cellarCalibration t ch) s (fun v => v.mem = s.mem ∧ (ch, u.m.span) ∈ v.m.tiers.calibrating ∧ ch ∈ v.m.waitingChannels))
    ∧ (∀ ch, ch < 80 → (∀ x ∈ u.m.tiers.retraining, x.1 ≠ ch) →
        Runs (.cellarRetrain t ch) s (fun v => v.mem = s.mem ∧ v.m.tiers.retraining = u.m.tiers.retraining ++ [(ch, u.m.span)] ∧ ch ∈ v.m.waitingChannels))
    ∧ (∀ ch, (∃ x ∈ u.m.tiers.retraining, x.1 = ch) →
        ∃ w : State, exec (.cellarRetrainDone t ch) s = .next w.releaseWrites ∧ w.mem = s.mem ∧ (∀ x ∈ w.m.tiers.retraining, x.1 ≠ ch)
          ∧ w.m.tiers.calibrating = u.m.tiers.calibrating ∧ w.m.tiers.heldWrites = u.m.tiers.heldWrites)
    ∧ (∀ tier f off code pass, off < 65536 → Runs (.scrub t tier f .clean pass) s (fun v => v.mem = s.mem ∧ v.m = u.m.bump .scrubPasses (b2n pass))
        ∧ Runs (.scrub t 2 f (.uncorrectable off) pass) s (fun v => v.mem = s.mem ∧ f ∈ v.m.tiers.retired)
        ∧ exec (.scrub t tier f (.corrected off code) pass) s = .next ((u.on (fun b => b.bump .scrubPasses (b2n pass))).on (fun b =>
            if tier = 2 then b.correctedBurst (65536 * f + off) code else b.raiseC 0x35 none 4))
        ∧ (code ≠ 0 → 2 ≤ (u.m.tiers.corrected.filter (fun x => x.1 == f && decide (u.m.clk.own < x.2 + 86400000000000))).length →
            Runs (.scrub t 2 f (.corrected off code) pass) s (fun v => v.mem = s.mem ∧ f ∈ v.m.tiers.retired))
        ∧ (∃ e : ErrorRec, exec (.scrub t 0 f (.uncorrectable off) pass) s = .next ((u.on (fun b => b.bump .scrubPasses (b2n pass))).raiseErr e) ∧ e.code = 0x25 ∧ e.croft = some f
            ∧ e.croftSide = true ∧ (e.cls = .t ∨ e.cls = .d) ∧ (e.cls = .d ↔ e.writer = none))
        ∧ (tier ≠ 2 → tier ≠ 0 → ∃ (w : State) (e : ErrorRec), exec (.scrub t tier f (.uncorrectable off) pass) s = .next (w.raiseErr e) ∧ w.mem = s.mem ∧ e.code = 0x28
            ∧ (e.cls = .t ∨ e.cls = .j) ∧ (e.cls = .j ↔ e.writer = none)))
    ∧ (∀ g slice mb part level ok d h due, u.m.group g = some d → (u.hops g d slice part).find? (fun h => !h.up && h.level == level) = some h →
        u.m.millDeadline d g slice mb part level = some due → due ≤ u.m.now →
        (∀ o, u.m.mill.nodes.find? (fun o => o.is g slice mb part h.rank && o.step == u.m.job.step) = some o → o.taken = false →
          ∃ w : State, exec (.millDeadline t g slice mb part level ok) s = .next (w.takeOperand { o with sub := true } ok) ∧ w.mem = s.mem
            ∧ w.m.count .substitutions = Nat.min (u.m.count .substitutions + 1) (2 ^ 64 - 1))
        ∧ (u.m.mill.nodes.find? (fun o => o.is g slice mb part h.rank && o.step == u.m.job.step) = none →
          Runs (.millDeadline t g slice mb part level ok) s (fun v => v.mem = s.mem ∧
            ({ group := g, slice := slice, mb := mb, part := part, from_ := h.rank, since := due } : MillWait) ∈ v.m.mill.waits)))

/-- The limits of R464 and R478, on both sides, and what the handler does with an error that arrives alone (R461, R477). -/
def Obligations.Watchdogs : Prop :=
  ∀ (s : State) (t c : Nat) (un : CroftUnit),
    let u := s.on (fun b => b.advanceTo t)
    (∀ i counted, u.working c un = some i → (u.m.croft c).stopped = false →
        let beat := Nat.max ((assocGet un (u.m.croft c).beats).getD u.m.now) counted
        (beat + 20000 ≤ u.m.now → exec (.croftWatchdog t c un counted) s =
          .next ((u.on (fun b => b.bump .badgerFires)).stopCroft c i { cls := .t, code := 0x0A, at_ := 0, croftSide := true, cause := 12 }))
        ∧ (u.m.now < beat + 20000 → exec (.croftWatchdog t c un counted) s = .next u))
    ∧ (∀ x, (u.m.croft c).stalls.find? (fun x => x.unit == un && x.tier != 3) = some x →
        (x.since + 10000000 ≤ u.m.now → exec (.localStallLimit t c un) s =
          .next ((u.on (fun b => (b.bump .badgerFires).endStall c un)).raiseErr { cls := .d, code := 0x0A, at_ := 0, croft := some c, cause := 12 }))
        ∧ (u.m.now < x.since + 10000000 → exec (.localStallLimit t c un) s = .next u))
    ∧ (∀ p since, u.waitSince p = some since → u.m.jobRuns = true →
        (since + 5000000 ≤ u.m.now → u.m.maySuspect p since = true → ∃ w : State, exec (.remoteWatch t p) s = .next (w.raiseSuspect p 2 0x1F 0) ∧ w.mem = s.mem
          ∧ (∃ x ∈ w.m.faults.watches, x.producer = p ∧ x.since = since))
        ∧ (u.m.now < since + 5000000 ∨ u.m.maySuspect p since = false → exec (.remoteWatch t p) s = .next u)
        ∧ (since + 100000000 ≤ u.m.now → (∀ w ∈ u.m.faults.watches, ¬(w.producer = p ∧ w.since = since ∧ w.bound = true)) →
          ∃ w : State, exec (.remoteBound t p) s = .next (w.raiseErr { cls := .j, code := 0x0A, at_ := 0, cause := 12 }) ∧ w.mem = s.mem
            ∧ (∃ x ∈ w.m.faults.watches, x.producer = p ∧ x.since = since ∧ x.bound = true))
        ∧ (u.m.now < since + 100000000 → exec (.remoteBound t p) s = .next u))
    ∧ (∀ at_, (u.m.croft c).lastFault = some at_ → c < u.m.crofts.length →
        (at_ + 10000000000 ≤ u.m.span → Runs (.croftFaultWindow t c) s (fun v => v.mem = s.mem ∧ (v.m.croft c).faultStep = 0 ∧ (v.m.croft c).lastFault = none
          ∧ (v.m.croft c).faultEntry = none ∧ (v.m.croft c).domainEntry = none))
        ∧ (u.m.span < at_ + 10000000000 → exec (.croftFaultWindow t c) s = .next u))
    ∧ (∀ e : ErrorRec, u.drainLog.m.faults.arrived = [e] → u.drainLog.m.faults.queue = [] → u.drainLog.m.faults.reset = none → u.drainLog.m.faults.handling = none →
        e.cls = .d → e.croftSide = false →
        exec (.handlerTake t false) s = .next ((((u.drainLog.on (fun b => { b with faults := { b.faults with arrived := [] } })).on (fun b => (b.noteWriter e).detection e)).countError e).beginReset .compute e))

/-- Class C errors (R460): never queued for the handler, logged up to 256, drained by pair 2 into the counters and the lifetime log. -/
def Obligations.ClassCErrorsAreLogged : Prop :=
  ∀ (s : State) (t : Nat),
    (∀ e : ErrorRec, e.cls = .c →
      (s.raiseErr e).mem = s.mem ∧ (s.raiseErr e).m.faults.arrived = s.m.faults.arrived ∧ (s.raiseErr e).m.faults.queue = s.m.faults.queue
      ∧ (s.raiseErr e).m.faults.handling = s.m.faults.handling
      ∧ (s.m.faults.logFifo.length < 256 → (s.raiseErr e).m.counts = s.m.counts ∧
          ∃ x : ErrorRec, (s.raiseErr e).m.faults.logFifo = s.m.faults.logFifo ++ [x] ∧ x.cls = .c ∧ x.code = e.code)
      ∧ (256 ≤ s.m.faults.logFifo.length → (s.raiseErr e).m.faults.logFifo = s.m.faults.logFifo
          ∧ (s.raiseErr e).m.count .logLost = Nat.min (s.m.count .logLost + 1) (2 ^ 64 - 1)))
    ∧ s.drainLog.m.faults.logFifo = []
    ∧ (s.m.count .errorsC ≤ 2 ^ 64 - 1 → s.drainLog.m.count .errorsC = Nat.min (s.m.count .errorsC + s.m.faults.logFifo.length) (2 ^ 64 - 1))
    ∧ (s.m.count (.life 7 0) ≤ 2 ^ 64 - 1 → s.drainLog.m.count (.life 7 0) = Nat.min (s.m.count (.life 7 0) + s.m.faults.logFifo.length) (2 ^ 64 - 1))
    ∧ (∃ v : State, exec (.handlerTake t false) s =
        .next ((((s.on (fun b => b.advanceTo t)).drainLog.m.faults.arrived).foldl (fun s e => s.letIn e) v).takeQueued 17)
        ∧ (∃ last, exec (.handlerTake t true) s =
            .next (((((s.on (fun b => b.advanceTo t)).drainLog.m.faults.arrived).foldl (fun s e => s.letIn e) v).takeQueued 17).handlerFails last))
        ∧ v.mem = (s.on (fun b => b.advanceTo t)).drainLog.mem ∧ v.m.faults.logFifo = [] ∧ v.m.counts = (s.on (fun b => b.advanceTo t)).drainLog.m.counts
        ∧ v.m.faults.arrived = [] ∧ v.m.faults.queue = s.m.faults.queue)

/-- Every way in which counts enter a tally bank (R224, R255) stops at 2^64 - 1 (R225). -/
def Obligations.TallyCountersStop : Prop :=
  ∀ (t u : TallyBank) (c : Counts) (tag fmt : Nat) (k : TallyCtr), t.get tag fmt k ≤ 2 ^ 64 - 1 →
    let added (c : Counts) : Nat := ((c.filter (fun x => x.1 == (tag, fmt, k))).map (·.2)).sum
    (t.release c).get tag fmt k = Nat.min (t.get tag fmt k + added c) (2 ^ 64 - 1)
    ∧ (t.merge u).get tag fmt k = Nat.min (t.get tag fmt k + added u.counts) (2 ^ 64 - 1)
    ∧ t.get tag fmt k ≤ (t.release c).get tag fmt k ∧ (t.release c).get tag fmt k ≤ 2 ^ 64 - 1
    ∧ t.get tag fmt k ≤ (t.merge u).get tag fmt k ∧ (t.merge u).get tag fmt k ≤ 2 ^ 64 - 1

/-- The handler's resets (R467, R468, R476) and replays. -/
def Obligations.FaultHandling : Prop :=
  ∀ (s : State) (t : Nat),
    let u := s.on (fun b => b.advanceTo t)
    (∀ (d : Domain) (e : ErrorRec), (s.beginReset d e).m.faults.handling = some e ∧ (s.beginReset d e).pending = s.pending
        ∧ (∃ r, (s.beginReset d e).m.faults.reset = some r ∧ r.domain = d ∧ r.since = s.m.span)
        ∧ ∀ n ∈ d.crofts, n < s.m.crofts.length → ((s.beginReset d e).m.croft n).stopped = true)
    ∧ (s.m.faults.logFifo = [] → s.m.faults.untraced = [] → s.m.faults.arrived = [] → s.m.faults.queue = [] →
        (∀ failed, failed = false ∨ u.m.faults.reset = none → exec (.handlerTake t failed) s = .next u)
        ∧ (∀ r, u.m.faults.reset = some r → r.domain ≠ .module → exec (.handlerTake t true) s = .next (u.escalate r false)))
    ∧ (∀ r n, u.m.faults.reset = some r → r.domain.timeout = some n →
        (u.m.span < r.since + n → exec (.resetTimeout t) s = .next u)
        ∧ (r.since + n ≤ u.m.span → ∃ w : State, w.mem = s.mem ∧ w.m.count .resetTimeouts = Nat.min (u.m.count .resetTimeouts + 1) (2 ^ 64 - 1)
            ∧ w.m.count .handlerFaults = Nat.min (u.m.count .handlerFaults + 1) (2 ^ 64 - 1)
            ∧ exec (.resetTimeout t) s = .next ((w.countError { r.error with cls := r.domain.next.2, code := 0x0A, cause := 12 }).beginReset r.domain.next.1
                { r.error with cls := r.domain.next.2, code := 0x0A, cause := 12 })))
    ∧ (∀ r n failing, u.m.faults.reset = some r → r.domain = .croft n → n < u.m.crofts.length → (u.m.croft n).suspect = false → u.m.fab.crossing = [] → u.m.mill.inner = [] → u.m.faults.compare = [] → u.m.mill.scalarIssued ≠ none →
        Runs (.resetComplete t failing) s (fun v => v.m.faults.reset = none ∧ v.m.faults.handling = none ∧ (v.m.croft n).stopped = false))
    ∧ (∀ r n failing, u.m.faults.reset = some r → r.domain = .croft n →
        let w := (u.on (fun b => ({ b with faults := { b.faults with reset := none, handling := none } } : Block).setLinks r.domain 2)).cross
        exec (.resetComplete t failing) s = .next (((w.settleSuspect n (!failing.contains n)).on (fun b => (b.planReplay n true).onCroft n (fun c => { c with stopped := false }))).cross.abortSettle))
    ∧ (∀ c i a, u.m.nextRedo c (fun a => a.replay && !a.repeated && !a.cascade) = some (i, a) →
        ∀ acc, exec (.replay t { croft := c, acc := acc }) s = .next ((u.on (fun b => (b.takeRedo c (i, a)).bump .replayedEntries)).reissue c i a acc))

/-- What starts and restarts the module (R565), and what a reset leaves (R456, R484). -/
def Obligations.ModuleResets : Prop :=
  ∀ (s : State) (t : Nat) (x : BootSense),
    let u := s.on (fun b => b.advanceTo t)
    (u.m.mayBoot = true → u.m.resetOwed = true → exec (.moduleReset t x) s = .next (u.moduleReset x))
    ∧ ((u.m.mayBoot = false ∨ u.m.resetOwed = false) → exec (.moduleReset t x) s = .next u)
    ∧ (∀ d, u.m.dev.state = 0 → u.m.boot.resetDueAt = some d → d ≤ u.m.clk.own → u.m.mayBoot = true → exec (.recoveryReset t x) s = .next (u.moduleReset x))
    ∧ ((s.moduleReset x).mem.parcel = [] ∧ (s.moduleReset x).mem.stores = [] ∧ (s.moduleReset x).pending = s.pending
        ∧ (s.moduleReset x).m.dev.moduleResets = Nat.min (s.m.dev.moduleResets + 1) 65535 ∧ (s.moduleReset x).m.clk.own = s.m.clk.own
        ∧ (recordHolds s.m.boot.eepromRecord s.m.boot.identity x.stepping = false → (s.moduleReset x).m.dev.state = 0 ∧ (s.moduleReset x).m.dev.oosReason = 4)
        ∧ (recordHolds s.m.boot.eepromRecord s.m.boot.identity x.stepping = true → s.m.boot.committing = false →
            imageHolds s.m.boot.flashImage (recordBodyOf s.m.boot.eepromRecord) s.m.boot.romVersion x.stepping = true → x.railsOk = true →
            x.densityGib = fld (recordBodyOf s.m.boot.eepromRecord) 1296 1285 → (s.moduleReset x).m.dev.state = 1 ∧ (s.moduleReset x).m.power.main = .on))
    ∧ (s.m.power.standby = false → Runs (.standbyPowerUp t x) s (fun v => v.m.power.standby = true ∧ v.m.clk.own = 0 ∧ v.mem.parcel = s.mem.parcel
        ∧ v.m.count (.life 1 0) = Nat.min (s.m.count (.life 1 0) + 1) (2 ^ 64 - 1)))
    ∧ Runs (.standbyPowerLoss t) s (fun v => v.m.power.standby = false ∧ v.m.power.main = .off ∧ v.mem.parcel = [] ∧ v.mem.stores = [] ∧ v.mem.host = s.mem.host
        ∧ v.m.counts = u.m.newestCopy.counts ∧ v.m.boot.eepromRecord = s.m.boot.eepromRecord ∧ (s.m.boot.committing = false → v.m.boot.flashImage = s.m.boot.flashImage))
    ∧ ((u.m.life.before = none ∨ u.m.life.savedSpan + 200000000 ≤ u.m.span) → u.m.newestCopy = u.m.life.saved)
    ∧ (∀ r, u.m.dev.state = 1 → u.m.power.main = .on →
        (selfTestFails r = true → Runs (.startupSelfTest t r) s (fun v => v.m.dev.state = 6 ∧ v.m.dev.oosReason = 3))
        ∧ (selfTestFails r = false → u.m.boot.heldOut = false → oosReasonOf u.m.faults.record = 0 →
            Runs (.startupSelfTest t r) s (fun v => v.mem = s.mem ∧ v.m.dev.state = 2)))

/-- The events of the input and of PERST_N and PRSNT_N, and what a power-down leaves. -/
def Obligations.PowerDown : Prop :=
  ∀ (s : State) (t : Nat) (x : BootSense),
    let u := s.on (fun b => b.advanceTo t)
    (u.m.power.standby = true → u.m.power.warnedAt = none → Runs (.powerFailWarning t) s (fun v => v.m.safety.faultLine = true
        ∧ v.m.power.warnedAt = some u.m.span ∧ v.m.power.inputShed = true ∧ v.m.boot.committing = false ∧ v.m.life.saved.at_ = u.m.clk.own
        ∧ (u.m.powered = true → u.m.power.downAt = none → v.m.power.downAt = some (u.m.span + 50000))))
    ∧ (u.m.power.standby = true → exec (.inputOvervoltage t) s = .next (u.shedInput 0) ∧ exec (.inputOvercurrent t) s = .next (u.shedInput 0))
    ∧ ((u.shedInput 0).m.power.inputShed = true ∧ (u.m.powered = true → ∃ d, (u.shedInput 0).m.power.downAt = some d ∧ d ≤ u.m.span))
    ∧ Runs (.inputTransient t) s (fun v => v.mem = s.mem ∧ v.m.count (.life 3 28) = Nat.min (u.m.count (.life 3 28) + 1) (2 ^ 64 - 1))
    ∧ (u.m.power.prsntOk = true → Runs (.prsntNBreak t) s (fun v => v.m.power.prsntOk = false
        ∧ (u.m.powered = true → ∃ d, v.m.power.downAt = some d ∧ d ≤ u.m.span)))
    ∧ (∀ d, u.m.power.downAt = some d → u.m.powered = true →
        (d ≤ u.m.span → exec (.powerDownStart t) s = .next u.powerDown) ∧ (u.m.span < d → exec (.powerDownStart t) s = .next u))
    ∧ ((u.m.snap.image = none → u.powerDown.mem = { s.mem with parcel := [], stores := [] }) ∧ u.powerDown.mem.parcel = [] ∧ u.powerDown.mem.stores = [] ∧ u.powerDown.m.power.main = .falling ∧ u.powerDown.m.power.downAt = none
        ∧ u.powerDown.pending = s.pending ∧ ∀ c, c.standby = true → u.powerDown.m.count c = u.m.count c)
    ∧ (u.m.power.main = .falling → Runs (.powerDownComplete t) s (fun v => v.mem = s.mem ∧ v.m.power.main = .off))
    ∧ (u.m.power.standby = true → u.m.power.inputShed = true → Runs (.inputReturn t x) s (fun v => v.m.power.inputShed = false ∧ v.m.power.downAt = none
        ∧ (u.m.power.perstLow = false → u.m.power.prsntOk = true → v.m.dev.moduleResets = Nat.min (u.m.dev.moduleResets + 1) 65535)))
    ∧ (u.m.power.standby = true → u.m.power.perstLow = false → Runs (.perstNAssert t) s (fun v => v.m.power.perstLow = true
        ∧ (u.m.powered = true → v.m.power.main = .falling ∧ v.mem.parcel = [])))
    ∧ (u.m.power.perstLow = true →
        let w := u.on (fun b => { b with power := { b.power with perstLow := false } })
        (w.m.mayBoot = true → exec (.perstNRelease t x) s = .next (w.moduleReset x))
        ∧ (w.m.mayBoot = false → Runs (.perstNRelease t x) s (fun v => v.mem = s.mem ∧ v.m.power.perstLow = false ∧ v.m.boot.resetDueAt = some u.m.clk.own)))

/-- The power cap (R586) and the thermal limits (R587, R588). -/
def Obligations.ThrottlesAndCap : Prop :=
  ∀ (s : State) (t : Nat),
    let u := s.on (fun b => b.advanceTo t)
    let d := u.m.desc.power
    (flag d 1 = true → u.m.periodPast u.m.power.stepAt 100000 = true → Runs (.thermalThrottleStep t) s (fun v => v.mem = s.mem ∧ flag v.m.desc.power 1 = true
        ∧ (1500 < fld d 95 80 → fld v.m.desc.power 95 80 = Nat.max 1500 (fld d 95 80 - 100) ∧ fld v.m.desc.power 79 64 = fld d 79 64)
        ∧ (fld d 95 80 ≤ 1500 → fld v.m.desc.power 95 80 = fld d 95 80 ∧ fld v.m.desc.power 79 64 = Nat.max 0x40 (fld d 79 64 - 0x10))))
    ∧ (flag d 1 = false ∨ u.m.periodPast u.m.power.stepAt 100000 = false → exec (.thermalThrottleStep t) s = .next u)
    ∧ (∀ p100 p1ms vin, u.m.periodPast u.m.power.comparedAt 10000 = false → exec (.powerCapCheck t p100 p1ms vin) s = .next u)
    ∧ (∀ p100 p1ms vin, u.m.power.main = .on → u.m.periodPast u.m.power.comparedAt 10000 = true →
        Runs (.powerCapCheck t p100 p1ms vin) s (fun v => v.mem = s.mem ∧ fld v.m.desc.power 159 144 = p1ms % 65536 ∧ fld v.m.desc.power 111 96 = vin % 65536
          ∧ (97 * powerLimit d < 100 * p100 → flag v.m.desc.power 0 = true
            ∧ (1500 < fld d 95 80 → fld v.m.desc.power 95 80 = Nat.max 1500 (fld d 95 80 - 100))
            ∧ (fld d 95 80 ≤ 1500 → fld v.m.desc.power 79 64 = Nat.max 0x40 (fld d 79 64 - 0x10)))
          ∧ (100 * p100 ≤ 97 * powerLimit d → fld d 95 80 ≤ 3000 → fld d 79 64 ≤ 256 → fld d 95 80 ≤ fld v.m.desc.power 95 80 ∧ fld d 79 64 ≤ fld v.m.desc.power 79 64)))
    ∧ (∀ r : Thermals, u.m.power.main = .on → r.optics = [] → tooHot r = false →
        Runs (.thermalSensorRead t r) s (fun v => v.mem = s.mem ∧ fld v.m.desc.power 127 112 = unsigned 16 r.inlet
          ∧ fld v.m.desc.power 143 128 = unsigned 16 (hottest r.junctions)
          ∧ (1000 ≤ hottest r.junctions → flag v.m.desc.power 1 = true)
          ∧ (1200 ≤ r.stage → flag v.m.desc.power 2 = true) ∧ (r.stage ≤ 1170 → flag v.m.desc.power 2 = false)
          ∧ ((∃ p ∈ r.packages, 950 ≤ p) → flag v.m.desc.power 3 = true) ∧ ((∀ p ∈ r.packages, p ≤ 920) → flag v.m.desc.power 3 = false)))
    ∧ (∀ r : Thermals, u.m.power.main = .on → r.optics = [] → tooHot r = true → u.m.power.downAt = none →
        Runs (.thermalSensorRead t r) s (fun v => v.m.safety.faultLine = true ∧ v.m.power.downAt = some u.m.span ∧ v.m.boot.resetDueAt = some u.m.clk.own))

/-- The diagnostic mechanisms (R534 to R540), telemetry, the lifetime log and boundary scan. -/
def Obligations.SelfTestsMonitorsAndLog : Prop :=
  ∀ (s : State) (t : Nat),
    let u := s.on (fun b => b.advanceTo t)
    let raised (v : State) (k : Class_) (cause : Nat) : Prop := ∃ x : ErrorRec, v.m.faults.arrived = u.m.faults.arrived ++ [x] ∧ x.cls = k ∧ x.cause = cause
    (∀ slot (rel : Bool), u.m.power.main = .on → slot < 192 → slot < u.m.crofts.length → (u.m.croft slot).deferring = false → u.m.slotTime slot = true →
        ∀ diag, Runs (.selfTestSlot t slot true rel diag) s (fun v => v.mem = s.mem ∧ (v.m.croft slot).lastPass = u.m.span + 5000 ∧ (v.m.croft slot).slotOwed = false ∧ (v.m.croft slot).stopped = (u.m.croft slot).stopped)
        ∧ Runs (.selfTestSlot t slot false false diag) s (fun v => v.mem = s.mem ∧ (v.m.croft slot).stopped = true ∧ raised v .t 2)
        ∧ (u.m.spareFree (dieOf slot) = true →
            Runs (.selfTestSlot t slot false true diag) s (fun v => (v.m.croft slot).stopped = true ∧ (v.m.croft slot).suspect = true ∧ v.m.faults.arrived = u.m.faults.arrived))
        ∧ (u.m.spareFree (dieOf slot) = false →
            Runs (.selfTestSlot t slot false true diag) s (fun v => (v.m.croft slot).stopped = true ∧ (v.m.croft slot).suspect = false ∧ v.m.faults.arrived = u.m.faults.arrived
              ∧ (diag = false → u.m.jobRuns = true → v.m.faults.oosPending = 3) ∧ (diag = false → u.m.jobRuns = false → v.m.dev.state = 6 ∧ v.m.dev.oosReason = 3))))
    ∧ (∀ slot (ok rel diag : Bool), u.m.power.main = .on → slot < 192 →
        (u.m.slotTime slot = true → (u.m.croft slot).deferring = true → slot < u.m.crofts.length →
          Runs (.selfTestSlot t slot ok rel diag) s (fun v => v.mem = s.mem ∧ (v.m.croft slot).slotOwed = true ∧ v.m.faults = u.m.faults))
        ∧ (u.m.slotTime slot = false → exec (.selfTestSlot t slot ok rel diag) s = .next u)
        ∧ (u.m.slotTime (192 + slot % 16) = true → exec (.selfTestSlot t (192 + slot % 16) ok rel diag) s = .next (u.spareSlotTest (slot % 16) ok)))
    ∧ (exec (.bellLineTest t true) s = .next u
        ∧ Runs (.bellLineTest t false) s (fun v => v.mem = s.mem ∧ raised v .m 11 ∧ v.m.count .bellTestsFailed = Nat.min (u.m.count .bellTestsFailed + 1) (2 ^ 64 - 1)))
    ∧ (∀ pair, (pair ≠ 3 → Runs (.lockstepMismatch t pair) s (fun v => v.mem = s.mem ∧ raised v .m 3))
        ∧ (pair = 3 → Runs (.lockstepMismatch t pair) s (fun v => v.mem = s.mem ∧ v.m.boot.planeUp = false ∧ v.m.faults.arrived = u.m.faults.arrived)))
    ∧ (∀ src, (∀ x ∈ u.m.safety.excursions, x.1 ≠ src) → Runs (.monitorExcursion t src) s (fun v => v.mem = s.mem
        ∧ v.m.safety.excursions = u.m.safety.excursions ++ [(src, u.m.span)] ∧ ∀ d rail, src = .computeDie d rail → d < u.m.dies.length → (v.m.die d).hold = some u.m.span))
    ∧ (∀ src x, u.m.safety.excursions.find? (fun e => e.1 == src) = some x →
        (u.m.span < x.2 + 10000 → Runs (.monitorReturn t src) s (fun v => v.mem = s.mem ∧ (∀ e ∈ v.m.safety.excursions, e.1 ≠ src)
          ∧ (∀ d rail, src = .computeDie d rail → raised v .t (if rail then 10 else 9)) ∧ (∀ n, src = .other n → v.m.faults.arrived = u.m.faults.arrived)))
        ∧ (x.2 + 10000 ≤ u.m.span → exec (.monitorReturn t src) s = .next u)
        ∧ (x.2 + 10000 ≤ u.m.span → Runs (.monitorTrip t src) s (fun v => v.mem = s.mem ∧ (∀ e ∈ v.m.safety.excursions, e.1 ≠ src)
          ∧ (∀ d rail, src = .computeDie d rail → raised v .d (if rail then 10 else 9)) ∧ (∀ n, src = .other n → raised v .m (if n < 24 then 9 else 10))))
        ∧ (u.m.span < x.2 + 10000 → exec (.monitorTrip t src) s = .next u))
    ∧ (∀ w, u.m.power.main = .on → u.m.clk.own % 1000000 = 0 → fld u.m.desc.trace 383 352 = 0 → Runs (.telemetrySample t w) s (fun v => v.mem = s.mem
        ∧ v.m.count (.life 4 (powerBin w)) = Nat.min (u.m.count (.life 4 (powerBin w)) + 1) (2 ^ 64 - 1)))
    ∧ (∀ q, fld u.m.desc.trace 407 400 = q → u.m.safety.exportSeq ≠ q → Runs (.logExport t q) s (fun v => v.m.safety.exportSeq = q ∧ v.pending = s.pending))
    ∧ (u.m.power.standby = true → u.m.life.savedSpan + 600000000000 ≤ u.m.span → Runs (.logCommit t) s (fun v => v.mem = s.mem ∧ v.m.life.savedSpan = u.m.span
        ∧ v.m.life.saved.at_ = u.m.clk.own ∧ v.m.life.copyB = !u.m.life.copyB ∧ ∀ a b, assocGet (Counter.life a b) v.m.life.saved.counts = assocGet (Counter.life a b) u.m.counts))
    ∧ (∀ ir, exec (.tapInstruction t ir) s = .next (u.on (fun b => { b with power := { b.power with tapIr := some (if ir = 1 ∨ ir = 2 ∨ ir = 3 then ir else 0) } })))

/-- The bear's image from its page copies to its trailer (R512 to R520). -/
def Obligations.BearImages : Prop :=
  ∀ (s : State) (t : Nat),
    let u := s.on (fun b => b.advanceTo t)
    (∀ i p tries, u.m.snap.image = some i → u.nextCopy = some p →
        (tries < 3 → Runs (.bearBackgroundCopy t tries) s (fun v => v.mem = s.mem ∧ v.m.snap.image = some i ∧ (∃ e, v.m.page p = some e ∧ e.bear = .copying)
          ∧ v.m.count .retries = (if tries = 0 then u.m.count .retries else Nat.min (u.m.count .retries + tries) (2 ^ 64 - 1))))
        ∧ (3 ≤ tries → Runs (.bearBackgroundCopy t tries) s (fun v => v.mem = s.mem ∧ v.m.snap.image = none ∧ fld v.m.desc.snap 15 8 = 5
          ∧ v.m.count .ioFailed = Nat.min (u.m.count .ioFailed + 1) (2 ^ 64 - 1))))
    ∧ (∀ i page e, u.m.snap.image = some i → u.m.page page = some e → e.bear = .copying → u.preBarrierWaits page = false → u.m.copyOutFull = false →
        (∀ tries, 3 ≤ tries → exec (.pageCopied t page tries) s = .next (u.copyFails page))
        ∧ ∀ tries, tries < 3 → u.m.dev.ideState ≠ 2 → i.length + (u.pageRecord page).length + 64 ≤ fld u.m.desc.snap 175 144 * 65536 →
        ∃ (w : State) (j : Image), exec (.pageCopied t page tries) s = .next ((w.sealImage.releaseWrites).on (fun b => b.settleBcasts)) ∧ w.m.snap.image = some j
          ∧ j.records = i.records + 1 ∧ j.digest = i.digest + u.pageTerm page ∧ j.length = i.length + (u.pageRecord page).length
          ∧ ∃ e', w.m.page page = some e' ∧ e'.bear = .copied)
    ∧ (∀ page tries, u.m.copyOutFull = true → exec (.pageCopied t page tries) s = .next u ∧ exec (.bearBackgroundCopy t tries) s = .next u)
    ∧ (∀ i, u.m.snap.image = some i → i.sealed_ = true → i.trailed = false → u.m.imageAcked = true →
        (i.barrier + 2000000 ≤ u.m.now → u.m.dev.ideState ≠ 2 →
          ∃ (w : State) (j : Image), exec (.imageTrailer t) s = .next (w.on (·.completeImage)) ∧ w.m.snap.image = some j ∧ j.trailed = true ∧ j.snapId = i.snapId ∧ j.slot = i.slot
            ∧ (i.dest = 2 → w.m.imageAcked = true))
        ∧ (u.m.now < i.barrier + 2000000 → exec (.imageTrailer t) s = .next u))
    ∧ (∀ i, u.m.snap.image = some i →
        (i.trailed = true → u.m.imageAcked = true → let v := u.m.completeImage
          v.snap.image = none ∧ v.snap.done = true ∧ v.snap.lastSlot = some i.slot ∧ fld v.desc.snap 15 8 = 2 ∧ fld v.desc.snap 511 448 = i.snapId % 2 ^ 64 ∧ ∀ p ∈ v.tiers.pages, p.bear = .clear)
        ∧ ((i.trailed = false ∨ u.m.imageAcked = false) → u.m.completeImage = u.m))
    ∧ (∀ w, u.m.path.waits.find? (fun w => match w.wait with
        | .restore _ _ _ _ _ _ _ since => decide (since + 100000000 ≤ u.m.span)
        | _ => false) = some w → exec (.restoreTwinTimeout t) s = .next (u.recordedDigest w))

/-- The host's side of BAR0 (R454 to R456) and of its rings (R422, R423, R426). -/
def Obligations.RingsAndRegisters : Prop :=
  ∀ (s : State) (t : Nat),
    let u := s.on (fun b => b.advanceTo t)
    (∀ failed, (u.m.power.main = .on ∨ u.m.power.main = .island) → u.m.now / Nat.max u.m.dev.pollNs 1 ≠ u.m.dev.lastPoll / Nat.max u.m.dev.pollNs 1 →
        exec (.ringPoll t failed) s = .next (u.poll (if u.m.dev.ideState = 2 then [0, 1, 2, 3] else failed)))
    ∧ (∀ failed, u.m.now / Nat.max u.m.dev.pollNs 1 = u.m.dev.lastPoll / Nat.max u.m.dev.pollNs 1 → exec (.ringPoll t failed) s = .next u)
    ∧ (∀ ring tag c, (u.m.ring ring).cmds.find? (fun c => c.tag == tag && c.needsRead) = some c →
        (∀ tries, 3 ≤ tries ∨ u.m.dev.ideState = 2 → exec (.payloadReadDone t ring tag tries) s = .next (((u.on (fun b => b.bump .retries 2)).complete ring { tag := tag, opcode := c.opcode, status := 8, noIrq := c.noIrq, tDone := 0 }).on (fun b => b.pump)))
        ∧ (∀ tries, tries < 3 → u.m.dev.ideState ≠ 2 → Runs (.payloadReadDone t ring tag tries) s (fun v => v.mem = s.mem ∧ ∀ x ∈ (v.m.ring ring).cmds, x.tag = tag → x.needsRead = false)))
    ∧ ((u.m.power.main = .on ∨ u.m.power.main = .island) →
        (∀ v : W64, u.m.rings.length = 4 → Runs (.ringEnWrite t 0 v) s (fun w => w.mem = s.mem ∧ (w.m.ring 0).en = v.getLsbD 0
            ∧ (w.m.ring 0).irqEn = v.getLsbD 1 ∧ (w.m.ring 0).base = (u.m.ring 0).base ∧ w.m.dev = u.m.dev))
        ∧ (∀ v : W64, Runs (.pollCtrlWrite t v) s (fun w => w.mem = s.mem
            ∧ (250 ≤ v.toNat % 2 ^ 32 → v.toNat % 2 ^ 32 ≤ 50000 → w.m.dev.pollNs = v.toNat % 2 ^ 32)
            ∧ ((v.toNat % 2 ^ 32 < 250 ∨ 50000 < v.toNat % 2 ^ 32) → w.m = u.m.refuseMmio)))
        ∧ Runs (.mmioRefusedClear t) s (fun w => w.mem = s.mem ∧ w.m = { u.m with dev := { u.m.dev with mmioRefused := false } })
        ∧ (∀ off n v, off < 0xE000 → (n ≠ 8 ∨ off % 8 ≠ 0) → exec (.registerWrite t off n v) s = .next (u.on (fun b => b.refuseMmio)))
        ∧ (∀ off v, off < 0xE000 → off % 8 = 0 → off ≠ 0x40 → off ≠ 0x70 → off ≠ 0x78 → (off < 0x80 ∨ 0x100 ≤ off) → exec (.registerWrite t off 8 v) s = .next u)
        ∧ (∀ n sub v, n < 4 → sub < 3 → u.m.dev.state ≠ 0 → (u.m.ring n).state ≠ 0 →
            exec (.registerWrite t (0x80 + 0x20 * n + 8 * sub) 8 v) s = .next (u.on (fun b => b.refuseMmio)))
        ∧ (∀ n (v : W64), n < 4 → u.m.rings.length = 4 → u.m.dev.state ≠ 0 → (u.m.ring n).state = 0 →
            Runs (.registerWrite t (0x80 + 0x20 * n) 8 v) s (fun w => w.mem = s.mem ∧ w.m.dev = u.m.dev ∧ (∀ k, k ≠ n → w.m.ring k = u.m.ring k)
              ∧ w.m.ring n = { u.m.ring n with base := v.toNat / 2 ^ 18 * 2 ^ 18 })
            ∧ Runs (.registerWrite t (0x88 + 0x20 * n) 8 v) s (fun w => w.mem = s.mem ∧ w.m.dev = u.m.dev ∧ (∀ k, k ≠ n → w.m.ring k = u.m.ring k)
              ∧ w.m.ring n = { u.m.ring n with cmplBase := v.toNat / 2 ^ 17 * 2 ^ 17 })
            ∧ Runs (.registerWrite t (0x90 + 0x20 * n) 8 v) s (fun w => w.mem = s.mem ∧ w.m.dev = u.m.dev ∧ (∀ k, k ≠ n → w.m.ring k = u.m.ring k)
              ∧ w.m.ring n = { u.m.ring n with ctrlBase := v.toNat / 2 ^ 6 * 2 ^ 6 }))
        ∧ (∀ v : W64, u.m.dev.state ≠ 0 → (u.m.ring u.m.dev.eventRing).state = 0 → Runs (.registerWrite t 0x78 8 v) s (fun w => w.mem = s.mem
            ∧ w.m.dev.eventRing = v.toNat % 4 ∧ w.m.dev.eventEn = v.getLsbD 8 ∧ w.m.dev.eventIrq = v.getLsbD 9 ∧ w.m.dev.eventVector = v.toNat / 2 ^ 10 % 64))
        ∧ (∀ i (v : W64), i < 64 → u.m.dev.msixTable.length = 64 → Runs (.registerWrite t (0xE000 + 16 * i) 8 v) s (fun w => w.mem = s.mem
            ∧ (w.m.dev.msixTable[i]?).map (fun e => fld e 63 0) = some v.toNat)))
    ∧ (∀ off n v, u.m.power.main ≠ .on → u.m.power.main ≠ .island → exec (.registerWrite t off n v) s = .next u)

/-- The management plane's requests and what takes it down (R34, R551, R574). -/
def Obligations.ManagementRequests : Prop :=
  ∀ (s : State) (t : Nat) (b : Binding),
    let answers (i : Instr) (r : Option (List Byte)) : Prop := exec i s = .next (s.on (fun m => { m with boot := { m.boot with reply := r } }))
    (s.m.served b = true → s.m.dev.state ≠ 0 →
      (∀ n, answers (.getBlock b n) (s.m.counterBlock n)) ∧ (∀ n, 24 ≤ n → s.m.counterBlock n = none)
      ∧ answers (.logInfo b) (some (leBytes 8 s.m.lifeExport.length ++ leBytes 8 s.m.life.saved.at_))
      ∧ (∀ off n, n ≤ 1024 → let copy := if off = 0 then s.m.life.saved else s.m.life.reading.getD s.m.life.saved
          exec (.logRead b off n) s = .next (s.on (fun m => { m with boot := { m.boot with reply := some (((s.m.exportOf copy).drop off).take n) }, life := { m.life with reading := some copy } })))
      ∧ (∀ off n, 1024 < n → answers (.logRead b off n) none)
      ∧ answers (.pldmSensorRead b 25) (some (0 :: leBytes 4 s.m.dev.state)) ∧ answers (.pldmSensorRead b 26) (some (0 :: leBytes 4 s.m.safety.cause))
      ∧ answers (.getPldmTypes b) (some (0 :: bitmapBytes 8 [0, 2, 5])) ∧ answers (.getMessageTypeSupport b) (some [0, 2, 0x01, 0x7F]))
    ∧ (s.m.served b = true →
      (∀ e : Byte, e ≠ 0 → e ≠ 0xFF → Runs (.setEndpointId b e) s (fun v => v.mem = s.mem ∧ v.m.boot.reply = some [0, 0, e, 0] ∧ v.m.boot.eid b = e))
      ∧ answers (.getEndpointId b) (some [0, s.m.boot.eid b, Config.mctpByte 2 0, Config.mctpByte 2 1])
      ∧ (∃ r, answers (.getMctpVersionSupport b 0) (some (0 :: r))) ∧ (∃ r, answers (.getVendorMessageSupport b) (some (0 :: r))) ∧ (∃ r, answers (.getTid b) (some (0 :: r)))
      ∧ (∃ r, answers (.getPldmVersion b 0) (some (0 :: r)))
      ∧ (∀ typ, typ ∉ s.m.pldmTypes → answers (.getPldmVersion b typ) (some [0x83]) ∧ answers (.getPldmCommands b typ) (some [0x83]))
      ∧ (∀ typ ∈ s.m.pldmTypes, answers (.getPldmCommands b typ) (some (0 :: bitmapBytes 32 (pldmCommands typ)))))
    ∧ (s.m.served b = false → (∀ n, answers (.getBlock b n) none) ∧ answers (.logInfo b) none ∧ answers (.getTid b) none ∧ answers (.getEndpointId b) none
      ∧ (∀ e, answers (.setEndpointId b e) none) ∧ answers (.getStatus b) none ∧ answers (.requestUpdate b) none)
    ∧ (s.m.power.standby = true → ∃ v, exec (.managementLinkFailure t b) s = .next v ∧ v.mem = s.mem ∧ (∀ c, v.m.served c = false)
        ∧ Runs (.managementPlaneRecovery t) v (fun w => (∀ c, w.m.served c = w.m.addressed c) ∧ w.mem = s.mem))
    ∧ s.m.addressed .i3c = true ∧ (∀ e a, s.m.addressed (.sgmii e a) = true ↔ e = 0x88B5 ∧ a = s.m.macAddress)

/-- PLDM Type 5 from RequestUpdate to ActivateFirmware (R572), and its refusals (R569). -/
def Obligations.PldmUpdate : Prop :=
  ∀ (s : State) (b : Binding), s.m.served b = true →
    (s.m.updateState = true → s.m.path.applying = false → ∀ (c : Component) (n : Nat) (bs : List Byte) (ok : Bool),
        ∀ i ∈ [Instr.requestUpdate b, .passComponentTable b c, .updateComponent b c n, .requestFirmwareData b bs, .verifyComplete b, .applyComplete b ok, .activateFirmware b,
          .cancelUpdateComponent b, .cancelUpdate b],
        Runs i s (fun v => v.mem = s.mem ∧ v.m = { s.m with path := { s.m.path with mailbox := s.m.path.mailbox ++ [i], pair3 := (s.m.now, if s.m.path.pair3.1 = s.m.now then s.m.path.pair3.2 + 1 else 1) } }))
    ∧ (s.m.updateState = false → ∀ c, ∀ i ∈ [Instr.queryDeviceIdentifiers b, .getFirmwareParameters b, .requestUpdate b, .passComponentTable b c, .verifyComplete b,
        .activateFirmware b, .getStatus b, .cancelUpdateComponent b, .cancelUpdate b],
        Runs i s (fun v => v.mem = s.mem ∧ v.m = { s.m with boot := { s.m.boot with reply := some unableToUpdate } }))
    ∧ (s.m.updateState = true →
      (∃ r, Runs (.queryDeviceIdentifiers b) s (fun v => v.mem = s.mem ∧ v.m.boot.reply = some (0 :: r)))
      ∧ (∃ r, Runs (.getFirmwareParameters b) s (fun v => v.mem = s.mem ∧ v.m.boot.reply = some (0 :: r)))
      ∧ Runs (.getStatus b) s (fun v => v.mem = s.mem ∧ v.m.boot.reply = some [0, s.m.boot.pldm.code]))
    ∧ (s.m.updateState = true → s.m.path.applying = true →
      (s.m.boot.session = .closed → Runs (.requestUpdate b) s (fun v => v.mem = s.mem ∧ v.m.boot.session = .pldm ∧ v.m.boot.pldm = .learn ∧ v.m.boot.staged = []))
      ∧ (s.m.boot.session = .ring → Runs (.requestUpdate b) s (fun v => v.m.boot.session = .ring ∧ v.m.boot.staged = s.m.boot.staged ∧ v.m.boot.reply = some unableToUpdate))
      ∧ (s.m.boot.session = .pldm →
        (∀ c, s.m.boot.pldm = .learn → Runs (.passComponentTable b c) s (fun v => v.mem = s.mem ∧ v.m.boot.pldm = .ready ∧ v.m.boot.reply = some (componentVerdict c)))
        ∧ (∀ (c : Component) n, s.m.boot.pldm = .ready → c.classification = 0xFFFF → c.identifier = 1 → n ≤ 33554432 →
            Runs (.updateComponent b c n) s (fun v => v.mem = s.mem ∧ v.m.boot.pldm = .download ∧ v.m.boot.pldmOffset = 0 ∧ v.m.boot.pldmSize = n))
        ∧ (∀ (c : Component) n, s.m.boot.pldm = .ready → (c.classification ≠ 0xFFFF ∨ c.identifier ≠ 1) →
            exec (.updateComponent b c n) s = .next (s.on (fun m => m.answer (some [0, 1, 6]))))
        ∧ (∀ bs : List Byte, s.m.boot.pldm = .download → bs.length = 1024 → s.m.boot.staged.wf = true → Runs (.requestFirmwareData b bs) s (fun v => v.mem = s.mem
            ∧ v.m.boot.pldmOffset = s.m.boot.pldmOffset + 1024 ∧ (v.m.boot.pldm = .verify ↔ s.m.boot.pldmSize ≤ s.m.boot.pldmOffset + 1024)
            ∧ (∀ k, k < 1024 → v.m.boot.staged.read (s.m.boot.pldmOffset + k) = bs.getD k 0)
            ∧ ∀ x, (x < s.m.boot.pldmOffset ∨ s.m.boot.pldmOffset + 1024 ≤ x) → v.m.boot.staged.read x = s.m.boot.staged.read x))
        ∧ (s.m.boot.pldm = .verify → Runs (.verifyComplete b) s (fun v => v.mem = s.mem ∧ (s.m.stagedOk = true → v.m.boot.pldm = .apply ∧ v.m.boot.committing = true)
            ∧ (s.m.stagedOk = false → v.m.boot.pldm = .verify ∧ v.m.boot.reply = some [1])))
        ∧ (s.m.boot.pldm = .apply → s.m.boot.committing = true → Runs (.applyComplete b true) s (fun v => v.mem = s.mem ∧ v.m.boot.pldm = .activate ∧ v.m.boot.committing = false
            ∧ v.m.boot.flashImage = s.m.stagedBytes (imageLen (s.m.stagedBytes 64))))
        ∧ (s.m.boot.pldm = .apply → s.m.boot.committing = true → Runs (.applyComplete b false) s (fun v => v.mem = s.mem ∧ v.m.boot.pldm = .ready ∧ v.m.boot.flashImage = []))
        ∧ (s.m.boot.pldm = .apply → s.m.boot.committing = false → ∀ ok, Runs (.applyComplete b ok) s (fun v => v.mem = s.mem ∧ v.m.boot.pldm = .ready
            ∧ v.m.boot.flashImage = s.m.boot.flashImage))
        ∧ (s.m.boot.pldm = .activate → Runs (.activateFirmware b) s (fun v => v.mem = s.mem ∧ v.m.boot.session = .closed ∧ v.m.boot.staged = []
            ∧ (s.m.dev.state = 0 → v.m.boot.resetDueAt = some (s.m.clk.own + 10000000))))
        ∧ (s.m.boot.pldm = .download ∨ s.m.boot.pldm = .verify → Runs (.cancelUpdateComponent b) s (fun v => v.mem = s.mem ∧ v.m.boot.pldm = .ready ∧ v.m.boot.session = .pldm))
        ∧ (s.m.boot.pldm ≠ .idle → Runs (.cancelUpdate b) s (fun v => v.mem = s.mem ∧ v.m.boot.session = .closed ∧ v.m.boot.staged = [] ∧ v.m.boot.committing = false))))
end

