-- ==== Sys2Proof/Laws/State.lean ====
section
/-! SUPPORT. What each shared update of the state leaves: one lemma per field and update, so that no proof unfolds a record update. -/
namespace Sys2Proof.Machine

/-! The state -/

@[simp] theorem State.on_m (s : State) (f : Block → Block) : (s.on f).m = f s.m := rfl
@[simp] theorem State.on_pending (s : State) (f : Block → Block) : (s.on f).pending = s.pending := rfl
@[simp] theorem State.on_mem_parcel (s : State) (f : Block → Block) : (s.on f).mem.parcel = s.mem.parcel := rfl
@[simp] theorem State.on_mem_host (s : State) (f : Block → Block) : (s.on f).mem.host = s.mem.host := rfl
@[simp] theorem State.on_mem_stores (s : State) (f : Block → Block) : (s.on f).mem.stores = s.mem.stores := rfl

@[simp] theorem State.on_mem (s : State) (f : Block → Block) : (s.on f).mem = s.mem := rfl

@[simp] theorem State.writeHost_m (s : State) (a : Nat) (bs : List Byte) : (s.writeHost a bs).m = s.m := rfl
@[simp] theorem State.writeHost_pending (s : State) (a : Nat) (bs : List Byte) : (s.writeHost a bs).pending = s.pending := rfl
@[simp] theorem State.writeHost_mem_parcel (s : State) (a : Nat) (bs : List Byte) : (s.writeHost a bs).mem.parcel = s.mem.parcel := rfl
@[simp] theorem State.writeHost_mem_host (s : State) (a : Nat) (bs : List Byte) : (s.writeHost a bs).mem.host = (if s.m.dev.ideState == 2 then s.mem.host else s.mem.host.writeBytes a bs) := rfl
@[simp] theorem State.writeHost_mem_stores (s : State) (a : Nat) (bs : List Byte) : (s.writeHost a bs).mem.stores = s.mem.stores := rfl

@[simp] theorem State.writeParcel_m (s : State) (a : Nat) (bs : List Byte) : (s.writeParcel a bs).m = s.m := rfl
@[simp] theorem State.writeParcel_pending (s : State) (a : Nat) (bs : List Byte) : (s.writeParcel a bs).pending = s.pending := rfl
@[simp] theorem State.writeParcel_mem_parcel (s : State) (a : Nat) (bs : List Byte) : (s.writeParcel a bs).mem.parcel = s.mem.parcel.writeBytes a bs := rfl
@[simp] theorem State.writeParcel_mem_host (s : State) (a : Nat) (bs : List Byte) : (s.writeParcel a bs).mem.host = s.mem.host := rfl
@[simp] theorem State.writeParcel_mem_stores (s : State) (a : Nat) (bs : List Byte) : (s.writeParcel a bs).mem.stores = s.mem.stores := rfl

@[simp] theorem State.clearParcel_m (s : State) (a n : Nat) : (s.clearParcel a n).m = s.m := rfl
@[simp] theorem State.clearParcel_pending (s : State) (a n : Nat) : (s.clearParcel a n).pending = s.pending := rfl
@[simp] theorem State.clearParcel_mem_parcel (s : State) (a n : Nat) : (s.clearParcel a n).mem.parcel = s.mem.parcel.clear a n := rfl
@[simp] theorem State.clearParcel_mem_host (s : State) (a n : Nat) : (s.clearParcel a n).mem.host = s.mem.host := rfl
@[simp] theorem State.clearParcel_mem_stores (s : State) (a n : Nat) : (s.clearParcel a n).mem.stores = s.mem.stores := rfl

@[simp] theorem State.clearHost_m (s : State) (a n : Nat) : (s.clearHost a n).m = s.m := rfl
@[simp] theorem State.clearHost_pending (s : State) (a n : Nat) : (s.clearHost a n).pending = s.pending := rfl
@[simp] theorem State.clearHost_mem_parcel (s : State) (a n : Nat) : (s.clearHost a n).mem.parcel = s.mem.parcel := rfl
@[simp] theorem State.clearHost_mem_host (s : State) (a n : Nat) : (s.clearHost a n).mem.host = s.mem.host.clear a n := rfl
@[simp] theorem State.clearHost_mem_stores (s : State) (a n : Nat) : (s.clearHost a n).mem.stores = s.mem.stores := rfl

@[simp] theorem State.writeStore_m (s : State) (c a : Nat) (bs : List Byte) : (s.writeStore c a bs).m = s.m := rfl
@[simp] theorem State.writeStore_pending (s : State) (c a : Nat) (bs : List Byte) : (s.writeStore c a bs).pending = s.pending := rfl
@[simp] theorem State.writeStore_mem_parcel (s : State) (c a : Nat) (bs : List Byte) : (s.writeStore c a bs).mem.parcel = s.mem.parcel := rfl
@[simp] theorem State.writeStore_mem_host (s : State) (c a : Nat) (bs : List Byte) : (s.writeStore c a bs).mem.host = s.mem.host := rfl
@[simp] theorem State.writeStore_mem_stores (s : State) (c a : Nat) (bs : List Byte) : (s.writeStore c a bs).mem.stores = setStore c ((s.mem.store c).writeBytes a bs) s.mem.stores := rfl

@[simp] theorem State.loseStore_m (s : State) (c : Nat) : (s.loseStore c).m = s.m := rfl
@[simp] theorem State.loseStore_pending (s : State) (c : Nat) : (s.loseStore c).pending = s.pending := rfl
@[simp] theorem State.loseStore_mem_parcel (s : State) (c : Nat) : (s.loseStore c).mem.parcel = s.mem.parcel := rfl
@[simp] theorem State.loseStore_mem_host (s : State) (c : Nat) : (s.loseStore c).mem.host = s.mem.host := rfl
@[simp] theorem State.loseStore_mem_stores (s : State) (c : Nat) : (s.loseStore c).mem.stores = setStore c [] s.mem.stores := rfl

@[simp] theorem atTime_m (t : Nat) (f : Block → Block) (s : State) : (atTime t f s).m = f (s.m.advanceTo t) := rfl
@[simp] theorem atTime_mem (t : Nat) (f : Block → Block) (s : State) : (atTime t f s).mem = s.mem := rfl
@[simp] theorem atTime_pending (t : Nat) (f : Block → Block) (s : State) : (atTime t f s).pending = s.pending := rfl

/-! The block -/

@[simp] theorem Block.onCroft_clk (b : Block) (n : Nat) (f : Croft → Croft) : (b.onCroft n f).clk = b.clk := rfl
@[simp] theorem Block.onCroft_ports (b : Block) (n : Nat) (f : Croft → Croft) : (b.onCroft n f).ports = b.ports := rfl
@[simp] theorem Block.onCroft_dieLinks (b : Block) (n : Nat) (f : Croft → Croft) : (b.onCroft n f).dieLinks = b.dieLinks := rfl
@[simp] theorem Block.onCroft_fab (b : Block) (n : Nat) (f : Croft → Croft) : (b.onCroft n f).fab = b.fab := rfl
@[simp] theorem Block.onCroft_dev (b : Block) (n : Nat) (f : Croft → Croft) : (b.onCroft n f).dev = b.dev := rfl
@[simp] theorem Block.onCroft_rings (b : Block) (n : Nat) (f : Croft → Croft) : (b.onCroft n f).rings = b.rings := rfl
@[simp] theorem Block.onCroft_path (b : Block) (n : Nat) (f : Croft → Croft) : (b.onCroft n f).path = b.path := rfl
@[simp] theorem Block.onCroft_job (b : Block) (n : Nat) (f : Croft → Croft) : (b.onCroft n f).job = b.job := rfl
@[simp] theorem Block.onCroft_desc (b : Block) (n : Nat) (f : Croft → Croft) : (b.onCroft n f).desc = b.desc := rfl
@[simp] theorem Block.onCroft_crofts (b : Block) (n : Nat) (f : Croft → Croft) : (b.onCroft n f).crofts = modAt n f b.crofts := rfl
@[simp] theorem Block.onCroft_dies (b : Block) (n : Nat) (f : Croft → Croft) : (b.onCroft n f).dies = b.dies := rfl
@[simp] theorem Block.onCroft_tokens (b : Block) (n : Nat) (f : Croft → Croft) : (b.onCroft n f).tokens = b.tokens := rfl
@[simp] theorem Block.onCroft_counts (b : Block) (n : Nat) (f : Croft → Croft) : (b.onCroft n f).counts = b.counts := rfl
@[simp] theorem Block.onCroft_tally (b : Block) (n : Nat) (f : Croft → Croft) : (b.onCroft n f).tally = b.tally := rfl
@[simp] theorem Block.onCroft_tiers (b : Block) (n : Nat) (f : Croft → Croft) : (b.onCroft n f).tiers = b.tiers := rfl
@[simp] theorem Block.onCroft_mill (b : Block) (n : Nat) (f : Croft → Croft) : (b.onCroft n f).mill = b.mill := rfl
@[simp] theorem Block.onCroft_cache (b : Block) (n : Nat) (f : Croft → Croft) : (b.onCroft n f).cache = b.cache := rfl
@[simp] theorem Block.onCroft_faults (b : Block) (n : Nat) (f : Croft → Croft) : (b.onCroft n f).faults = b.faults := rfl
@[simp] theorem Block.onCroft_snap (b : Block) (n : Nat) (f : Croft → Croft) : (b.onCroft n f).snap = b.snap := rfl
@[simp] theorem Block.onCroft_safety (b : Block) (n : Nat) (f : Croft → Croft) : (b.onCroft n f).safety = b.safety := rfl
@[simp] theorem Block.onCroft_life (b : Block) (n : Nat) (f : Croft → Croft) : (b.onCroft n f).life = b.life := rfl
@[simp] theorem Block.onCroft_boot (b : Block) (n : Nat) (f : Croft → Croft) : (b.onCroft n f).boot = b.boot := rfl
@[simp] theorem Block.onCroft_power (b : Block) (n : Nat) (f : Croft → Croft) : (b.onCroft n f).power = b.power := rfl

@[simp] theorem Block.onPort_clk (b : Block) (n : Nat) (f : Port → Port) : (b.onPort n f).clk = b.clk := by unfold Block.onPort; split <;> rfl
@[simp] theorem Block.onPort_fab (b : Block) (n : Nat) (f : Port → Port) : (b.onPort n f).fab = b.fab := by unfold Block.onPort; split <;> rfl
@[simp] theorem Block.onPort_dev (b : Block) (n : Nat) (f : Port → Port) : (b.onPort n f).dev = b.dev := by unfold Block.onPort; split <;> rfl
@[simp] theorem Block.onPort_rings (b : Block) (n : Nat) (f : Port → Port) : (b.onPort n f).rings = b.rings := by unfold Block.onPort; split <;> rfl
@[simp] theorem Block.onPort_path (b : Block) (n : Nat) (f : Port → Port) : (b.onPort n f).path = b.path := by unfold Block.onPort; split <;> rfl
@[simp] theorem Block.onPort_job (b : Block) (n : Nat) (f : Port → Port) : (b.onPort n f).job = b.job := by unfold Block.onPort; split <;> rfl
@[simp] theorem Block.onPort_desc (b : Block) (n : Nat) (f : Port → Port) : (b.onPort n f).desc = b.desc := by unfold Block.onPort; split <;> rfl
@[simp] theorem Block.onPort_crofts (b : Block) (n : Nat) (f : Port → Port) : (b.onPort n f).crofts = b.crofts := by unfold Block.onPort; split <;> rfl
@[simp] theorem Block.onPort_dies (b : Block) (n : Nat) (f : Port → Port) : (b.onPort n f).dies = b.dies := by unfold Block.onPort; split <;> rfl
@[simp] theorem Block.onPort_tokens (b : Block) (n : Nat) (f : Port → Port) : (b.onPort n f).tokens = b.tokens := by unfold Block.onPort; split <;> rfl
@[simp] theorem Block.onPort_counts (b : Block) (n : Nat) (f : Port → Port) : (b.onPort n f).counts = b.counts := by unfold Block.onPort; split <;> rfl
@[simp] theorem Block.onPort_tally (b : Block) (n : Nat) (f : Port → Port) : (b.onPort n f).tally = b.tally := by unfold Block.onPort; split <;> rfl
@[simp] theorem Block.onPort_tiers (b : Block) (n : Nat) (f : Port → Port) : (b.onPort n f).tiers = b.tiers := by unfold Block.onPort; split <;> rfl
@[simp] theorem Block.onPort_mill (b : Block) (n : Nat) (f : Port → Port) : (b.onPort n f).mill = b.mill := by unfold Block.onPort; split <;> rfl
@[simp] theorem Block.onPort_cache (b : Block) (n : Nat) (f : Port → Port) : (b.onPort n f).cache = b.cache := by unfold Block.onPort; split <;> rfl
@[simp] theorem Block.onPort_faults (b : Block) (n : Nat) (f : Port → Port) : (b.onPort n f).faults = b.faults := by unfold Block.onPort; split <;> rfl
@[simp] theorem Block.onPort_snap (b : Block) (n : Nat) (f : Port → Port) : (b.onPort n f).snap = b.snap := by unfold Block.onPort; split <;> rfl
@[simp] theorem Block.onPort_safety (b : Block) (n : Nat) (f : Port → Port) : (b.onPort n f).safety = b.safety := by unfold Block.onPort; split <;> rfl
@[simp] theorem Block.onPort_life (b : Block) (n : Nat) (f : Port → Port) : (b.onPort n f).life = b.life := by unfold Block.onPort; split <;> rfl
@[simp] theorem Block.onPort_boot (b : Block) (n : Nat) (f : Port → Port) : (b.onPort n f).boot = b.boot := by unfold Block.onPort; split <;> rfl
@[simp] theorem Block.onPort_power (b : Block) (n : Nat) (f : Port → Port) : (b.onPort n f).power = b.power := by unfold Block.onPort; split <;> rfl
theorem Block.onPort_ports (b : Block) (n : Nat) (f : Port → Port) (h : n < 32) : (b.onPort n f).ports = modAt n f b.ports := by simp [Block.onPort, h]
theorem Block.onPort_dieLinks (b : Block) (n : Nat) (f : Port → Port) (h : 32 ≤ n) : (b.onPort n f).dieLinks = modAt (n - 32) f b.dieLinks := by
  simp [Block.onPort, Nat.not_lt.mpr h]

@[simp] theorem Block.onRing_clk (b : Block) (n : Nat) (f : Ring → Ring) : (b.onRing n f).clk = b.clk := rfl
@[simp] theorem Block.onRing_ports (b : Block) (n : Nat) (f : Ring → Ring) : (b.onRing n f).ports = b.ports := rfl
@[simp] theorem Block.onRing_dieLinks (b : Block) (n : Nat) (f : Ring → Ring) : (b.onRing n f).dieLinks = b.dieLinks := rfl
@[simp] theorem Block.onRing_fab (b : Block) (n : Nat) (f : Ring → Ring) : (b.onRing n f).fab = b.fab := rfl
@[simp] theorem Block.onRing_dev (b : Block) (n : Nat) (f : Ring → Ring) : (b.onRing n f).dev = b.dev := rfl
@[simp] theorem Block.onRing_rings (b : Block) (n : Nat) (f : Ring → Ring) : (b.onRing n f).rings = modAt n f b.rings := rfl
@[simp] theorem Block.onRing_path (b : Block) (n : Nat) (f : Ring → Ring) : (b.onRing n f).path = b.path := rfl
@[simp] theorem Block.onRing_job (b : Block) (n : Nat) (f : Ring → Ring) : (b.onRing n f).job = b.job := rfl
@[simp] theorem Block.onRing_desc (b : Block) (n : Nat) (f : Ring → Ring) : (b.onRing n f).desc = b.desc := rfl
@[simp] theorem Block.onRing_crofts (b : Block) (n : Nat) (f : Ring → Ring) : (b.onRing n f).crofts = b.crofts := rfl
@[simp] theorem Block.onRing_dies (b : Block) (n : Nat) (f : Ring → Ring) : (b.onRing n f).dies = b.dies := rfl
@[simp] theorem Block.onRing_tokens (b : Block) (n : Nat) (f : Ring → Ring) : (b.onRing n f).tokens = b.tokens := rfl
@[simp] theorem Block.onRing_counts (b : Block) (n : Nat) (f : Ring → Ring) : (b.onRing n f).counts = b.counts := rfl
@[simp] theorem Block.onRing_tally (b : Block) (n : Nat) (f : Ring → Ring) : (b.onRing n f).tally = b.tally := rfl
@[simp] theorem Block.onRing_tiers (b : Block) (n : Nat) (f : Ring → Ring) : (b.onRing n f).tiers = b.tiers := rfl
@[simp] theorem Block.onRing_mill (b : Block) (n : Nat) (f : Ring → Ring) : (b.onRing n f).mill = b.mill := rfl
@[simp] theorem Block.onRing_cache (b : Block) (n : Nat) (f : Ring → Ring) : (b.onRing n f).cache = b.cache := rfl
@[simp] theorem Block.onRing_faults (b : Block) (n : Nat) (f : Ring → Ring) : (b.onRing n f).faults = b.faults := rfl
@[simp] theorem Block.onRing_snap (b : Block) (n : Nat) (f : Ring → Ring) : (b.onRing n f).snap = b.snap := rfl
@[simp] theorem Block.onRing_safety (b : Block) (n : Nat) (f : Ring → Ring) : (b.onRing n f).safety = b.safety := rfl
@[simp] theorem Block.onRing_life (b : Block) (n : Nat) (f : Ring → Ring) : (b.onRing n f).life = b.life := rfl
@[simp] theorem Block.onRing_boot (b : Block) (n : Nat) (f : Ring → Ring) : (b.onRing n f).boot = b.boot := rfl
@[simp] theorem Block.onRing_power (b : Block) (n : Nat) (f : Ring → Ring) : (b.onRing n f).power = b.power := rfl

@[simp] theorem Block.onDie_clk (b : Block) (n : Nat) (f : Die → Die) : (b.onDie n f).clk = b.clk := rfl
@[simp] theorem Block.onDie_ports (b : Block) (n : Nat) (f : Die → Die) : (b.onDie n f).ports = b.ports := rfl
@[simp] theorem Block.onDie_dieLinks (b : Block) (n : Nat) (f : Die → Die) : (b.onDie n f).dieLinks = b.dieLinks := rfl
@[simp] theorem Block.onDie_fab (b : Block) (n : Nat) (f : Die → Die) : (b.onDie n f).fab = b.fab := rfl
@[simp] theorem Block.onDie_dev (b : Block) (n : Nat) (f : Die → Die) : (b.onDie n f).dev = b.dev := rfl
@[simp] theorem Block.onDie_rings (b : Block) (n : Nat) (f : Die → Die) : (b.onDie n f).rings = b.rings := rfl
@[simp] theorem Block.onDie_path (b : Block) (n : Nat) (f : Die → Die) : (b.onDie n f).path = b.path := rfl
@[simp] theorem Block.onDie_job (b : Block) (n : Nat) (f : Die → Die) : (b.onDie n f).job = b.job := rfl
@[simp] theorem Block.onDie_desc (b : Block) (n : Nat) (f : Die → Die) : (b.onDie n f).desc = b.desc := rfl
@[simp] theorem Block.onDie_crofts (b : Block) (n : Nat) (f : Die → Die) : (b.onDie n f).crofts = b.crofts := rfl
@[simp] theorem Block.onDie_dies (b : Block) (n : Nat) (f : Die → Die) : (b.onDie n f).dies = modAt n f b.dies := rfl
@[simp] theorem Block.onDie_tokens (b : Block) (n : Nat) (f : Die → Die) : (b.onDie n f).tokens = b.tokens := rfl
@[simp] theorem Block.onDie_counts (b : Block) (n : Nat) (f : Die → Die) : (b.onDie n f).counts = b.counts := rfl
@[simp] theorem Block.onDie_tally (b : Block) (n : Nat) (f : Die → Die) : (b.onDie n f).tally = b.tally := rfl
@[simp] theorem Block.onDie_tiers (b : Block) (n : Nat) (f : Die → Die) : (b.onDie n f).tiers = b.tiers := rfl
@[simp] theorem Block.onDie_mill (b : Block) (n : Nat) (f : Die → Die) : (b.onDie n f).mill = b.mill := rfl
@[simp] theorem Block.onDie_cache (b : Block) (n : Nat) (f : Die → Die) : (b.onDie n f).cache = b.cache := rfl
@[simp] theorem Block.onDie_faults (b : Block) (n : Nat) (f : Die → Die) : (b.onDie n f).faults = b.faults := rfl
@[simp] theorem Block.onDie_snap (b : Block) (n : Nat) (f : Die → Die) : (b.onDie n f).snap = b.snap := rfl
@[simp] theorem Block.onDie_safety (b : Block) (n : Nat) (f : Die → Die) : (b.onDie n f).safety = b.safety := rfl
@[simp] theorem Block.onDie_life (b : Block) (n : Nat) (f : Die → Die) : (b.onDie n f).life = b.life := rfl
@[simp] theorem Block.onDie_boot (b : Block) (n : Nat) (f : Die → Die) : (b.onDie n f).boot = b.boot := rfl
@[simp] theorem Block.onDie_power (b : Block) (n : Nat) (f : Die → Die) : (b.onDie n f).power = b.power := rfl

@[simp] theorem Block.advanceTo_ports (b : Block) (t : Nat) : (b.advanceTo t).ports = b.ports := rfl
@[simp] theorem Block.advanceTo_dieLinks (b : Block) (t : Nat) : (b.advanceTo t).dieLinks = b.dieLinks := rfl
@[simp] theorem Block.advanceTo_fab (b : Block) (t : Nat) : (b.advanceTo t).fab = b.fab := rfl
@[simp] theorem Block.advanceTo_dev (b : Block) (t : Nat) : (b.advanceTo t).dev = b.dev := rfl
@[simp] theorem Block.advanceTo_rings (b : Block) (t : Nat) : (b.advanceTo t).rings = b.rings := rfl
@[simp] theorem Block.advanceTo_path (b : Block) (t : Nat) : (b.advanceTo t).path = b.path := rfl
@[simp] theorem Block.advanceTo_job (b : Block) (t : Nat) : (b.advanceTo t).job = b.job := rfl
@[simp] theorem Block.advanceTo_desc (b : Block) (t : Nat) : (b.advanceTo t).desc = b.desc := rfl
@[simp] theorem Block.advanceTo_crofts (b : Block) (t : Nat) : (b.advanceTo t).crofts = b.crofts := rfl
@[simp] theorem Block.advanceTo_dies (b : Block) (t : Nat) : (b.advanceTo t).dies = b.dies := rfl
@[simp] theorem Block.advanceTo_tokens (b : Block) (t : Nat) : (b.advanceTo t).tokens = b.tokens := rfl
@[simp] theorem Block.advanceTo_counts (b : Block) (t : Nat) : (b.advanceTo t).counts = b.counts := rfl
@[simp] theorem Block.advanceTo_tally (b : Block) (t : Nat) : (b.advanceTo t).tally = b.tally := rfl
@[simp] theorem Block.advanceTo_tiers (b : Block) (t : Nat) : (b.advanceTo t).tiers = b.tiers := rfl
@[simp] theorem Block.advanceTo_mill (b : Block) (t : Nat) : (b.advanceTo t).mill = b.mill := rfl
@[simp] theorem Block.advanceTo_cache (b : Block) (t : Nat) : (b.advanceTo t).cache = b.cache := rfl
@[simp] theorem Block.advanceTo_faults (b : Block) (t : Nat) : (b.advanceTo t).faults = b.faults := rfl
@[simp] theorem Block.advanceTo_snap (b : Block) (t : Nat) : (b.advanceTo t).snap = b.snap := rfl
@[simp] theorem Block.advanceTo_safety (b : Block) (t : Nat) : (b.advanceTo t).safety = b.safety := rfl
@[simp] theorem Block.advanceTo_life (b : Block) (t : Nat) : (b.advanceTo t).life = b.life := rfl
@[simp] theorem Block.advanceTo_boot (b : Block) (t : Nat) : (b.advanceTo t).boot = b.boot := rfl
@[simp] theorem Block.advanceTo_power (b : Block) (t : Nat) : (b.advanceTo t).power = b.power := rfl

@[simp] theorem Block.advanceTo_clk_own (b : Block) (t : Nat) : (b.advanceTo t).clk.own = max b.clk.own t := rfl
@[simp] theorem Block.advanceTo_clk_fab (b : Block) (t : Nat) : (b.advanceTo t).clk.fab = (b.clk.run (t - b.clk.own)).fab := rfl
@[simp] theorem Block.advanceTo_clk_span (b : Block) (t : Nat) : (b.advanceTo t).clk.span =
    b.clk.span + (if b.timeValid then (b.clk.run (t - b.clk.own)).fab - b.clk.fab else 16 * (t - b.clk.own)) := rfl

/-- Fabric time does not go back. -/
theorem Clk.fab_le_run (c : Clk) (n : Nat) : c.fab ≤ (c.run n).fab := Nat.le_add_right _ _

@[simp] theorem Clk.run_role (c : Clk) (n : Nat) : (c.run n).role = c.role := rfl
@[simp] theorem Clk.run_locked (c : Clk) (n : Nat) : (c.run n).locked = c.locked := rfl
@[simp] theorem Clk.run_rate (c : Clk) (n : Nat) : (c.run n).rate = c.rate := rfl

/-- On a member whose reference is true fabric time runs with the own clock. -/
theorem Clk.run_member (c : Clk) (n : Nat) (k : c.refRate = 0) (f : c.frac < 1000000000) (h1 : c.role ≠ 1) (h3 : c.role ≠ 3) : (c.run n).fab = c.fab + 16 * n := by
  have r : c.rate = 16000000000 := by simp [Clk.rate, h1, h3, k]
  simp only [Clk.run, r]; omega

/-- Two runs are one. -/
theorem Clk.run_run (c : Clk) (m n : Nat) : (c.run m).run n = c.run (m + n) := by
  have r : (c.run m).rate = c.rate := rfl
  unfold Clk.run at r ⊢
  simp only [r, Nat.mul_add]
  generalize c.rate = k
  congr 1 <;> omega

/-- The count that durations are measured by does not go back. -/
theorem Block.span_le_advanceTo (b : Block) (t : Nat) : b.span ≤ (b.advanceTo t).span := Nat.div_le_div_right (by rw [Block.advanceTo_clk_span]; exact Nat.le_add_right _ _)

@[simp] theorem Block.bump_clk (b : Block) (c : Counter) (k : Nat) : (b.bump c k).clk = b.clk := by unfold Block.bump; split <;> rfl
@[simp] theorem Block.bump_ports (b : Block) (c : Counter) (k : Nat) : (b.bump c k).ports = b.ports := by unfold Block.bump; split <;> rfl
@[simp] theorem Block.bump_dieLinks (b : Block) (c : Counter) (k : Nat) : (b.bump c k).dieLinks = b.dieLinks := by unfold Block.bump; split <;> rfl
@[simp] theorem Block.bump_fab (b : Block) (c : Counter) (k : Nat) : (b.bump c k).fab = b.fab := by unfold Block.bump; split <;> rfl
@[simp] theorem Block.bump_dev (b : Block) (c : Counter) (k : Nat) : (b.bump c k).dev = b.dev := by unfold Block.bump; split <;> rfl
@[simp] theorem Block.bump_rings (b : Block) (c : Counter) (k : Nat) : (b.bump c k).rings = b.rings := by unfold Block.bump; split <;> rfl
@[simp] theorem Block.bump_path (b : Block) (c : Counter) (k : Nat) : (b.bump c k).path = b.path := by unfold Block.bump; split <;> rfl
@[simp] theorem Block.bump_job (b : Block) (c : Counter) (k : Nat) : (b.bump c k).job = b.job := by unfold Block.bump; split <;> rfl
@[simp] theorem Block.bump_desc (b : Block) (c : Counter) (k : Nat) : (b.bump c k).desc = b.desc := by unfold Block.bump; split <;> rfl
@[simp] theorem Block.bump_crofts (b : Block) (c : Counter) (k : Nat) : (b.bump c k).crofts = b.crofts := by unfold Block.bump; split <;> rfl
@[simp] theorem Block.bump_dies (b : Block) (c : Counter) (k : Nat) : (b.bump c k).dies = b.dies := by unfold Block.bump; split <;> rfl
@[simp] theorem Block.bump_tokens (b : Block) (c : Counter) (k : Nat) : (b.bump c k).tokens = b.tokens := by unfold Block.bump; split <;> rfl
@[simp] theorem Block.bump_tally (b : Block) (c : Counter) (k : Nat) : (b.bump c k).tally = b.tally := by unfold Block.bump; split <;> rfl
@[simp] theorem Block.bump_tiers (b : Block) (c : Counter) (k : Nat) : (b.bump c k).tiers = b.tiers := by unfold Block.bump; split <;> rfl
@[simp] theorem Block.bump_mill (b : Block) (c : Counter) (k : Nat) : (b.bump c k).mill = b.mill := by unfold Block.bump; split <;> rfl
@[simp] theorem Block.bump_cache (b : Block) (c : Counter) (k : Nat) : (b.bump c k).cache = b.cache := by unfold Block.bump; split <;> rfl
@[simp] theorem Block.bump_faults (b : Block) (c : Counter) (k : Nat) : (b.bump c k).faults = b.faults := by unfold Block.bump; split <;> rfl
@[simp] theorem Block.bump_snap (b : Block) (c : Counter) (k : Nat) : (b.bump c k).snap = b.snap := by unfold Block.bump; split <;> rfl
@[simp] theorem Block.bump_safety (b : Block) (c : Counter) (k : Nat) : (b.bump c k).safety = b.safety := by unfold Block.bump; split <;> rfl
@[simp] theorem Block.bump_life (b : Block) (c : Counter) (k : Nat) : (b.bump c k).life = b.life := by unfold Block.bump; split <;> rfl
@[simp] theorem Block.bump_boot (b : Block) (c : Counter) (k : Nat) : (b.bump c k).boot = b.boot := by unfold Block.bump; split <;> rfl
@[simp] theorem Block.bump_power (b : Block) (c : Counter) (k : Nat) : (b.bump c k).power = b.power := by unfold Block.bump; split <;> rfl

end Sys2Proof.Machine
end

