-- ==== Sys2Proof/Laws/Memory.lean ====
section
/-! SUPPORT. The memories: every operation keeps the canonical form; a read after a write gives what was written, and other addresses are as before. -/
namespace Sys2Proof.Machine

theorem Mem.wfFrom_mono {lo lo' : Nat} (h : lo' ≤ lo) (m : Mem) (hw : Mem.wfFrom lo m = true) : Mem.wfFrom lo' m = true := by
  cases m with
  | nil => rfl
  | cons c rest =>
    simp only [Mem.wfFrom, Bool.and_eq_true, decide_eq_true_eq] at hw ⊢
    exact ⟨⟨Nat.le_trans h hw.1.1, hw.1.2⟩, hw.2⟩

theorem Mem.write_wfFrom (a : Nat) (v : Byte) (m : Mem) (lo : Nat) (hl : lo ≤ a) (hw : Mem.wfFrom lo m = true) :
    Mem.wfFrom lo (Mem.write m a v) = true := by
  induction m generalizing lo with
  | nil =>
    unfold Mem.write
    split
    · rfl
    · simp_all [Mem.wfFrom]
  | cons c rest ih =>
    obtain ⟨k, w⟩ := c
    simp only [Mem.wfFrom, Bool.and_eq_true, decide_eq_true_eq] at hw
    unfold Mem.write
    split
    · rename_i hk
      split
      · simp_all [Mem.wfFrom]
      · simp only [Mem.wfFrom, Bool.and_eq_true, decide_eq_true_eq]
        refine ⟨⟨hl, by simp_all⟩, ⟨⟨by omega, hw.1.2⟩, hw.2⟩⟩
    · split
      · rename_i hk
        split
        · exact Mem.wfFrom_mono (by omega) rest hw.2
        · simp only [Mem.wfFrom, Bool.and_eq_true, decide_eq_true_eq]
          exact ⟨⟨hl, by simp_all⟩, by subst hk; exact hw.2⟩
      · simp only [Mem.wfFrom, Bool.and_eq_true, decide_eq_true_eq]
        exact ⟨hw.1, ih (k + 1) (by omega) hw.2⟩

/-- A byte written keeps the canonical form. -/
theorem Mem.write_wf (m : Mem) (a : Nat) (v : Byte) (hw : m.wf = true) : (m.write a v).wf = true :=
  Mem.write_wfFrom a v m 0 (Nat.zero_le _) hw

/-- Bytes written keep the canonical form. -/
theorem Mem.writeBytes_wf (bs : List Byte) (m : Mem) (a : Nat) (hw : m.wf = true) : (m.writeBytes a bs).wf = true := by
  induction bs generalizing m a with
  | nil => exact hw
  | cons b bs ih => exact ih _ _ (Mem.write_wf m a b hw)

theorem Mem.filter_wfFrom (p : Host.Cell → Bool) (m : Mem) (lo : Nat) (hw : Mem.wfFrom lo m = true) : Mem.wfFrom lo (m.filter p) = true := by
  induction m generalizing lo with
  | nil => rfl
  | cons c rest ih =>
    obtain ⟨k, w⟩ := c
    simp only [Mem.wfFrom, Bool.and_eq_true, decide_eq_true_eq] at hw
    rw [List.filter_cons]
    split
    · simp only [Mem.wfFrom, Bool.and_eq_true, decide_eq_true_eq]
      exact ⟨hw.1, ih _ hw.2⟩
    · exact Mem.wfFrom_mono (by omega) _ (ih _ hw.2)

/-- A range cleared keeps the canonical form. -/
theorem Mem.clear_wf (m : Mem) (a n : Nat) (hw : m.wf = true) : (m.clear a n).wf = true := Mem.filter_wfFrom _ m 0 hw

theorem storesFrom_mono {lo lo' : Nat} (h : lo' ≤ lo) (l : List (Nat × Mem)) (hw : storesFrom lo l = true) : storesFrom lo' l = true := by
  cases l with
  | nil => rfl
  | cons c rest =>
    simp only [storesFrom, Bool.and_eq_true, decide_eq_true_eq] at hw ⊢
    exact ⟨⟨⟨Nat.le_trans h hw.1.1.1, hw.1.1.2⟩, hw.1.2⟩, hw.2⟩

theorem setStore_storesFrom (c : Nat) (v : Mem) (l : List (Nat × Mem)) (lo : Nat) (hl : lo ≤ c) (hv : v.wf = true) (hw : storesFrom lo l = true) :
    storesFrom lo (setStore c v l) = true := by
  induction l generalizing lo with
  | nil =>
    unfold setStore
    split
    · rfl
    · simp_all [storesFrom]
  | cons x rest ih =>
    obtain ⟨k, w⟩ := x
    have hw' := hw
    simp only [storesFrom, Bool.and_eq_true, decide_eq_true_eq] at hw
    unfold setStore
    split
    · split
      · exact hw'
      · simp only [storesFrom, Bool.and_eq_true, decide_eq_true_eq]
        exact ⟨⟨⟨hl, by simp_all⟩, hv⟩, ⟨⟨⟨by omega, hw.1.1.2⟩, hw.1.2⟩, hw.2⟩⟩
    · split
      · rename_i hk
        split
        · exact storesFrom_mono (by omega) rest hw.2
        · simp only [storesFrom, Bool.and_eq_true, decide_eq_true_eq]
          exact ⟨⟨⟨hl, by simp_all⟩, hv⟩, by subst hk; exact hw.2⟩
      · simp only [storesFrom, Bool.and_eq_true, decide_eq_true_eq]
        exact ⟨hw.1, ih _ (by omega) hw.2⟩

theorem store_wf_of (c : Nat) (l : List (Nat × Mem)) (lo : Nat) (hw : storesFrom lo l = true) : Mem.wf ((assocGet c l).getD []) = true := by
  induction l generalizing lo with
  | nil => rfl
  | cons x rest ih =>
    obtain ⟨k, w⟩ := x
    simp only [storesFrom, Bool.and_eq_true, decide_eq_true_eq] at hw
    unfold assocGet
    rw [List.find?_cons]
    split
    · exact hw.1.2
    · exact ih _ hw.2

/-- A croft store of a sound memory is in canonical form. -/
theorem Memory.store_wf (m : Memory) (c : Nat) (hw : m.wf = true) : (m.store c).wf = true := by
  simp only [Memory.wf, Bool.and_eq_true] at hw
  exact store_wf_of c m.stores 0 hw.2

theorem Mem.read_cons (k : Nat) (v : Byte) (m : Mem) (x : Nat) : Mem.read ((k, v) :: m) x = if k = x then v else m.read x := rfl

theorem Mem.read_below (m : Mem) (n x : Nat) (hw : Mem.wfFrom n m = true) (hx : x < n) : m.read x = 0 := by
  induction m generalizing n with
  | nil => rfl
  | cons c rest ih =>
    obtain ⟨k, w⟩ := c
    simp only [Mem.wfFrom, Bool.and_eq_true, decide_eq_true_eq] at hw
    rw [Mem.read_cons, if_neg (by omega)]
    exact ih (k + 1) hw.2 (by omega)

/-- What reads see of one byte written. -/
theorem Mem.read_write (m : Mem) (a : Nat) (v : Byte) (x lo : Nat) (hw : Mem.wfFrom lo m = true) :
    (Mem.write m a v).read x = if x = a then v else m.read x := by
  induction m generalizing lo with
  | nil =>
    unfold Mem.write
    by_cases hv : v = 0
    · rw [if_pos hv, hv]; split <;> rfl
    · rw [if_neg hv, Mem.read_cons]
      by_cases hx : x = a
      · rw [if_pos hx.symm, if_pos hx]
      · rw [if_neg (Ne.symm hx), if_neg hx]
  | cons c rest ih =>
    obtain ⟨k, w⟩ := c
    have hw' := hw
    simp only [Mem.wfFrom, Bool.and_eq_true, decide_eq_true_eq] at hw
    unfold Mem.write
    by_cases h1 : a < k
    · rw [if_pos h1]
      by_cases h2 : v = 0
      · rw [if_pos h2]
        by_cases hx : x = a
        · have h0 : Mem.wfFrom k ((k, w) :: rest) = true := by
            simp only [Mem.wfFrom, Bool.and_eq_true, decide_eq_true_eq]; exact ⟨⟨Nat.le_refl _, hw.1.2⟩, hw.2⟩
          rw [if_pos hx, h2]; exact Mem.read_below _ k x h0 (by omega)
        · rw [if_neg hx]
      · rw [if_neg h2, Mem.read_cons]
        by_cases hx : x = a
        · rw [if_pos hx.symm, if_pos hx]
        · rw [if_neg (Ne.symm hx), if_neg hx]
    · rw [if_neg h1]
      by_cases h2 : a = k
      · rw [if_pos h2]
        by_cases h3 : v = 0
        · rw [if_pos h3]
          by_cases hx : x = a
          · rw [if_pos hx, h3]; exact Mem.read_below rest (k + 1) x hw.2 (by omega)
          · rw [if_neg hx, Mem.read_cons, if_neg (by omega)]
        · rw [if_neg h3, Mem.read_cons]
          by_cases hx : x = a
          · rw [if_pos hx.symm, if_pos hx]
          · rw [if_neg (Ne.symm hx), if_neg hx, Mem.read_cons, if_neg (by omega)]
      · rw [if_neg h2, Mem.read_cons, Mem.read_cons]
        by_cases hk : k = x
        · rw [if_pos hk, if_neg (by omega), if_pos hk]
        · rw [if_neg hk, if_neg hk]; exact ih (k + 1) hw.2

/-- A read after bytes written: what was written within the range, what was there before outside it. -/
theorem Mem.read_writeBytes (bs : List Byte) (m : Mem) (a x : Nat) (hw : m.wf = true) :
    (m.writeBytes a bs).read x = if a ≤ x ∧ x < a + bs.length then bs.getD (x - a) 0 else m.read x := by
  induction bs generalizing m a with
  | nil => simp only [Mem.writeBytes, List.length_nil]; rw [if_neg (by omega)]
  | cons b bs ih =>
    have h1 := ih (m.write a b) (a + 1) (Mem.write_wf m a b hw)
    simp only [Mem.writeBytes]
    rw [h1, Mem.read_write m a b x 0 hw]
    by_cases hx : x = a
    · subst hx
      rw [if_neg (by omega), if_pos rfl, if_pos ⟨Nat.le_refl _, by simp⟩]
      simp
    · by_cases hr : a + 1 ≤ x ∧ x < a + 1 + bs.length
      · rw [if_pos hr, if_pos ⟨by omega, by simp; omega⟩]
        have : x - a = (x - (a + 1)) + 1 := by omega
        rw [this]; simp
      · rw [if_neg hr, if_neg hx, if_neg (by simp; omega)]

/-! The memories of a state -/

theorem State.on_wf (s : State) (f : Block → Block) (h : s.wf) : (s.on f).wf := h

theorem State.writeHost_wf (s : State) (a : Nat) (bs : List Byte) (h : s.wf) : (s.writeHost a bs).wf := by
  simp only [State.wf, Memory.wf, Bool.and_eq_true] at h ⊢
  refine ⟨⟨h.1.1, ?_⟩, h.2⟩
  rw [State.writeHost_mem_host]
  split
  · exact h.1.2
  · exact Mem.writeBytes_wf bs _ a h.1.2

theorem State.writeParcel_wf (s : State) (a : Nat) (bs : List Byte) (h : s.wf) : (s.writeParcel a bs).wf := by
  simp only [State.wf, Memory.wf, Bool.and_eq_true] at h ⊢
  exact ⟨⟨Mem.writeBytes_wf bs _ a h.1.1, h.1.2⟩, h.2⟩

theorem State.clearParcel_wf (s : State) (a n : Nat) (h : s.wf) : (s.clearParcel a n).wf := by
  simp only [State.wf, Memory.wf, Bool.and_eq_true] at h ⊢
  exact ⟨⟨Mem.clear_wf _ a n h.1.1, h.1.2⟩, h.2⟩

theorem State.clearHost_wf (s : State) (a n : Nat) (h : s.wf) : (s.clearHost a n).wf := by
  simp only [State.wf, Memory.wf, Bool.and_eq_true] at h ⊢
  exact ⟨⟨h.1.1, Mem.clear_wf _ a n h.1.2⟩, h.2⟩

theorem State.writeStore_wf (s : State) (c a : Nat) (bs : List Byte) (h : s.wf) : (s.writeStore c a bs).wf := by
  have hs := Mem.writeBytes_wf bs (s.mem.store c) a (Memory.store_wf s.mem c h)
  simp only [State.wf, Memory.wf, Bool.and_eq_true] at h ⊢
  exact ⟨h.1, setStore_storesFrom c _ _ 0 (Nat.zero_le _) hs h.2⟩

theorem State.loseStore_wf (s : State) (c : Nat) (h : s.wf) : (s.loseStore c).wf := by
  simp only [State.wf, Memory.wf, Bool.and_eq_true] at h ⊢
  exact ⟨h.1, setStore_storesFrom c [] _ 0 (Nat.zero_le _) rfl h.2⟩

end Sys2Proof.Machine
end

