-- ==== Sys2Proof/Laws/Keeps.lean ====
section
/-! SUPPORT. What every shared operation keeps: the queue as it is, and the canonical form of the memories. -/
namespace Sys2Proof.Machine

theorem State.Keeps.refl (s : State) : s.Keeps s := ⟨rfl, id⟩
theorem State.Keeps.trans {r s t : State} (h : r.Keeps s) (k : s.Keeps t) : r.Keeps t := ⟨k.1.trans h.1, fun w => k.2 (h.2 w)⟩

/-- A fold keeps what each of its turns keeps. -/
theorem State.foldl_keeps {α : Type} {r s : State} {f : State → α → State} {xs : List α} (h : r.Keeps s)
    (hf : ∀ u x, r.Keeps u → r.Keeps (f u x)) : r.Keeps (xs.foldl f s) := by
  induction xs generalizing s with
  | nil => exact h
  | cons x xs ih => exact ih (hf s x h)

/-- The same where the fold carries something beside the state. -/
theorem State.foldl_keeps_fst {α β : Type} {r s : State} {y : β} {f : State × β → α → State × β} {xs : List α} (h : r.Keeps s)
    (hf : ∀ u z x, r.Keeps u → r.Keeps (f (u, z) x).1) : r.Keeps (xs.foldl f (s, y)).1 := by
  induction xs generalizing s y with
  | nil => exact h
  | cons x xs ih => exact ih (hf s y x h)

theorem State.ite_keeps {r a b : State} {c : Prop} [Decidable c] (ha : r.Keeps a) (hb : r.Keeps b) : r.Keeps (if c then a else b) := by
  split
  · exact ha
  · exact hb

/-- What an operation that also answers something keeps. -/
theorem State.keeps_fst {α : Type} {r s : State} {p : State × α} {x : α} (h : r.Keeps p.1) (e : p = (s, x)) : r.Keeps s := by
  rw [e] at h
  exact h

theorem State.on_keeps {r s : State} {f : Block → Block} (h : r.Keeps s) : r.Keeps (s.on f) := h
theorem State.writeHost_keeps {r s : State} (a : Nat) (bs : List Byte) (h : r.Keeps s) : r.Keeps (s.writeHost a bs) :=
  ⟨h.1, fun w => State.writeHost_wf s a bs (h.2 w)⟩
theorem State.writeParcel_keeps {r s : State} (a : Nat) (bs : List Byte) (h : r.Keeps s) : r.Keeps (s.writeParcel a bs) :=
  ⟨h.1, fun w => State.writeParcel_wf s a bs (h.2 w)⟩
theorem State.clearParcel_keeps {r s : State} (a n : Nat) (h : r.Keeps s) : r.Keeps (s.clearParcel a n) :=
  ⟨h.1, fun w => State.clearParcel_wf s a n (h.2 w)⟩
theorem State.clearHost_keeps {r s : State} (a n : Nat) (h : r.Keeps s) : r.Keeps (s.clearHost a n) :=
  ⟨h.1, fun w => State.clearHost_wf s a n (h.2 w)⟩
theorem State.writeStore_keeps {r s : State} (c a : Nat) (bs : List Byte) (h : r.Keeps s) : r.Keeps (s.writeStore c a bs) :=
  ⟨h.1, fun w => State.writeStore_wf s c a bs (h.2 w)⟩
theorem State.loseStore_keeps {r s : State} (c : Nat) (h : r.Keeps s) : r.Keeps (s.loseStore c) :=
  ⟨h.1, fun w => State.loseStore_wf s c (h.2 w)⟩
theorem atTime_keeps {r s : State} (t : Nat) (f : Block → Block) (h : r.Keeps s) : r.Keeps (atTime t f s) := h









theorem State.writeEntry_keeps {r₀ : State} {s : State} (n : Nat) (c : Completion) (hk : State.Keeps r₀ s) :
    State.Keeps r₀ (State.writeEntry s n c) := by
  unfold State.writeEntry
  try dsimp only
  with_reducible repeat' (first | assumption | (intro _) | apply State.on_keeps | apply State.ite_keeps | apply State.writeHost_keeps | apply State.event_keeps | apply State.foldl_keeps | (refine State.keeps_fst ?_ (by assumption)) | split)

theorem State.postCompletion_keeps {r₀ : State} {s : State} (n : Nat) (c : Completion) (hk : State.Keeps r₀ s) :
    State.Keeps r₀ (State.postCompletion s n c) := by
  unfold State.postCompletion
  try dsimp only
  with_reducible repeat' (first | assumption | (intro _) | apply State.on_keeps | apply State.ite_keeps | apply State.writeEntry_keeps | apply State.foldl_keeps | (refine State.keeps_fst ?_ (by assumption)) | split)

theorem State.drainPosts_keeps {r s : State} (n : Nat) (k : Nat) (h : r.Keeps s) : r.Keeps (State.drainPosts s n k) := by
  induction k generalizing s with
  | zero => exact h
  | succ k ih =>
    unfold State.drainPosts
    try dsimp only
    with_reducible repeat' (first | assumption | apply ih | apply State.writeEntry_keeps | apply State.on_keeps | split)

theorem State.complete_keeps {r₀ : State} {s : State} (n : Nat) (c : Completion) (hk : State.Keeps r₀ s) :
    State.Keeps r₀ (State.complete s n c) := by
  unfold State.complete
  try dsimp only
  with_reducible repeat' (first | assumption | (intro _) | apply State.on_keeps | apply State.ite_keeps | apply State.postCompletion_keeps | apply State.foldl_keeps | (refine State.keeps_fst ?_ (by assumption)) | split)

theorem State.finish_keeps {r₀ : State} {s : State} (h : Hdr) (opcode status : Nat) (result : BitVec 128) (detail : Nat) (superseded : Bool) (hk : State.Keeps r₀ s) :
    State.Keeps r₀ (State.finish s h opcode status result detail superseded) := by
  unfold State.finish
  try dsimp only
  with_reducible repeat' (first | assumption | (intro _) | apply State.on_keeps | apply State.ite_keeps | apply State.complete_keeps | apply State.foldl_keeps | (refine State.keeps_fst ?_ (by assumption)) | split)

theorem State.postEvent_keeps {r₀ : State} {s : State} (e : EventRec) (hk : State.Keeps r₀ s) :
    State.Keeps r₀ (State.postEvent s e) := by
  unfold State.postEvent
  try dsimp only
  with_reducible repeat' (first | assumption | (intro _) | apply State.on_keeps | apply State.ite_keeps | apply State.writeEntry_keeps | apply State.event_keeps | apply State.foldl_keeps | (refine State.keeps_fst ?_ (by assumption)) | split)

theorem State.drainEvents_keeps {r s : State} (k : Nat) (h : r.Keeps s) : r.Keeps (State.drainEvents s k) := by
  induction k generalizing s with
  | zero => exact h
  | succ k ih =>
    unfold State.drainEvents
    try dsimp only
    with_reducible repeat' (first | assumption | apply ih | apply State.writeEntry_keeps | apply State.on_keeps | split)

theorem State.event_keeps {r₀ : State} {s : State} (code cls arg : Nat) (hk : State.Keeps r₀ s) :
    State.Keeps r₀ (State.event s code cls arg) := by
  unfold State.event
  try dsimp only
  with_reducible repeat' (first | assumption | (intro _) | apply State.on_keeps | apply State.ite_keeps | apply State.postEvent_keeps | apply State.foldl_keeps | (refine State.keeps_fst ?_ (by assumption)) | split)

theorem State.tracePut_keeps {r₀ : State} {s : State} (typ sub units : Nat) (payload : List Byte) (hk : State.Keeps r₀ s) :
    State.Keeps r₀ (State.tracePut s typ sub units payload) := by
  unfold State.tracePut
  try dsimp only
  with_reducible repeat' (first | assumption | (intro _) | apply State.on_keeps | apply State.ite_keeps | apply State.writeHost_keeps | apply State.trace_keeps | apply State.foldl_keeps | (refine State.keeps_fst ?_ (by assumption)) | split)

theorem State.tracePlace_keeps {r₀ : State} {s : State} (typ sub : Nat) (payload : List Byte) (hk : State.Keeps r₀ s) :
    State.Keeps r₀ (State.tracePlace s typ sub payload) := by
  unfold State.tracePlace
  try dsimp only
  with_reducible repeat' (first | assumption | (intro _) | apply State.on_keeps | apply State.ite_keeps | apply State.tracePut_keeps | apply State.foldl_keeps | (refine State.keeps_fst ?_ (by assumption)) | split)

theorem State.trace_keeps {r₀ : State} {s : State} (typ sub : Nat) (payload : List Byte) (hk : State.Keeps r₀ s) :
    State.Keeps r₀ (State.trace s typ sub payload) := by
  unfold State.trace
  try dsimp only
  with_reducible repeat' (first | assumption | (intro _) | apply State.on_keeps | apply State.ite_keeps | apply State.tracePlace_keeps | apply State.foldl_keeps | (refine State.keeps_fst ?_ (by assumption)) | split)

theorem State.takeBell_keeps {r₀ : State} {s : State} (origin epoch error raiser : Nat) (host : Bool) (step reason ta : Nat) (arrived : Option Nat) (suspectAt : Nat) (hk : State.Keeps r₀ s) :
    State.Keeps r₀ (State.takeBell s origin epoch error raiser host step reason ta arrived suspectAt) := by
  unfold State.takeBell
  try dsimp only
  with_reducible repeat' (first | assumption | (intro _) | apply State.on_keeps | apply State.ite_keeps | apply State.postEvent_keeps | apply State.decide_keeps | apply State.host_keeps | apply State.foldl_keeps | (refine State.keeps_fst ?_ (by assumption)) | split)

theorem State.raiseBell_keeps {r₀ : State} {s : State} (origin epoch error : Nat) (host : Bool) (reason : Nat) (suspectAt : Nat) (hk : State.Keeps r₀ s) :
    State.Keeps r₀ (State.raiseBell s origin epoch error host reason suspectAt) := by
  unfold State.raiseBell
  try dsimp only
  with_reducible repeat' (first | assumption | (intro _) | apply State.on_keeps | apply State.ite_keeps | apply State.takeBell_keeps | apply State.host_keeps | apply State.foldl_keeps | (refine State.keeps_fst ?_ (by assumption)) | split)

theorem State.traceErr_keeps {r₀ : State} {s : State} (e : ErrorRec) (hk : State.Keeps r₀ s) :
    State.Keeps r₀ (State.traceErr s e) := by
  unfold State.traceErr
  try dsimp only
  with_reducible repeat' (first | assumption | (intro _) | apply State.on_keeps | apply State.ite_keeps | apply State.trace_keeps | apply State.foldl_keeps | (refine State.keeps_fst ?_ (by assumption)) | split)

theorem State.voidSlot_keeps {r₀ : State} {s : State} (hk : State.Keeps r₀ s) :
    State.Keeps r₀ (State.voidSlot s) := by
  unfold State.voidSlot
  try dsimp only
  with_reducible repeat' (first | assumption | (intro _) | apply State.on_keeps | apply State.ite_keeps | apply State.writeHost_keeps | apply State.foldl_keeps | (refine State.keeps_fst ?_ (by assumption)) | split)

theorem State.abandonImage_keeps {r₀ : State} {s : State} (status : Nat) (hk : State.Keeps r₀ s) :
    State.Keeps r₀ (State.abandonImage s status) := by
  unfold State.abandonImage
  try dsimp only
  with_reducible repeat' (first | assumption | (intro _) | apply State.on_keeps | apply State.ite_keeps | apply State.voidSlot_keeps | apply State.foldl_keeps | (refine State.keeps_fst ?_ (by assumption)) | split)

theorem State.detect_keeps {r₀ : State} {s : State} (e : ErrorRec) (hk : State.Keeps r₀ s) :
    State.Keeps r₀ (State.detect s e) := by
  unfold State.detect
  try dsimp only
  with_reducible repeat' (first | assumption | (intro _) | apply State.on_keeps | apply State.ite_keeps | apply State.abandonImage_keeps | apply State.foldl_keeps | (refine State.keeps_fst ?_ (by assumption)) | split)

theorem State.raiseErr_keeps {r₀ : State} {s : State} (e : ErrorRec) (hk : State.Keeps r₀ s) :
    State.Keeps r₀ (State.raiseErr s e) := by
  unfold State.raiseErr
  try dsimp only
  with_reducible repeat' (first | assumption | (intro _) | apply State.on_keeps | apply State.ite_keeps | apply State.postEvent_keeps | apply State.raiseBell_keeps | apply State.traceErr_keeps | apply State.detect_keeps | apply State.foldl_keeps | (refine State.keeps_fst ?_ (by assumption)) | split)

theorem State.quorumBell_keeps {r₀ : State} {s : State} (origin epoch : Nat) (hk : State.Keeps r₀ s) :
    State.Keeps r₀ (State.quorumBell s origin epoch) := by
  unfold State.quorumBell
  try dsimp only
  with_reducible repeat' (first | assumption | (intro _) | apply State.on_keeps | apply State.ite_keeps | apply State.raiseBell_keeps | apply State.foldl_keeps | (refine State.keeps_fst ?_ (by assumption)) | split)

theorem State.applyReport_keeps {r₀ : State} {s : State} (r : Report) (x : Suspicion) (hk : State.Keeps r₀ s) :
    State.Keeps r₀ (State.applyReport s r x) := by
  unfold State.applyReport
  try dsimp only
  with_reducible repeat' (first | assumption | (intro _) | apply State.on_keeps | apply State.ite_keeps | apply State.quorumBell_keeps | apply State.foldl_keeps | (refine State.keeps_fst ?_ (by assumption)) | split)

theorem State.takeReport_keeps {r₀ : State} {s : State} (r : Report) (arrived : Option Nat) (hk : State.Keeps r₀ s) :
    State.Keeps r₀ (State.takeReport s r arrived) := by
  unfold State.takeReport
  try dsimp only
  with_reducible repeat' (first | assumption | (intro _) | apply State.on_keeps | apply State.ite_keeps | apply State.applyReport_keeps | apply State.foldl_keeps | (refine State.keeps_fst ?_ (by assumption)) | split)

theorem State.raiseSuspect_keeps {r₀ : State} {s : State} (origin cause oport mask : Nat) (hk : State.Keeps r₀ s) :
    State.Keeps r₀ (State.raiseSuspect s origin cause oport mask) := by
  unfold State.raiseSuspect
  try dsimp only
  with_reducible repeat' (first | assumption | (intro _) | apply State.on_keeps | apply State.ite_keeps | apply State.takeReport_keeps | apply State.foldl_keeps | (refine State.keeps_fst ?_ (by assumption)) | split)

theorem State.answerSuspect_keeps {r₀ : State} {s : State} (epoch : Nat) (hk : State.Keeps r₀ s) :
    State.Keeps r₀ (State.answerSuspect s epoch) := by
  unfold State.answerSuspect
  try dsimp only
  with_reducible repeat' (first | assumption | (intro _) | apply State.on_keeps | apply State.ite_keeps | apply State.takeReport_keeps | apply State.foldl_keeps | (refine State.keeps_fst ?_ (by assumption)) | split)

theorem State.enterFailed_keeps {r₀ : State} {s : State} (n : Nat) (hk : State.Keeps r₀ s) :
    State.Keeps r₀ (State.enterFailed s n) := by
  unfold State.enterFailed
  try dsimp only
  with_reducible repeat' (first | assumption | (intro _) | apply State.on_keeps | apply State.ite_keeps | apply State.raiseSuspect_keeps | apply State.foldl_keeps | (refine State.keeps_fst ?_ (by assumption)) | split)

theorem State.sp0Fails_keeps {r₀ : State} {s : State} (hk : State.Keeps r₀ s) :
    State.Keeps r₀ (State.sp0Fails s) := by
  unfold State.sp0Fails
  try dsimp only
  with_reducible repeat' (first | assumption | (intro _) | apply State.on_keeps | apply State.ite_keeps | apply State.enterFailed_keeps | apply State.foldl_keeps | (refine State.keeps_fst ?_ (by assumption)) | split)

theorem State.failDieLink_keeps {r₀ : State} {s : State} (n : Nat) (hk : State.Keeps r₀ s) :
    State.Keeps r₀ (State.failDieLink s n) := by
  unfold State.failDieLink
  try dsimp only
  with_reducible repeat' (first | assumption | (intro _) | apply State.on_keeps | apply State.ite_keeps | apply State.raiseErr_keeps | apply State.foldl_keeps | (refine State.keeps_fst ?_ (by assumption)) | split)

theorem State.failPortAll_keeps {r₀ : State} {s : State} (n : Nat) (hk : State.Keeps r₀ s) :
    State.Keeps r₀ (State.failPortAll s n) := by
  unfold State.failPortAll
  try dsimp only
  with_reducible repeat' (first | assumption | (intro _) | apply State.on_keeps | apply State.ite_keeps | apply State.enterFailed_keeps | apply State.failDieLink_keeps | apply State.foldl_keeps | (refine State.keeps_fst ?_ (by assumption)) | split)

theorem State.takeAck_keeps {r₀ : State} {s : State} (n : Nat) (f : Flit) (hk : State.Keeps r₀ s) :
    State.Keeps r₀ (State.takeAck s n f) := by
  unfold State.takeAck
  try dsimp only
  with_reducible repeat' (first | assumption | (intro _) | apply State.on_keeps | apply State.ite_keeps | apply State.failPortAll_keeps | apply State.foldl_keeps | (refine State.keeps_fst ?_ (by assumption)) | split)

theorem State.goodFlit_keeps {r₀ : State} {s : State} (n : Nat) (f : Flit) (hk : State.Keeps r₀ s) :
    State.Keeps r₀ (State.goodFlit s n f) := by
  unfold State.goodFlit
  try dsimp only
  with_reducible repeat' (first | assumption | (intro _) | apply State.on_keeps | apply State.ite_keeps | apply State.takeAck_keeps | apply State.foldl_keeps | (refine State.keeps_fst ?_ (by assumption)) | split)

theorem State.resendWithin_keeps {r₀ : State} {s : State} (n : Nat) (hk : State.Keeps r₀ s) :
    State.Keeps r₀ (State.resendWithin s n) := by
  unfold State.resendWithin
  try dsimp only
  with_reducible repeat' (first | assumption | (intro _) | apply State.on_keeps | apply State.ite_keeps | apply State.failPortAll_keeps | apply State.foldl_keeps | (refine State.keeps_fst ?_ (by assumption)) | split)

theorem State.flitRow_keeps {r₀ : State} {s : State} (n ftype : Nat) (f : Flit) (take : State → State) (hk : State.Keeps r₀ s) (htake : ∀ u, State.Keeps r₀ u → State.Keeps r₀ (take u)) :
    State.Keeps r₀ (State.flitRow s n ftype f take) := by
  unfold State.flitRow
  try dsimp only
  with_reducible repeat' (first | assumption | (intro _) | apply State.on_keeps | apply State.ite_keeps | apply State.resendWithin_keeps | apply State.foldl_keeps | (refine State.keeps_fst ?_ (by assumption)) | (apply htake) | split)

theorem State.sequenced_keeps {r₀ : State} {s : State} (n : Nat) (f : Flit) (take : State → State) (hk : State.Keeps r₀ s) (htake : ∀ u, State.Keeps r₀ u → State.Keeps r₀ (take u)) :
    State.Keeps r₀ (State.sequenced s n f take) := by
  unfold State.sequenced
  try dsimp only
  with_reducible repeat' (first | assumption | (intro _) | apply State.on_keeps | apply State.ite_keeps | apply State.goodFlit_keeps | apply State.foldl_keeps | (refine State.keeps_fst ?_ (by assumption)) | (apply htake) | split)

theorem State.mismatchPort_keeps {r₀ : State} {s : State} (n pm pp : Nat) (hk : State.Keeps r₀ s) :
    State.Keeps r₀ (State.mismatchPort s n pm pp) := by
  unfold State.mismatchPort
  try dsimp only
  with_reducible repeat' (first | assumption | (intro _) | apply State.on_keeps | apply State.ite_keeps | apply State.raiseSuspect_keeps | apply State.foldl_keeps | (refine State.keeps_fst ?_ (by assumption)) | split)

theorem State.takeLinkMsg_keeps {r₀ : State} {s : State} (port : Nat) (z0 : LinkMsg) (hk : State.Keeps r₀ s) :
    State.Keeps r₀ (State.takeLinkMsg s port z0) := by
  unfold State.takeLinkMsg
  try dsimp only
  with_reducible repeat' (first | assumption | (intro _) | apply State.on_keeps | apply State.ite_keeps | apply State.mismatchPort_keeps | apply State.foldl_keeps | (refine State.keeps_fst ?_ (by assumption)) | split)

theorem State.laneFails_keeps {r₀ : State} {s : State} (n lane : Nat) (hk : State.Keeps r₀ s) :
    State.Keeps r₀ (State.laneFails s n lane) := by
  unfold State.laneFails
  try dsimp only
  with_reducible repeat' (first | assumption | (intro _) | apply State.on_keeps | apply State.ite_keeps | apply State.failPortAll_keeps | apply State.foldl_keeps | (refine State.keeps_fst ?_ (by assumption)) | split)

theorem State.dieLanesFail_keeps {r₀ : State} {s : State} (n : Nat) (lanes : List Nat) (hk : State.Keeps r₀ s) :
    State.Keeps r₀ (State.dieLanesFail s n lanes) := by
  unfold State.dieLanesFail
  try dsimp only
  with_reducible repeat' (first | assumption | (intro _) | apply State.on_keeps | apply State.ite_keeps | apply State.failPortAll_keeps | apply State.laneFails_keeps | apply State.foldl_keeps | (refine State.keeps_fst ?_ (by assumption)) | split)

theorem State.physicalFails_keeps {r₀ : State} {s : State} (n lane : Nat) (hk : State.Keeps r₀ s) :
    State.Keeps r₀ (State.physicalFails s n lane) := by
  unfold State.physicalFails
  try dsimp only
  with_reducible repeat' (first | assumption | (intro _) | apply State.on_keeps | apply State.ite_keeps | apply State.laneFails_keeps | apply State.foldl_keeps | (refine State.keeps_fst ?_ (by assumption)) | split)

theorem State.refreshTile_keeps {r₀ : State} {s : State} (tile : Nat) (kind : TileElems) (hk : State.Keeps r₀ s) :
    State.Keeps r₀ (State.refreshTile s tile kind) := by
  unfold State.refreshTile
  try dsimp only
  with_reducible repeat' (first | assumption | (intro _) | apply State.on_keeps | apply State.ite_keeps | apply State.writeHost_keeps | apply State.foldl_keeps | (refine State.keeps_fst ?_ (by assumption)) | split)

theorem State.hostWriteFails_keeps {r₀ : State} {s : State} (owner : Option (Nat × Nat)) (hk : State.Keeps r₀ s) :
    State.Keeps r₀ (State.hostWriteFails s owner) := by
  unfold State.hostWriteFails
  try dsimp only
  with_reducible repeat' (first | assumption | (intro _) | apply State.on_keeps | apply State.ite_keeps | apply State.raiseErr_keeps | apply State.ioFailed_keeps | apply State.foldl_keeps | (refine State.keeps_fst ?_ (by assumption)) | split)

theorem State.writePage_keeps {r₀ : State} {s : State} (a : Nat) (bs : List Byte) (owner : Option (Nat × Nat)) (post : Bool) (kind : TileElems) (hk : State.Keeps r₀ s) :
    State.Keeps r₀ (State.writePage s a bs owner post kind) := by
  unfold State.writePage
  try dsimp only
  with_reducible repeat' (first | assumption | (intro _) | apply State.on_keeps | apply State.ite_keeps | apply State.writeParcel_keeps | apply State.refreshTile_keeps | apply State.hostWriteFails_keeps | apply State.foldl_keeps | (refine State.keeps_fst ?_ (by assumption)) | split)

theorem State.devWriteFrom_keeps {r₀ s : State} (fuel a : Nat) (bs : List Byte) (owner : Option (Nat × Nat)) (post : Bool) (kind : TileElems)
    (hk : r₀.Keeps s) : r₀.Keeps (s.devWriteFrom fuel a bs owner post kind) := by
  induction fuel generalizing s a bs with
  | zero => exact hk
  | succ k ih =>
    unfold State.devWriteFrom
    try dsimp only
    with_reducible repeat' (first | assumption | apply ih | apply State.on_keeps | apply State.ite_keeps | apply State.writePage_keeps | apply State.devWrite_keeps | apply State.foldl_keeps | (intro _) | split)

theorem State.devWrite_keeps {r₀ : State} {s : State} (a : Nat) (bs : List Byte) (owner : Option (Nat × Nat)) (post : Bool) (kind : TileElems) (hk : State.Keeps r₀ s) :
    State.Keeps r₀ (State.devWrite s a bs owner post kind) := by
  unfold State.devWrite
  try dsimp only
  with_reducible repeat' (first | assumption | (intro _) | apply State.on_keeps | apply State.ite_keeps | apply State.devWriteFrom_keeps | apply State.foldl_keeps | (refine State.keeps_fst ?_ (by assumption)) | split)

theorem State.locWrite_keeps {r₀ : State} {s : State} (c i : Nat) (inStore : Bool) (a : Nat) (bs : List Byte) (kind : TileElems) (hk : State.Keeps r₀ s) :
    State.Keeps r₀ (State.locWrite s c i inStore a bs kind) := by
  unfold State.locWrite
  try dsimp only
  with_reducible repeat' (first | assumption | (intro _) | apply State.on_keeps | apply State.ite_keeps | apply State.writeStore_keeps | apply State.devWrite_keeps | apply State.foldl_keeps | (refine State.keeps_fst ?_ (by assumption)) | split)

theorem State.locZero_keeps {r₀ : State} {s : State} (c i : Nat) (inStore : Bool) (kind : TileElems) (r : Nat × Nat) (hk : State.Keeps r₀ s) :
    State.Keeps r₀ (State.locZero s c i inStore kind r) := by
  unfold State.locZero
  try dsimp only
  with_reducible repeat' (first | assumption | (intro _) | apply State.on_keeps | apply State.ite_keeps | apply State.locWrite_keeps | apply State.foldl_keeps | (refine State.keeps_fst ?_ (by assumption)) | split)

theorem State.releaseList_keeps {r₀ s : State} (ws : List HeldWrite) (hk : r₀.Keeps s) : r₀.Keeps (s.releaseList ws) := by
  induction ws generalizing s with
  | nil => exact hk
  | cons w ws ih =>
    unfold State.releaseList
    try dsimp only
    with_reducible repeat' (first | assumption | apply ih | apply State.on_keeps | apply State.ite_keeps | apply State.on_keeps | apply State.devWrite_keeps | apply State.foldl_keeps | (intro _) | split)

theorem State.releaseWrites_keeps {r₀ : State} {s : State} (hk : State.Keeps r₀ s) :
    State.Keeps r₀ (State.releaseWrites s) := by
  unfold State.releaseWrites
  try dsimp only
  with_reducible repeat' (first | assumption | (intro _) | apply State.on_keeps | apply State.ite_keeps | apply State.releaseList_keeps | apply State.foldl_keeps | (refine State.keeps_fst ?_ (by assumption)) | split)

theorem State.switchPage_keeps {r₀ : State} {s : State} (page : Nat) (kind : Option TileElems) (hk : State.Keeps r₀ s) :
    State.Keeps r₀ (State.switchPage s page kind) := by
  unfold State.switchPage
  try dsimp only
  with_reducible repeat' (first | assumption | (intro _) | apply State.on_keeps | apply State.ite_keeps | apply State.refreshTile_keeps | apply State.foldl_keeps | (refine State.keeps_fst ?_ (by assumption)) | split)

theorem State.sendRank_keeps {r₀ : State} {s : State} (g : Nat) (d : BitVec 512) (rank typ param ext die : Nat) (payload : List Byte) (step : Nat) (hk : State.Keeps r₀ s) :
    State.Keeps r₀ (State.sendRank s g d rank typ param ext die payload step) := by
  unfold State.sendRank
  try dsimp only
  with_reducible repeat' (first | assumption | (intro _) | apply State.on_keeps | apply State.ite_keeps | apply State.foldl_keeps | (refine State.keeps_fst ?_ (by assumption)) | split)

theorem State.sendDown_keeps {r₀ : State} {s : State} (g : Nat) (d : BitVec 512) (hops : List Hop) (typ param ext die : Nat) (payload : List Byte) (step : Nat) (hk : State.Keeps r₀ s) :
    State.Keeps r₀ (State.sendDown s g d hops typ param ext die payload step) := by
  unfold State.sendDown
  try dsimp only
  with_reducible repeat' (first | assumption | (intro _) | apply State.on_keeps | apply State.ite_keeps | apply State.sendRank_keeps | apply State.foldl_keeps | (refine State.keeps_fst ?_ (by assumption)) | split)

theorem State.millErr_keeps {r₀ : State} {s : State} (code cause : Nat) (hk : State.Keeps r₀ s) :
    State.Keeps r₀ (State.millErr s code cause) := by
  unfold State.millErr
  try dsimp only
  with_reducible repeat' (first | assumption | (intro _) | apply State.on_keeps | apply State.ite_keeps | apply State.raiseErr_keeps | apply State.foldl_keeps | (refine State.keeps_fst ?_ (by assumption)) | split)

theorem State.writeExp_keeps {r₀ : State} {s : State} (d : BitVec 512) (slice step : Nat) (e : Int) (hk : State.Keeps r₀ s) :
    State.Keeps r₀ (State.writeExp s d slice step e) := by
  unfold State.writeExp
  try dsimp only
  with_reducible repeat' (first | assumption | (intro _) | apply State.on_keeps | apply State.ite_keeps | apply State.devWrite_keeps | apply State.foldl_keeps | (refine State.keeps_fst ?_ (by assumption)) | split)

theorem State.writeHeld_keeps {r₀ : State} {s : State} (h : Held) (hk : State.Keeps r₀ s) :
    State.Keeps r₀ (State.writeHeld s h) := by
  unfold State.writeHeld
  try dsimp only
  with_reducible repeat' (first | assumption | (intro _) | apply State.on_keeps | apply State.ite_keeps | apply State.devWrite_keeps | apply State.foldl_keeps | (refine State.keeps_fst ?_ (by assumption)) | split)

theorem State.completeHeld_keeps {r₀ : State} {s : State} (d : BitVec 512) (h : Held) (e : Int) (hk : State.Keeps r₀ s) :
    State.Keeps r₀ (State.completeHeld s d h e) := by
  unfold State.completeHeld
  try dsimp only
  with_reducible repeat' (first | assumption | (intro _) | apply State.on_keeps | apply State.ite_keeps | apply State.writeExp_keeps | apply State.foldl_keeps | (refine State.keeps_fst ?_ (by assumption)) | split)

theorem State.deliver_keeps {r₀ s : State} (d : BitVec 512) (r : Ready) (elems : List Int) (raised : Bool) (hk : r₀.Keeps s) :
    r₀.Keeps (s.deliver d r elems raised) := by
  unfold State.deliver
  extract_lets
  split
  · exact State.ite_keeps (State.on_keeps (State.on_keeps hk)) (State.millErr_keeps _ _ (State.on_keeps hk))
  · exact State.ite_keeps (State.completeHeld_keeps _ _ _ (State.writeHeld_keeps _ (State.on_keeps (State.on_keeps (State.on_keeps hk)))))
      (State.writeHeld_keeps _ (State.on_keeps (State.on_keeps (State.on_keeps hk))))

theorem State.deliverReady_keeps {r₀ s : State} (g : Nat) (d : BitVec 512) (slice n : Nat) (hk : r₀.Keeps s) : r₀.Keeps (s.deliverReady g d slice n) := by
  induction n generalizing s with
  | zero => exact hk
  | succ k ih =>
    unfold State.deliverReady
    try dsimp only
    with_reducible repeat' (first | assumption | apply ih | apply State.on_keeps | apply State.ite_keeps | apply State.on_keeps | apply State.deliver_keeps | apply State.foldl_keeps | (intro _) | split)

theorem State.endWait_keeps {r₀ : State} {s : State} (w : Wait) (status : Nat) (result : BitVec 128) (detail : Nat) (superseded : Bool) (hk : State.Keeps r₀ s) :
    State.Keeps r₀ (State.endWait s w status result detail superseded) := by
  unfold State.endWait
  try dsimp only
  with_reducible repeat' (first | assumption | (intro _) | apply State.on_keeps | apply State.ite_keeps | apply State.complete_keeps | apply State.foldl_keeps | (refine State.keeps_fst ?_ (by assumption)) | split)

theorem State.endFence_keeps {r₀ : State} {s : State} (g id : Nat) (hk : State.Keeps r₀ s) :
    State.Keeps r₀ (State.endFence s g id) := by
  unfold State.endFence
  try dsimp only
  with_reducible repeat' (first | assumption | (intro _) | apply State.on_keeps | apply State.ite_keeps | apply State.endWait_keeps | apply State.foldl_keeps | (refine State.keeps_fst ?_ (by assumption)) | split)

theorem State.requestRaise_keeps {r₀ : State} {s : State} (g : Nat) (d : BitVec 512) (hops : List Hop) (slice mb : Nat) (e : Int) (hk : State.Keeps r₀ s) :
    State.Keeps r₀ (State.requestRaise s g d hops slice mb e) := by
  unfold State.requestRaise
  try dsimp only
  with_reducible repeat' (first | assumption | (intro _) | apply State.on_keeps | apply State.ite_keeps | apply State.sendDown_keeps | apply State.foldl_keeps | (refine State.keeps_fst ?_ (by assumption)) | split)

theorem State.passOn_keeps {r₀ : State} {s : State} (g slice mb part : Nat) (root : State → BitVec 512 → List Hop → Operand → State) (hk : State.Keeps r₀ s) (hroot : ∀ u y0 y1 y2, State.Keeps r₀ u → State.Keeps r₀ (root u y0 y1 y2)) :
    State.Keeps r₀ (State.passOn s g slice mb part root) := by
  unfold State.passOn
  try dsimp only
  with_reducible repeat' (first | assumption | (intro _) | apply State.on_keeps | apply State.ite_keeps | apply State.sendRank_keeps | apply State.millErr_keeps | apply State.foldl_keeps | (refine State.keeps_fst ?_ (by assumption)) | (apply hroot) | split)

theorem State.rootQuarter_keeps {r₀ : State} {s : State} (d : BitVec 512) (x1 : List Hop) (o : Operand) (hk : State.Keeps r₀ s) :
    State.Keeps r₀ (State.rootQuarter s d x1 o) := by
  unfold State.rootQuarter
  try dsimp only
  with_reducible repeat' (first | assumption | (intro _) | apply State.on_keeps | apply State.ite_keeps | apply State.deliverReady_keeps | apply State.foldl_keeps | (refine State.keeps_fst ?_ (by assumption)) | split)

theorem State.answerRaise_keeps {r₀ : State} {s : State} (g : Nat) (d : BitVec 512) (slice mb : Nat) (hk : State.Keeps r₀ s) :
    State.Keeps r₀ (State.answerRaise s g d slice mb) := by
  unfold State.answerRaise
  try dsimp only
  with_reducible repeat' (first | assumption | (intro _) | apply State.on_keeps | apply State.ite_keeps | apply State.passOn_keeps | apply State.rootQuarter_keeps | apply State.foldl_keeps | (refine State.keeps_fst ?_ (by assumption)) | split)

theorem State.rootPart_keeps {r₀ : State} {s : State} (d : BitVec 512) (hops : List Hop) (o : Operand) (hk : State.Keeps r₀ s) :
    State.Keeps r₀ (State.rootPart s d hops o) := by
  unfold State.rootPart
  try dsimp only
  with_reducible repeat' (first | assumption | (intro _) | apply State.on_keeps | apply State.ite_keeps | apply State.sendDown_keeps | apply State.deliverReady_keeps | apply State.endFence_keeps | apply State.requestRaise_keeps | apply State.rootQuarter_keeps | apply State.answerRaise_keeps | apply State.foldl_keeps | (refine State.keeps_fst ?_ (by assumption)) | split)

theorem State.progress_keeps {r₀ : State} {s : State} (g slice mb part : Nat) (hk : State.Keeps r₀ s) :
    State.Keeps r₀ (State.progress s g slice mb part) := by
  unfold State.progress
  try dsimp only
  with_reducible repeat' (first | assumption | (intro _) | apply State.on_keeps | apply State.ite_keeps | apply State.passOn_keeps | apply State.rootPart_keeps | apply State.foldl_keeps | (refine State.keeps_fst ?_ (by assumption)) | split)

theorem State.issueScalars_keeps {r₀ : State} {s : State} (hk : State.Keeps r₀ s) :
    State.Keeps r₀ (State.issueScalars s) := by
  unfold State.issueScalars
  try dsimp only
  with_reducible repeat' (first | assumption | (intro _) | apply State.on_keeps | apply State.ite_keeps | apply State.progress_keeps | apply State.foldl_keeps | (refine State.keeps_fst ?_ (by assumption)) | split)

theorem State.maybeScalars_keeps {r₀ : State} {s : State} (hk : State.Keeps r₀ s) :
    State.Keeps r₀ (State.maybeScalars s) := by
  unfold State.maybeScalars
  try dsimp only
  with_reducible repeat' (first | assumption | (intro _) | apply State.on_keeps | apply State.ite_keeps | apply State.issueScalars_keeps | apply State.foldl_keeps | (refine State.keeps_fst ?_ (by assumption)) | split)

theorem State.contribute_keeps {r₀ : State} {s : State} (x : Inner) (hk : State.Keeps r₀ s) :
    State.Keeps r₀ (State.contribute s x) := by
  unfold State.contribute
  try dsimp only
  with_reducible repeat' (first | assumption | (intro _) | apply State.on_keeps | apply State.ite_keeps | apply State.progress_keeps | apply State.maybeScalars_keeps | apply State.foldl_keeps | (refine State.keeps_fst ?_ (by assumption)) | split)

theorem State.contributeAll_keeps {r₀ : State} {s : State} (hk : State.Keeps r₀ s) :
    State.Keeps r₀ (State.contributeAll s) := by
  unfold State.contributeAll
  try dsimp only
  with_reducible repeat' (first | assumption | (intro _) | apply State.on_keeps | apply State.ite_keeps | apply State.contribute_keeps | apply State.foldl_keeps | (refine State.keeps_fst ?_ (by assumption)) | split)

theorem State.sendChunk_keeps {r₀ : State} {s : State} (e : Bcast) (idx : Nat) (d : BitVec 512) (hops : List Hop) (a : Nat) (bytes : List Byte) (hk : State.Keeps r₀ s) :
    State.Keeps r₀ (State.sendChunk s e idx d hops a bytes) := by
  unfold State.sendChunk
  try dsimp only
  with_reducible repeat' (first | assumption | (intro _) | apply State.on_keeps | apply State.ite_keeps | apply State.sendDown_keeps | apply State.foldl_keeps | (refine State.keeps_fst ?_ (by assumption)) | split)

theorem State.startBcast_keeps {r₀ : State} {s : State} (idx : Nat) (e : Bcast) (hk : State.Keeps r₀ s) :
    State.Keeps r₀ (State.startBcast s idx e) := by
  unfold State.startBcast
  try dsimp only
  with_reducible repeat' (first | assumption | (intro _) | apply State.on_keeps | apply State.ite_keeps | apply State.sendChunk_keeps | apply State.foldl_keeps | (refine State.keeps_fst ?_ (by assumption)) | split)

theorem State.startBcasts_keeps {r₀ : State} {s : State} (hk : State.Keeps r₀ s) :
    State.Keeps r₀ (State.startBcasts s) := by
  unfold State.startBcasts
  try dsimp only
  with_reducible repeat' (first | assumption | (intro _) | apply State.on_keeps | apply State.ite_keeps | apply State.startBcast_keeps | apply State.foldl_keeps | (refine State.keeps_fst ?_ (by assumption)) | split)

theorem State.judged_keeps {r₀ s t : State} (adderOk : Bool) (hk : r₀.Keeps t) : r₀.Keeps (s.judged adderOk t) :=
  State.ite_keeps hk (State.millErr_keeps _ _ (State.on_keeps hk))

theorem State.afterCommit_keeps {r₀ : State} {s : State} (updates : Bool) (hk : State.Keeps r₀ s) :
    State.Keeps r₀ (State.afterCommit s updates) := by
  unfold State.afterCommit
  try dsimp only
  with_reducible repeat' (first | assumption | (intro _) | apply State.on_keeps | apply State.ite_keeps | apply State.issueScalars_keeps | apply State.startBcasts_keeps | apply State.foldl_keeps | (refine State.keeps_fst ?_ (by assumption)) | split)

theorem State.commitCroft_keeps {r₀ : State} {s : State} (croft : Nat) (hk : State.Keeps r₀ s) :
    State.Keeps r₀ (State.commitCroft s croft) := by
  unfold State.commitCroft
  try dsimp only
  with_reducible repeat' (first | assumption | (intro _) | apply State.on_keeps | apply State.ite_keeps | apply State.releaseWrites_keeps | apply State.afterCommit_keeps | apply State.foldl_keeps | (refine State.keeps_fst ?_ (by assumption)) | split)

theorem State.opDone_keeps {r₀ : State} {s : State} (croft i : Nat) (hk : State.Keeps r₀ s) :
    State.Keeps r₀ (State.opDone s croft i) := by
  unfold State.opDone
  try dsimp only
  with_reducible repeat' (first | assumption | (intro _) | apply State.on_keeps | apply State.ite_keeps | apply State.commitCroft_keeps | apply State.foldl_keeps | (refine State.keeps_fst ?_ (by assumption)) | split)

theorem State.reject_keeps {r₀ : State} {s : State} (croft i : Nat) (hk : State.Keeps r₀ s) :
    State.Keeps r₀ (State.reject s croft i) := by
  unfold State.reject
  try dsimp only
  with_reducible repeat' (first | assumption | (intro _) | apply State.on_keeps | apply State.ite_keeps | apply State.afterCommit_keeps | apply State.foldl_keeps | (refine State.keeps_fst ?_ (by assumption)) | split)

theorem State.abandonMove_keeps {r₀ : State} {s : State} (m : Move) (hk : State.Keeps r₀ s) :
    State.Keeps r₀ (State.abandonMove s m) := by
  unfold State.abandonMove
  try dsimp only
  with_reducible repeat' (first | assumption | (intro _) | apply State.on_keeps | apply State.ite_keeps | apply State.writeStore_keeps | apply State.devWrite_keeps | apply State.foldl_keeps | (refine State.keeps_fst ?_ (by assumption)) | split)

theorem State.dropFlushes_keeps {r₀ : State} {s : State} (hk : State.Keeps r₀ s) :
    State.Keeps r₀ (State.dropFlushes s) := by
  unfold State.dropFlushes
  try dsimp only
  with_reducible repeat' (first | assumption | (intro _) | apply State.on_keeps | apply State.ite_keeps | apply State.foldl_keeps | (refine State.keeps_fst ?_ (by assumption)) | split)

theorem State.abortWaits_keeps {r₀ : State} {s : State} (ta : Nat) (hk : State.Keeps r₀ s) :
    State.Keeps r₀ (State.abortWaits s ta) := by
  unfold State.abortWaits
  try dsimp only
  with_reducible repeat' (first | assumption | (intro _) | apply State.on_keeps | apply State.ite_keeps | apply State.endWait_keeps | apply State.foldl_keeps | (refine State.keeps_fst ?_ (by assumption)) | split)

theorem State.abortMailbox_keeps {r₀ : State} {s : State} (hk : State.Keeps r₀ s) :
    State.Keeps r₀ (State.abortMailbox s) := by
  unfold State.abortMailbox
  try dsimp only
  with_reducible repeat' (first | assumption | (intro _) | apply State.on_keeps | apply State.ite_keeps | apply State.finish_keeps | apply State.foldl_keeps | (refine State.keeps_fst ?_ (by assumption)) | split)

theorem State.enterOos_keeps {r₀ : State} {s : State} (reason : Nat) (hk : State.Keeps r₀ s) :
    State.Keeps r₀ (State.enterOos s reason) := by
  unfold State.enterOos
  try dsimp only
  with_reducible repeat' (first | assumption | (intro _) | apply State.on_keeps | apply State.ite_keeps | apply State.event_keeps | apply State.foldl_keeps | (refine State.keeps_fst ?_ (by assumption)) | split)

theorem State.abortSettle_keeps {r₀ : State} {s : State} (hk : State.Keeps r₀ s) :
    State.Keeps r₀ (State.abortSettle s) := by
  unfold State.abortSettle
  try dsimp only
  with_reducible repeat' (first | assumption | (intro _) | apply State.on_keeps | apply State.ite_keeps | apply State.enterOos_keeps | apply State.foldl_keeps | (refine State.keeps_fst ?_ (by assumption)) | split)

theorem State.abortNow_keeps {r₀ : State} {s : State} (hk : State.Keeps r₀ s) :
    State.Keeps r₀ (State.abortNow s) := by
  unfold State.abortNow
  try dsimp only
  with_reducible repeat' (first | assumption | (intro _) | apply State.on_keeps | apply State.ite_keeps | apply State.releaseWrites_keeps | apply State.abandonMove_keeps | apply State.dropFlushes_keeps | apply State.abortWaits_keeps | apply State.abortMailbox_keeps | apply State.abortSettle_keeps | apply State.foldl_keeps | (refine State.keeps_fst ?_ (by assumption)) | split)

theorem State.writeSeg_keeps {r₀ : State} {s : State} (c i : Nat) (t : Tensor) (g : SegOut) (hk : State.Keeps r₀ s) :
    State.Keeps r₀ (State.writeSeg s c i t g) := by
  unfold State.writeSeg
  try dsimp only
  with_reducible repeat' (first | assumption | (intro _) | apply State.on_keeps | apply State.ite_keeps | apply State.devWrite_keeps | apply State.locWrite_keeps | apply State.locZero_keeps | apply State.foldl_keeps | (refine State.keeps_fst ?_ (by assumption)) | split)

theorem State.writeSegs_keeps {r₀ : State} {s : State} (c i : Nat) (t : Tensor) (gs : List SegOut) (hk : State.Keeps r₀ s) :
    State.Keeps r₀ (State.writeSegs s c i t gs) := by
  unfold State.writeSegs
  try dsimp only
  with_reducible repeat' (first | assumption | (intro _) | apply State.on_keeps | apply State.ite_keeps | apply State.writeSeg_keeps | apply State.foldl_keeps | (refine State.keeps_fst ?_ (by assumption)) | split)

theorem State.markSquares_keeps {r₀ : State} {s : State} (owner : Nat × Nat) (base : Nat) (t : Tensor) (row rows col cols : Nat) (set : Bool) (hk : State.Keeps r₀ s) :
    State.Keeps r₀ (State.markSquares s owner base t row rows col cols set) := by
  unfold State.markSquares
  try dsimp only
  with_reducible repeat' (first | assumption | (intro _) | apply State.on_keeps | apply State.ite_keeps | apply State.devWrite_keeps | apply State.foldl_keeps | (refine State.keeps_fst ?_ (by assumption)) | split)

theorem State.clearSquares_keeps {r₀ : State} {s : State} (owner : Nat × Nat) (tensor : Nat) (t : Tensor) (row rows col cols : Nat) (hk : State.Keeps r₀ s) :
    State.Keeps r₀ (State.clearSquares s owner tensor t row rows col cols) := by
  unfold State.clearSquares
  try dsimp only
  with_reducible repeat' (first | assumption | (intro _) | apply State.on_keeps | apply State.ite_keeps | apply State.markSquares_keeps | apply State.foldl_keeps | (refine State.keeps_fst ?_ (by assumption)) | split)

theorem State.stopCroft_keeps {r₀ : State} {s : State} (croft i : Nat) (e : ErrorRec) (hk : State.Keeps r₀ s) :
    State.Keeps r₀ (State.stopCroft s croft i e) := by
  unfold State.stopCroft
  try dsimp only
  with_reducible repeat' (first | assumption | (intro _) | apply State.on_keeps | apply State.ite_keeps | apply State.raiseErr_keeps | apply State.foldl_keeps | (refine State.keeps_fst ?_ (by assumption)) | split)

theorem State.mismatch_keeps {r₀ : State} {s : State} (croft i tag : Nat) (square : Bool) (reads : List Range) (hk : State.Keeps r₀ s) :
    State.Keeps r₀ (State.mismatch s croft i tag square reads) := by
  unfold State.mismatch
  try dsimp only
  with_reducible repeat' (first | assumption | (intro _) | apply State.on_keeps | apply State.ite_keeps | apply State.stopCroft_keeps | apply State.foldl_keeps | (refine State.keeps_fst ?_ (by assumption)) | split)

theorem State.storeEcc_keeps {r₀ : State} {s : State} (croft i a : Nat) (hk : State.Keeps r₀ s) :
    State.Keeps r₀ (State.storeEcc s croft i a) := by
  unfold State.storeEcc
  try dsimp only
  with_reducible repeat' (first | assumption | (intro _) | apply State.on_keeps | apply State.ite_keeps | apply State.stopCroft_keeps | apply State.foldl_keeps | (refine State.keeps_fst ?_ (by assumption)) | split)

theorem State.tierStop_keeps {r₀ : State} {s : State} (croft i : Nat) (rs : List Range) (hk : State.Keeps r₀ s) :
    State.Keeps r₀ (State.tierStop s croft i rs) := by
  unfold State.tierStop
  try dsimp only
  with_reducible repeat' (first | assumption | (intro _) | apply State.on_keeps | apply State.ite_keeps | apply State.stopCroft_keeps | apply State.foldl_keeps | (refine State.keeps_fst ?_ (by assumption)) | split)

theorem State.tierErr_keeps {r₀ : State} {s : State} (rs : List Range) (hk : State.Keeps r₀ s) :
    State.Keeps r₀ (State.tierErr s rs) := by
  unfold State.tierErr
  try dsimp only
  with_reducible repeat' (first | assumption | (intro _) | apply State.on_keeps | apply State.ite_keeps | apply State.raiseErr_keeps | apply State.foldl_keeps | (refine State.keeps_fst ?_ (by assumption)) | split)

theorem State.ioFailed_keeps {r₀ : State} {s : State} (croft i a : Nat) (hk : State.Keeps r₀ s) :
    State.Keeps r₀ (State.ioFailed s croft i a) := by
  unfold State.ioFailed
  try dsimp only
  with_reducible repeat' (first | assumption | (intro _) | apply State.on_keeps | apply State.ite_keeps | apply State.stopCroft_keeps | apply State.tierStop_keeps | apply State.foldl_keeps | (refine State.keeps_fst ?_ (by assumption)) | split)

theorem State.accessed_keeps {r₀ : State} {s : State} (croft i : Nat) (acc : Access) (hk : State.Keeps r₀ s) :
    State.Keeps r₀ (State.accessed s croft i acc).1 := by
  unfold State.accessed
  try dsimp only
  with_reducible repeat' (first | assumption | (intro _) | apply State.on_keeps | apply State.ite_keeps | apply State.storeEcc_keeps | apply State.ioFailed_keeps | apply State.foldl_keeps | (refine State.keeps_fst ?_ (by assumption)) | split)

theorem State.runArray_keeps {r₀ : State} {s : State} (croft i : Nat) (a : Attempt) (hk : State.Keeps r₀ s) :
    State.Keeps r₀ (State.runArray s croft i a) := by
  unfold State.runArray
  try dsimp only
  with_reducible repeat' (first | assumption | (intro _) | apply State.on_keeps | apply State.ite_keeps | apply State.mismatch_keeps | apply State.foldl_keeps | (refine State.keeps_fst ?_ (by assumption)) | split)

theorem State.discardSpan_keeps {r₀ : State} {s : State} (croft i : Nat) (seen : List (Nat × F32)) (hk : State.Keeps r₀ s) :
    State.Keeps r₀ (State.discardSpan s croft i seen) := by
  unfold State.discardSpan
  try dsimp only
  with_reducible repeat' (first | assumption | (intro _) | apply State.on_keeps | apply State.ite_keeps | apply State.foldl_keeps | (refine State.keeps_fst ?_ (by assumption)) | split)

theorem State.beginArray_keeps {r₀ : State} {s : State} (croft i : Nat) (a : Attempt) (hk : State.Keeps r₀ s) :
    State.Keeps r₀ (State.beginArray s croft i a) := by
  unfold State.beginArray
  try dsimp only
  with_reducible repeat' (first | assumption | (intro _) | apply State.on_keeps | apply State.ite_keeps | apply State.runArray_keeps | apply State.discardSpan_keeps | apply State.foldl_keeps | (refine State.keeps_fst ?_ (by assumption)) | split)

theorem State.issueArray_keeps {r₀ : State} {s : State} (croft : Nat) (u : CroftUnit) (code : Nat) (acc : Access) (hk : State.Keeps r₀ s) :
    State.Keeps r₀ (State.issueArray s croft u code acc) := by
  unfold State.issueArray
  try dsimp only
  with_reducible repeat' (first | assumption | (intro _) | apply State.on_keeps | apply State.ite_keeps | apply State.reject_keeps | apply State.accessed_keeps | apply State.beginArray_keeps | apply State.foldl_keeps | (refine State.keeps_fst ?_ (by assumption)) | split)

theorem State.exportSlice_keeps {r₀ : State} {s : State} (croft : Nat) (x : Export) (d : BitVec 512) (e : Int) (hk : State.Keeps r₀ s) :
    State.Keeps r₀ (State.exportSlice s croft x d e) := by
  unfold State.exportSlice
  try dsimp only
  with_reducible repeat' (first | assumption | (intro _) | apply State.on_keeps | apply State.ite_keeps | apply State.millErr_keeps | apply State.contribute_keeps | apply State.foldl_keeps | (refine State.keeps_fst ?_ (by assumption)) | split)

theorem State.runExports_keeps {r₀ : State} {s : State} (croft : Nat) (closing : Bool) (hk : State.Keeps r₀ s) :
    State.Keeps r₀ (State.runExports s croft closing) := by
  unfold State.runExports
  try dsimp only
  with_reducible repeat' (first | assumption | (intro _) | apply State.on_keeps | apply State.ite_keeps | apply State.opDone_keeps | apply State.exportSlice_keeps | apply State.foldl_keeps | (refine State.keeps_fst ?_ (by assumption)) | split)

theorem State.handSlices_keeps {r₀ : State} {s : State} (croft i : Nat) (cells : List (List Barrel)) (hk : State.Keeps r₀ s) :
    State.Keeps r₀ (State.handSlices s croft i cells) := by
  unfold State.handSlices
  try dsimp only
  with_reducible repeat' (first | assumption | (intro _) | apply State.on_keeps | apply State.ite_keeps | apply State.opDone_keeps | apply State.runExports_keeps | apply State.foldl_keeps | (refine State.keeps_fst ?_ (by assumption)) | split)

theorem State.traceTile_keeps {r₀ : State} {s : State} (croft : Nat) (t : Tile) (f : DrainFlags) (hk : State.Keeps r₀ s) :
    State.Keeps r₀ (State.traceTile s croft t f) := by
  unfold State.traceTile
  try dsimp only
  with_reducible repeat' (first | assumption | (intro _) | apply State.on_keeps | apply State.ite_keeps | apply State.trace_keeps | apply State.foldl_keeps | (refine State.keeps_fst ?_ (by assumption)) | split)

theorem State.releaseTile_keeps {r₀ : State} {s : State} (croft : Nat) (t : Tile) (parts : List PartTile) (x : Drained) (unrepaired : Bool) (patch : Option (Tensor × QuantOut)) (hk : State.Keeps r₀ s) :
    State.Keeps r₀ (State.releaseTile s croft t parts x unrepaired patch) := by
  unfold State.releaseTile
  try dsimp only
  with_reducible repeat' (first | assumption | (intro _) | apply State.on_keeps | apply State.ite_keeps | apply State.opDone_keeps | apply State.writeSegs_keeps | apply State.markSquares_keeps | apply State.handSlices_keeps | apply State.traceTile_keeps | apply State.foldl_keeps | (refine State.keeps_fst ?_ (by assumption)) | split)

theorem State.decide_keeps {r₀ : State} {s : State} (croft : Nat) (t : Tile) (parts : List PartTile) (x : Drained) (owl : OwlSays) (hk : State.Keeps r₀ s) :
    State.Keeps r₀ (State.decide s croft t parts x owl) := by
  unfold State.decide
  try dsimp only
  with_reducible repeat' (first | assumption | (intro _) | apply State.on_keeps | apply State.ite_keeps | apply State.discardSpan_keeps | apply State.releaseTile_keeps | apply State.foldl_keeps | (refine State.keeps_fst ?_ (by assumption)) | split)

theorem State.judge_keeps {r₀ : State} {s : State} (croft : Nat) (t : Tile) (parts : List PartTile) (hk : State.Keeps r₀ s) :
    State.Keeps r₀ (State.judge s croft t parts) := by
  unfold State.judge
  try dsimp only
  with_reducible repeat' (first | assumption | (intro _) | apply State.on_keeps | apply State.ite_keeps | apply State.decide_keeps | apply State.foldl_keeps | (refine State.keeps_fst ?_ (by assumption)) | split)

theorem State.partDone_keeps {r₀ : State} {s : State} (croft : Nat) (t : Tile) (ids : List (Nat × Nat)) (hk : State.Keeps r₀ s) :
    State.Keeps r₀ (State.partDone s croft t ids) := by
  unfold State.partDone
  try dsimp only
  with_reducible repeat' (first | assumption | (intro _) | apply State.on_keeps | apply State.ite_keeps | apply State.discardSpan_keeps | apply State.judge_keeps | apply State.foldl_keeps | (refine State.keeps_fst ?_ (by assumption)) | split)

theorem State.finishTile_keeps {r₀ : State} {s : State} (croft : Nat) (t : Tile) (k : TileChecks) (hk : State.Keeps r₀ s) :
    State.Keeps r₀ (State.finishTile s croft t k) := by
  unfold State.finishTile
  try dsimp only
  with_reducible repeat' (first | assumption | (intro _) | apply State.on_keeps | apply State.ite_keeps | apply State.stopCroft_keeps | apply State.judge_keeps | apply State.partDone_keeps | apply State.foldl_keeps | (refine State.keeps_fst ?_ (by assumption)) | split)

theorem State.cacheStore_keeps {r₀ : State} {s : State} (croft i slot x lk tag : Nat) (stream : Option Nat) (rnd : Nat → Rnd) (vals : List F32) (hk : State.Keeps r₀ s) :
    State.Keeps r₀ (State.cacheStore s croft i slot x lk tag stream rnd vals) := by
  unfold State.cacheStore
  try dsimp only
  with_reducible repeat' (first | assumption | (intro _) | apply State.on_keeps | apply State.ite_keeps | apply State.devWrite_keeps | apply State.bad_keeps | apply State.foldl_keeps | (refine State.keeps_fst ?_ (by assumption)) | split)

theorem State.writeSeqEntry_keeps {r₀ : State} {s : State} (slot : Nat) (hk : State.Keeps r₀ s) :
    State.Keeps r₀ (State.writeSeqEntry s slot) := by
  unfold State.writeSeqEntry
  try dsimp only
  with_reducible repeat' (first | assumption | (intro _) | apply State.on_keeps | apply State.ite_keeps | apply State.devWrite_keeps | apply State.foldl_keeps | (refine State.keeps_fst ?_ (by assumption)) | split)

theorem State.writePageTable_keeps {r₀ : State} {s : State} (slot : Nat) (units : List Nat) (before : Nat) (hk : State.Keeps r₀ s) :
    State.Keeps r₀ (State.writePageTable s slot units before) := by
  unfold State.writePageTable
  try dsimp only
  with_reducible repeat' (first | assumption | (intro _) | apply State.on_keeps | apply State.ite_keeps | apply State.devWrite_keeps | apply State.foldl_keeps | (refine State.keeps_fst ?_ (by assumption)) | split)

theorem State.freeSlot_keeps {r₀ : State} {s : State} (slot : Nat) (hk : State.Keeps r₀ s) :
    State.Keeps r₀ (State.freeSlot s slot) := by
  unfold State.freeSlot
  try dsimp only
  with_reducible repeat' (first | assumption | (intro _) | apply State.on_keeps | apply State.ite_keeps | apply State.writePageTable_keeps | apply State.foldl_keeps | (refine State.keeps_fst ?_ (by assumption)) | split)

theorem State.fieldApplied_keeps {r₀ : State} {s : State} (kind index hi v old : Nat) (hk : State.Keeps r₀ s) :
    State.Keeps r₀ (State.fieldApplied s kind index hi v old) := by
  unfold State.fieldApplied
  try dsimp only
  with_reducible repeat' (first | assumption | (intro _) | apply State.on_keeps | apply State.ite_keeps | apply State.trace_keeps | apply State.freeSlot_keeps | apply State.foldl_keeps | (refine State.keeps_fst ?_ (by assumption)) | split)

theorem State.applyField_keeps {r₀ : State} {s : State} (kind index hi lo v : Nat) (w1c : Bool) (hk : State.Keeps r₀ s) :
    State.Keeps r₀ (State.applyField s kind index hi lo v w1c) := by
  unfold State.applyField
  try dsimp only
  with_reducible repeat' (first | assumption | (intro _) | apply State.on_keeps | apply State.ite_keeps | apply State.writeSeqEntry_keeps | apply State.fieldApplied_keeps | apply State.foldl_keeps | (refine State.keeps_fst ?_ (by assumption)) | split)

theorem State.applyShadows_keeps {r₀ : State} {s : State} (hk : State.Keeps r₀ s) :
    State.Keeps r₀ (State.applyShadows s) := by
  unfold State.applyShadows
  try dsimp only
  with_reducible repeat' (first | assumption | (intro _) | apply State.on_keeps | apply State.ite_keeps | apply State.applyField_keeps | apply State.foldl_keeps | (refine State.keeps_fst ?_ (by assumption)) | split)

theorem State.writeTallySlot_keeps {r₀ : State} {s : State} (hk : State.Keeps r₀ s) :
    State.Keeps r₀ (State.writeTallySlot s) := by
  unfold State.writeTallySlot
  try dsimp only
  with_reducible repeat' (first | assumption | (intro _) | apply State.on_keeps | apply State.ite_keeps | apply State.writeHost_keeps | apply State.foldl_keeps | (refine State.keeps_fst ?_ (by assumption)) | split)

theorem State.laneOp_keeps {r₀ : State} {s : State} (croft lop : Nat) (f : LaneRun → W64 → Nat → F32) (hk : State.Keeps r₀ s) :
    State.Keeps r₀ (State.laneOp s croft lop f) := by
  unfold State.laneOp
  try dsimp only
  with_reducible repeat' (first | assumption | (intro _) | apply State.on_keeps | apply State.ite_keeps | apply State.foldl_keeps | (refine State.keeps_fst ?_ (by assumption)) | split)

theorem State.laneBin_keeps {r₀ : State} {s : State} (croft lop : Nat) (f : F32 → F32 → F32) (hk : State.Keeps r₀ s) :
    State.Keeps r₀ (State.laneBin s croft lop f) := by
  unfold State.laneBin
  try dsimp only
  with_reducible repeat' (first | assumption | (intro _) | apply State.on_keeps | apply State.ite_keeps | apply State.laneOp_keeps | apply State.foldl_keeps | (refine State.keeps_fst ?_ (by assumption)) | split)

theorem State.laneUn_keeps {r₀ : State} {s : State} (croft lop : Nat) (f : F32 → F32) (hk : State.Keeps r₀ s) :
    State.Keeps r₀ (State.laneUn s croft lop f) := by
  unfold State.laneUn
  try dsimp only
  with_reducible repeat' (first | assumption | (intro _) | apply State.on_keeps | apply State.ite_keeps | apply State.laneOp_keeps | apply State.foldl_keeps | (refine State.keeps_fst ?_ (by assumption)) | split)

theorem State.laneReduce_keeps {r₀ : State} {s : State} (croft lop : Nat) (f : F32 → F32 → F32) (absent : F32) (hk : State.Keeps r₀ s) :
    State.Keeps r₀ (State.laneReduce s croft lop f absent) := by
  unfold State.laneReduce
  try dsimp only
  with_reducible repeat' (first | assumption | (intro _) | apply State.on_keeps | apply State.ite_keeps | apply State.laneOp_keeps | apply State.foldl_keeps | (refine State.keeps_fst ?_ (by assumption)) | split)

theorem State.laneLoad_keeps {r₀ : State} {s : State} (croft : Nat) (p : W64 → Bool) (f : LaneRun → W64 → Nat → F32 × Counts × Bool) (tag : Nat) (reads : List Range) (who : LaneRun → W64 → Nat → Bool) (hk : State.Keeps r₀ s) :
    State.Keeps r₀ (State.laneLoad s croft p f tag reads who) := by
  unfold State.laneLoad
  try dsimp only
  with_reducible repeat' (first | assumption | (intro _) | apply State.on_keeps | apply State.ite_keeps | apply State.mismatch_keeps | apply State.bad_keeps | apply State.foldl_keeps | (refine State.keeps_fst ?_ (by assumption)) | split)

theorem State.laneStore_keeps {r₀ : State} {s : State} (croft mode : Nat) (hk : State.Keeps r₀ s) :
    State.Keeps r₀ (State.laneStore s croft mode) := by
  unfold State.laneStore
  try dsimp only
  with_reducible repeat' (first | assumption | (intro _) | apply State.on_keeps | apply State.ite_keeps | apply State.foldl_keeps | (refine State.keeps_fst ?_ (by assumption)) | split)

theorem State.startLane_keeps {r₀ : State} {s : State} (croft i : Nat) (a : Attempt) (hk : State.Keeps r₀ s) :
    State.Keeps r₀ (State.startLane s croft i a) := by
  unfold State.startLane
  try dsimp only
  with_reducible repeat' (first | assumption | (intro _) | apply State.on_keeps | apply State.ite_keeps | apply State.foldl_keeps | (refine State.keeps_fst ?_ (by assumption)) | split)

theorem State.laneQuant_keeps {r₀ : State} {s : State} (croft : Nat) (l : LaneRun) (op : BitVec 512) (mode tensor : Nat) (t : Tensor) (d : DrainCtrl) (square : Bool) (hk : State.Keeps r₀ s) :
    State.Keeps r₀ (State.laneQuant s croft l op mode tensor t d square).1 := by
  unfold State.laneQuant
  try dsimp only
  with_reducible repeat' (first | assumption | (intro _) | apply State.on_keeps | apply State.ite_keeps | apply State.writeSegs_keeps | apply State.clearSquares_keeps | apply State.foldl_keeps | (refine State.keeps_fst ?_ (by assumption)) | split)

theorem State.lanePatch_keeps {r₀ : State} {s : State} (croft : Nat) (l : LaneRun) (op : BitVec 512) (tensor : Nat) (t : Tensor) (d : DrainCtrl) (q : QuantOut) (segs : List SegIn) (hk : State.Keeps r₀ s) :
    State.Keeps r₀ (State.lanePatch s croft l op tensor t d q segs) := by
  unfold State.lanePatch
  try dsimp only
  with_reducible repeat' (first | assumption | (intro _) | apply State.on_keeps | apply State.ite_keeps | apply State.writeSegs_keeps | apply State.markSquares_keeps | apply State.bad_keeps | apply State.foldl_keeps | (refine State.keeps_fst ?_ (by assumption)) | split)

theorem State.storeCache_keeps {r₀ s : State} (croft : Nat) (l : LaneRun) (op : BitVec 512) (t : Tensor) (hk : r₀.Keeps s) :
    r₀.Keeps (s.storeCache croft l op t).1 := by
  unfold State.storeCache
  refine State.foldl_keeps_fst hk fun u left j hu => ?_
  dsimp only
  split
  · exact hu
  · split
    · exact hu
    · with_reducible exact State.cacheStore_keeps _ _ _ _ _ _ _ _ _ hu

theorem State.updateQuant_keeps {r₀ : State} {s : State} (croft : Nat) (l : LaneRun) (op : BitVec 512) (mode tensor word : Nat) (genned square : Bool) (hk : State.Keeps r₀ s) :
    State.Keeps r₀ (State.updateQuant s croft l op mode tensor word genned square) := by
  unfold State.updateQuant
  try dsimp only
  with_reducible repeat' (first | assumption | (intro _) | apply State.on_keeps | apply State.ite_keeps | apply State.laneQuant_keeps | apply State.lanePatch_keeps | apply State.foldl_keeps | (refine State.keeps_fst ?_ (by assumption)) | split)

theorem State.finishUpdate_keeps {r₀ : State} {s : State} (croft : Nat) (l : LaneRun) (op : BitVec 512) (hk : State.Keeps r₀ s) :
    State.Keeps r₀ (State.finishUpdate s croft l op) := by
  unfold State.finishUpdate
  try dsimp only
  with_reducible repeat' (first | assumption | (intro _) | apply State.on_keeps | apply State.ite_keeps | apply State.writeSegs_keeps | apply State.updateQuant_keeps | apply State.foldl_keeps | (refine State.keeps_fst ?_ (by assumption)) | split)

theorem State.runStile_keeps {r₀ : State} {s : State} (croft i : Nat) (hk : State.Keeps r₀ s) :
    State.Keeps r₀ (State.runStile s croft i) := by
  unfold State.runStile
  try dsimp only
  with_reducible repeat' (first | assumption | (intro _) | apply State.on_keeps | apply State.ite_keeps | apply State.opDone_keeps | apply State.writeSegs_keeps | apply State.clearSquares_keeps | apply State.mismatch_keeps | apply State.foldl_keeps | (refine State.keeps_fst ?_ (by assumption)) | split)

theorem State.issueStile_keeps {r₀ : State} {s : State} (croft code : Nat) (acc : Access) (hk : State.Keeps r₀ s) :
    State.Keeps r₀ (State.issueStile s croft code acc) := by
  unfold State.issueStile
  try dsimp only
  with_reducible repeat' (first | assumption | (intro _) | apply State.on_keeps | apply State.ite_keeps | apply State.reject_keeps | apply State.accessed_keeps | apply State.runStile_keeps | apply State.foldl_keeps | (refine State.keeps_fst ?_ (by assumption)) | split)

theorem State.copyMove_keeps {r₀ : State} {s : State} (croft i : Nat) (hk : State.Keeps r₀ s) :
    State.Keeps r₀ (State.copyMove s croft i) := by
  unfold State.copyMove
  try dsimp only
  with_reducible repeat' (first | assumption | (intro _) | apply State.on_keeps | apply State.ite_keeps | apply State.locWrite_keeps | apply State.foldl_keeps | (refine State.keeps_fst ?_ (by assumption)) | split)

theorem State.runMove_keeps {r₀ : State} {s : State} (croft i : Nat) (hk : State.Keeps r₀ s) :
    State.Keeps r₀ (State.runMove s croft i) := by
  unfold State.runMove
  try dsimp only
  with_reducible repeat' (first | assumption | (intro _) | apply State.on_keeps | apply State.ite_keeps | apply State.opDone_keeps | apply State.copyMove_keeps | apply State.foldl_keeps | (refine State.keeps_fst ?_ (by assumption)) | split)

theorem State.issueMove_keeps {r₀ : State} {s : State} (croft kind : Nat) (acc : Access) (hk : State.Keeps r₀ s) :
    State.Keeps r₀ (State.issueMove s croft kind acc) := by
  unfold State.issueMove
  try dsimp only
  with_reducible repeat' (first | assumption | (intro _) | apply State.on_keeps | apply State.ite_keeps | apply State.reject_keeps | apply State.accessed_keeps | apply State.runMove_keeps | apply State.foldl_keeps | (refine State.keeps_fst ?_ (by assumption)) | split)

theorem State.moveDone_keeps {r₀ : State} {s : State} (croft i : Nat) (hk : State.Keeps r₀ s) :
    State.Keeps r₀ (State.moveDone s croft i) := by
  unfold State.moveDone
  try dsimp only
  with_reducible repeat' (first | assumption | (intro _) | apply State.on_keeps | apply State.ite_keeps | apply State.opDone_keeps | apply State.foldl_keeps | (refine State.keeps_fst ?_ (by assumption)) | split)

theorem State.pageSettled_keeps {r₀ : State} {s : State} (page : Nat) (hk : State.Keeps r₀ s) :
    State.Keeps r₀ (State.pageSettled s page) := by
  unfold State.pageSettled
  try dsimp only
  with_reducible repeat' (first | assumption | (intro _) | apply State.on_keeps | apply State.ite_keeps | apply State.endWait_keeps | apply State.moveDone_keeps | apply State.foldl_keeps | (refine State.keeps_fst ?_ (by assumption)) | split)

theorem State.migrateFailed_keeps {r₀ : State} {s : State} (page : Nat) (hk : State.Keeps r₀ s) :
    State.Keeps r₀ (State.migrateFailed s page) := by
  unfold State.migrateFailed
  try dsimp only
  with_reducible repeat' (first | assumption | (intro _) | apply State.on_keeps | apply State.ite_keeps | apply State.releaseWrites_keeps | apply State.endWait_keeps | apply State.tierErr_keeps | apply State.foldl_keeps | (refine State.keeps_fst ?_ (by assumption)) | split)

theorem State.pageUnread_keeps {r₀ : State} {s : State} (page : Nat) (hk : State.Keeps r₀ s) :
    State.Keeps r₀ (State.pageUnread s page) := by
  unfold State.pageUnread
  try dsimp only
  with_reducible repeat' (first | assumption | (intro _) | apply State.on_keeps | apply State.ite_keeps | apply State.releaseWrites_keeps | apply State.tierStop_keeps | apply State.ioFailed_keeps | apply State.migrateFailed_keeps | apply State.foldl_keeps | (refine State.keeps_fst ?_ (by assumption)) | split)

theorem State.scrubStore_keeps {r₀ : State} {s : State} (croft a : Nat) (hk : State.Keeps r₀ s) :
    State.Keeps r₀ (State.scrubStore s croft a) := by
  unfold State.scrubStore
  try dsimp only
  with_reducible repeat' (first | assumption | (intro _) | apply State.on_keeps | apply State.ite_keeps | apply State.raiseErr_keeps | apply State.foldl_keeps | (refine State.keeps_fst ?_ (by assumption)) | split)

theorem State.forceCommit_keeps {r₀ : State} {s : State} (croft : Nat) (hk : State.Keeps r₀ s) :
    State.Keeps r₀ (State.forceCommit s croft) := by
  unfold State.forceCommit
  try dsimp only
  with_reducible repeat' (first | assumption | (intro _) | apply State.on_keeps | apply State.ite_keeps | apply State.commitCroft_keeps | apply State.foldl_keeps | (refine State.keeps_fst ?_ (by assumption)) | split)

theorem State.reissue_keeps {r₀ : State} {s : State} (croft i : Nat) (a : Attempt) (acc : Access) (hk : State.Keeps r₀ s) :
    State.Keeps r₀ (State.reissue s croft i a acc) := by
  unfold State.reissue
  try dsimp only
  with_reducible repeat' (first | assumption | (intro _) | apply State.on_keeps | apply State.ite_keeps | apply State.accessed_keeps | apply State.beginArray_keeps | apply State.startLane_keeps | apply State.runStile_keeps | apply State.runMove_keeps | apply State.foldl_keeps | (refine State.keeps_fst ?_ (by assumption)) | split)

theorem State.writeStream_keeps {r₀ : State} {s : State} (i draws pos : Nat) (hk : State.Keeps r₀ s) :
    State.Keeps r₀ (State.writeStream s i draws pos) := by
  unfold State.writeStream
  try dsimp only
  with_reducible repeat' (first | assumption | (intro _) | apply State.on_keeps | apply State.ite_keeps | apply State.devWrite_keeps | apply State.foldl_keeps | (refine State.keeps_fst ?_ (by assumption)) | split)

theorem State.checkStreams_keeps {r₀ s : State} (l : List Nat) (n : Nat) (hk : r₀.Keeps s) : r₀.Keeps (s.checkStreams l n).1 := by
  induction l generalizing s n with
  | nil => exact hk
  | cons i rest ih =>
    unfold State.checkStreams
    dsimp only
    split
    · exact ih _ hk
    · split
      · exact hk
      · exact ih _ (State.event_keeps _ _ _ (State.writeStream_keeps _ _ _ hk))

theorem State.acceptRestore_keeps {r₀ s : State} (w : Wait) (snapId : Nat) (digest keyCheck : BitVec 64) (barrier shift : Nat) (verified absent : Bool)
    (hk : r₀.Keeps s) : r₀.Keeps (s.acceptRestore w snapId digest keyCheck barrier shift verified absent) := by
  have h := State.checkStreams_keeps (List.range s.m.streamTable.2) 0 hk
  unfold State.acceptRestore
  split <;> rename_i heq <;> rw [heq] at h
  · exact State.endWait_keeps _ _ _ _ _ (State.on_keeps h)
  · exact State.endWait_keeps _ _ _ _ _ (State.on_keeps h)

theorem State.failRestore_keeps {r₀ : State} {s : State} (w : Wait) (status : Nat) (hk : State.Keeps r₀ s) :
    State.Keeps r₀ (State.failRestore s w status) := by
  unfold State.failRestore
  try dsimp only
  with_reducible repeat' (first | assumption | (intro _) | apply State.on_keeps | apply State.ite_keeps | apply State.endWait_keeps | apply State.foldl_keeps | (refine State.keeps_fst ?_ (by assumption)) | split)

theorem State.twinSays_keeps {r₀ : State} {s : State} (source snapId : Nat) (digest : BitVec 64) (came : Nat) (hk : State.Keeps r₀ s) :
    State.Keeps r₀ (State.twinSays s source snapId digest came) := by
  unfold State.twinSays
  try dsimp only
  with_reducible repeat' (first | assumption | (intro _) | apply State.on_keeps | apply State.ite_keeps | apply State.acceptRestore_keeps | apply State.failRestore_keeps | apply State.twinDigest_keeps | apply State.foldl_keeps | (refine State.keeps_fst ?_ (by assumption)) | split)

theorem State.twinDigest_keeps {r₀ : State} {s : State} (source snapId : Nat) (digest : BitVec 64) (hk : State.Keeps r₀ s) :
    State.Keeps r₀ (State.twinDigest s source snapId digest) := by
  unfold State.twinDigest
  try dsimp only
  with_reducible repeat' (first | assumption | (intro _) | apply State.on_keeps | apply State.ite_keeps | apply State.twinSays_keeps | apply State.foldl_keeps | (refine State.keeps_fst ?_ (by assumption)) | split)

theorem State.recordedDigest_keeps {r₀ : State} {s : State} (w : Wait) (hk : State.Keeps r₀ s) :
    State.Keeps r₀ (State.recordedDigest s w) := by
  unfold State.recordedDigest
  try dsimp only
  with_reducible repeat' (first | assumption | (intro _) | apply State.on_keeps | apply State.ite_keeps | apply State.acceptRestore_keeps | apply State.failRestore_keeps | apply State.foldl_keeps | (refine State.keeps_fst ?_ (by assumption)) | split)

theorem State.takeOperand_keeps {r₀ : State} {s : State} (o : Operand) (adderOk : Bool) (hk : State.Keeps r₀ s) :
    State.Keeps r₀ (State.takeOperand s o adderOk) := by
  unfold State.takeOperand
  try dsimp only
  with_reducible repeat' (first | assumption | (intro _) | apply State.on_keeps | apply State.ite_keeps | apply State.millErr_keeps | apply State.progress_keeps | apply State.maybeScalars_keeps | apply State.foldl_keeps | (refine State.keeps_fst ?_ (by assumption)) | split)

theorem State.secondCopy_keeps {r₀ : State} {s : State} (first : Operand) (second : Operand) (adderOk : Bool) (hk : State.Keeps r₀ s) :
    State.Keeps r₀ (State.secondCopy s first second adderOk) := by
  unfold State.secondCopy
  try dsimp only
  with_reducible repeat' (first | assumption | (intro _) | apply State.on_keeps | apply State.ite_keeps | apply State.raiseErr_keeps | apply State.takeOperand_keeps | apply State.foldl_keeps | (refine State.keeps_fst ?_ (by assumption)) | split)

theorem State.millArrive_keeps {r₀ s : State} (p : Pkt) (adderOk : Bool) (hk : r₀.Keeps s) : r₀.Keeps (s.millArrive p adderOk) := by
  unfold State.millArrive
  extract_lets
  split
  · exact hk
  · split
    · exact hk
    · refine State.ite_keeps hk ?_
      extract_lets
      split
      · exact State.secondCopy_keeps _ _ _ hk
      · exact State.ite_keeps (State.takeOperand_keeps _ _ (State.on_keeps hk))
          (State.ite_keeps (State.takeOperand_keeps _ _ (State.on_keeps (State.on_keeps hk))) (State.on_keeps hk))

theorem State.sendDigests_keeps {r₀ : State} {s : State} (g : Nat) (d : BitVec 512) (dest : Nat) (hk : State.Keeps r₀ s) :
    State.Keeps r₀ (State.sendDigests s g d dest) := by
  unfold State.sendDigests
  try dsimp only
  with_reducible repeat' (first | assumption | (intro _) | apply State.on_keeps | apply State.ite_keeps | apply State.foldl_keeps | (refine State.keeps_fst ?_ (by assumption)) | split)

theorem State.compareStep_keeps {r₀ : State} {s : State} (g : Nat) (d : BitVec 512) (step : Nat) (hk : State.Keeps r₀ s) :
    State.Keeps r₀ (State.compareStep s g d step) := by
  unfold State.compareStep
  try dsimp only
  with_reducible repeat' (first | assumption | (intro _) | apply State.on_keeps | apply State.ite_keeps | apply State.millErr_keeps | apply State.foldl_keeps | (refine State.keeps_fst ?_ (by assumption)) | split)

theorem State.takeDigests_keeps {r₀ : State} {s : State} (g : Nat) (d : BitVec 512) (rank : Nat) (ys : List Digest) (hk : State.Keeps r₀ s) :
    State.Keeps r₀ (State.takeDigests s g d rank ys) := by
  unfold State.takeDigests
  try dsimp only
  with_reducible repeat' (first | assumption | (intro _) | apply State.on_keeps | apply State.ite_keeps | apply State.compareStep_keeps | apply State.foldl_keeps | (refine State.keeps_fst ?_ (by assumption)) | split)

theorem State.compareTwins_keeps {r₀ : State} {s : State} (hk : State.Keeps r₀ s) :
    State.Keeps r₀ (State.compareTwins s) := by
  unfold State.compareTwins
  try dsimp only
  with_reducible repeat' (first | assumption | (intro _) | apply State.on_keeps | apply State.ite_keeps | apply State.millErr_keeps | apply State.foldl_keeps | (refine State.keeps_fst ?_ (by assumption)) | split)

theorem State.digestsArrive_keeps {r₀ : State} {s : State} (p : Pkt) (hk : State.Keeps r₀ s) :
    State.Keeps r₀ (State.digestsArrive s p) := by
  unfold State.digestsArrive
  try dsimp only
  with_reducible repeat' (first | assumption | (intro _) | apply State.on_keeps | apply State.ite_keeps | apply State.takeDigests_keeps | apply State.compareTwins_keeps | apply State.foldl_keeps | (refine State.keeps_fst ?_ (by assumption)) | split)

theorem State.compareDigests_keeps {r₀ : State} {s : State} (origin : Nat) (hk : State.Keeps r₀ s) :
    State.Keeps r₀ (State.compareDigests s origin) := by
  unfold State.compareDigests
  try dsimp only
  with_reducible repeat' (first | assumption | (intro _) | apply State.on_keeps | apply State.ite_keeps | apply State.sendDigests_keeps | apply State.takeDigests_keeps | apply State.foldl_keeps | (refine State.keeps_fst ?_ (by assumption)) | split)

theorem State.resultArrive_keeps {r₀ : State} {s : State} (p : Pkt) (_adderOk : Bool) (hk : State.Keeps r₀ s) :
    State.Keeps r₀ (State.resultArrive s p _adderOk) := by
  unfold State.resultArrive
  try dsimp only
  with_reducible repeat' (first | assumption | (intro _) | apply State.on_keeps | apply State.ite_keeps | apply State.sendDown_keeps | apply State.endFence_keeps | apply State.answerRaise_keeps | apply State.twinDigest_keeps | apply State.digestsArrive_keeps | apply State.foldl_keeps | (refine State.keeps_fst ?_ (by assumption)) | split)

theorem State.bcastArrive_keeps {r₀ : State} {s : State} (p : Pkt) (hk : State.Keeps r₀ s) :
    State.Keeps r₀ (State.bcastArrive s p) := by
  unfold State.bcastArrive
  try dsimp only
  with_reducible repeat' (first | assumption | (intro _) | apply State.on_keeps | apply State.ite_keeps | apply State.devWrite_keeps | apply State.sendDown_keeps | apply State.runExports_keeps | apply State.foldl_keeps | (refine State.keeps_fst ?_ (by assumption)) | split)

theorem State.sendMarkers_keeps {r₀ : State} {s : State} (hk : State.Keeps r₀ s) :
    State.Keeps r₀ (State.sendMarkers s) := by
  unfold State.sendMarkers
  try dsimp only
  with_reducible repeat' (first | assumption | (intro _) | apply State.on_keeps | apply State.ite_keeps | apply State.progress_keeps | apply State.foldl_keeps | (refine State.keeps_fst ?_ (by assumption)) | split)

theorem State.compareAll_keeps {r₀ : State} {s : State} (hk : State.Keeps r₀ s) :
    State.Keeps r₀ (State.compareAll s) := by
  unfold State.compareAll
  try dsimp only
  with_reducible repeat' (first | assumption | (intro _) | apply State.on_keeps | apply State.ite_keeps | apply State.compareDigests_keeps | apply State.foldl_keeps | (refine State.keeps_fst ?_ (by assumption)) | split)

theorem State.crierArrive_keeps {r₀ : State} {s : State} (port : Nat) (p : Pkt) (hk : State.Keeps r₀ s) :
    State.Keeps r₀ (State.crierArrive s port p) := by
  unfold State.crierArrive
  try dsimp only
  with_reducible repeat' (first | assumption | (intro _) | apply State.on_keeps | apply State.ite_keeps | apply State.takeReport_keeps | apply State.answerSuspect_keeps | apply State.compareAll_keeps | apply State.foldl_keeps | (refine State.keeps_fst ?_ (by assumption)) | split)

theorem State.bellArrive_keeps {r₀ : State} {s : State} (port : Nat) (p : Pkt) (hk : State.Keeps r₀ s) :
    State.Keeps r₀ (State.bellArrive s port p) := by
  unfold State.bellArrive
  try dsimp only
  with_reducible repeat' (first | assumption | (intro _) | apply State.on_keeps | apply State.ite_keeps | apply State.takeBell_keeps | apply State.abortNow_keeps | apply State.foldl_keeps | (refine State.keeps_fst ?_ (by assumption)) | split)

theorem State.deliverPkt_keeps {r₀ : State} {s : State} (port : Nat) (p : Pkt) (adderOk : Bool) (hk : State.Keeps r₀ s) :
    State.Keeps r₀ (State.deliverPkt s port p adderOk) := by
  unfold State.deliverPkt
  try dsimp only
  with_reducible repeat' (first | assumption | (intro _) | apply State.on_keeps | apply State.ite_keeps | apply State.devWrite_keeps | apply State.millArrive_keeps | apply State.resultArrive_keeps | apply State.bcastArrive_keeps | apply State.crierArrive_keeps | apply State.bellArrive_keeps | apply State.foldl_keeps | (refine State.keeps_fst ?_ (by assumption)) | split)

theorem State.deliverTurn_keeps {r₀ s : State} (port : Nat) (p : Pkt) (adderOk : Bool) (n : Nat) (hk : r₀.Keeps s) : r₀.Keeps (s.deliverTurn port p adderOk n) := by
  induction n generalizing s p with
  | zero => exact hk
  | succ k ih =>
    unfold State.deliverTurn
    try dsimp only
    with_reducible repeat' (first | assumption | apply ih | apply State.on_keeps | apply State.ite_keeps | apply State.on_keeps | apply State.deliver_keeps | apply State.deliverPkt_keeps | apply State.foldl_keeps | (intro _) | split)

theorem State.acknowledge_keeps {r₀ : State} {s : State} (flow : FlowKey) (seq : Nat) (hk : State.Keeps r₀ s) :
    State.Keeps r₀ (State.acknowledge s flow seq) := by
  unfold State.acknowledge
  try dsimp only
  with_reducible repeat' (first | assumption | (intro _) | apply State.on_keeps | apply State.ite_keeps | apply State.sendMarkers_keeps | apply State.foldl_keeps | (refine State.keeps_fst ?_ (by assumption)) | split)

theorem State.receive_keeps {r₀ : State} {s : State} (port : Nat) (p : Pkt) (adderOk : Bool) (hk : State.Keeps r₀ s) :
    State.Keeps r₀ (State.receive s port p adderOk) := by
  unfold State.receive
  try dsimp only
  with_reducible repeat' (first | assumption | (intro _) | apply State.on_keeps | apply State.ite_keeps | apply State.deliverTurn_keeps | apply State.acknowledge_keeps | apply State.foldl_keeps | (refine State.keeps_fst ?_ (by assumption)) | split)

theorem State.arrive_keeps {r₀ : State} {s : State} (x : Crossing) (hk : State.Keeps r₀ s) :
    State.Keeps r₀ (State.arrive s x) := by
  unfold State.arrive
  try dsimp only
  with_reducible repeat' (first | assumption | (intro _) | apply State.on_keeps | apply State.ite_keeps | apply State.receive_keeps | apply State.foldl_keeps | (refine State.keeps_fst ?_ (by assumption)) | split)

theorem State.cross_keeps {r₀ : State} {s : State} (hk : State.Keeps r₀ s) :
    State.Keeps r₀ (State.cross s) := by
  unfold State.cross
  try dsimp only
  with_reducible repeat' (first | assumption | (intro _) | apply State.on_keeps | apply State.ite_keeps | apply State.maybeScalars_keeps | apply State.contributeAll_keeps | apply State.compareAll_keeps | apply State.arrive_keeps | apply State.foldl_keeps | (refine State.keeps_fst ?_ (by assumption)) | split)

theorem packetRow_keeps {r₀ : State} (t port : Nat) (p : Pkt) (adderOk mine : Bool) {s : State} (hk : State.Keeps r₀ s) :
    State.Keeps r₀ (packetRow t port p adderOk mine s) := by
  unfold packetRow
  try dsimp only
  with_reducible repeat' (first | assumption | (intro _) | apply State.on_keeps | apply State.ite_keeps | apply State.arrive_keeps | apply State.foldl_keeps | (refine State.keeps_fst ?_ (by assumption)) | split)

theorem State.takeSlot_keeps {r₀ : State} {s : State} (port : Nat) (start : Bool) (bytes : List Byte) (adderOk : Bool) (hk : State.Keeps r₀ s) :
    State.Keeps r₀ (State.takeSlot s port start bytes adderOk) := by
  unfold State.takeSlot
  try dsimp only
  with_reducible repeat' (first | assumption | (intro _) | apply State.on_keeps | apply State.ite_keeps | apply State.arrive_keeps | apply State.foldl_keeps | (refine State.keeps_fst ?_ (by assumption)) | split)

theorem State.takeSlots_keeps {r₀ : State} {s : State} (port : Nat) (f : Flit) (adderOk : Bool) (hk : State.Keeps r₀ s) :
    State.Keeps r₀ (State.takeSlots s port f adderOk) := by
  unfold State.takeSlots
  try dsimp only
  with_reducible repeat' (first | assumption | (intro _) | apply State.on_keeps | apply State.ite_keeps | apply State.takeSlot_keeps | apply State.foldl_keeps | (refine State.keeps_fst ?_ (by assumption)) | split)

theorem State.writeImage_keeps {r₀ : State} {s : State} (i : Image) (off : Nat) (bs : List Byte) (hk : State.Keeps r₀ s) :
    State.Keeps r₀ (State.writeImage s i off bs) := by
  unfold State.writeImage
  try dsimp only
  with_reducible repeat' (first | assumption | (intro _) | apply State.on_keeps | apply State.ite_keeps | apply State.writeHost_keeps | apply State.abandonImage_keeps | apply State.foldl_keeps | (refine State.keeps_fst ?_ (by assumption)) | split)

theorem State.appendImage_keeps {r₀ : State} {s : State} (bs : List Byte) (hk : State.Keeps r₀ s) :
    State.Keeps r₀ (State.appendImage s bs) := by
  unfold State.appendImage
  try dsimp only
  with_reducible repeat' (first | assumption | (intro _) | apply State.on_keeps | apply State.ite_keeps | apply State.abandonImage_keeps | apply State.writeImage_keeps | apply State.foldl_keeps | (refine State.keeps_fst ?_ (by assumption)) | split)

theorem State.sealImage_keeps {r₀ : State} {s : State} (hk : State.Keeps r₀ s) :
    State.Keeps r₀ (State.sealImage s) := by
  unfold State.sealImage
  try dsimp only
  with_reducible repeat' (first | assumption | (intro _) | apply State.on_keeps | apply State.ite_keeps | apply State.writeImage_keeps | apply State.foldl_keeps | (refine State.keeps_fst ?_ (by assumption)) | split)

theorem State.takeBarrier_keeps {r₀ : State} {s : State} (step time : Nat) (hk : State.Keeps r₀ s) :
    State.Keeps r₀ (State.takeBarrier s step time) := by
  unfold State.takeBarrier
  try dsimp only
  with_reducible repeat' (first | assumption | (intro _) | apply State.on_keeps | apply State.ite_keeps | apply State.appendImage_keeps | apply State.sealImage_keeps | apply State.foldl_keeps | (refine State.keeps_fst ?_ (by assumption)) | split)

theorem State.copyFails_keeps {r₀ : State} {s : State} (page : Nat) (hk : State.Keeps r₀ s) :
    State.Keeps r₀ (State.copyFails s page) := by
  unfold State.copyFails
  try dsimp only
  with_reducible repeat' (first | assumption | (intro _) | apply State.on_keeps | apply State.ite_keeps | apply State.abandonImage_keeps | apply State.releaseWrites_keeps | apply State.ioFailed_keeps | apply State.foldl_keeps | (refine State.keeps_fst ?_ (by assumption)) | split)

theorem State.grantAt_keeps {r₀ : State} {s : State} (step : Nat) (hk : State.Keeps r₀ s) :
    State.Keeps r₀ (State.grantAt s step) := by
  unfold State.grantAt
  try dsimp only
  with_reducible repeat' (first | assumption | (intro _) | apply State.on_keeps | apply State.ite_keeps | apply State.writeSeqEntry_keeps | apply State.writePageTable_keeps | apply State.foldl_keeps | (refine State.keeps_fst ?_ (by assumption)) | split)

theorem State.streamsAt_keeps {r₀ : State} {s : State} (hk : State.Keeps r₀ s) :
    State.Keeps r₀ (State.streamsAt s) := by
  unfold State.streamsAt
  try dsimp only
  with_reducible repeat' (first | assumption | (intro _) | apply State.on_keeps | apply State.ite_keeps | apply State.writeStream_keeps | apply State.foldl_keeps | (refine State.keeps_fst ?_ (by assumption)) | split)

theorem State.shadowsAt_keeps {r₀ : State} {s : State} (step : Nat) (hk : State.Keeps r₀ s) :
    State.Keeps r₀ (State.shadowsAt s step) := by
  unfold State.shadowsAt
  try dsimp only
  with_reducible repeat' (first | assumption | (intro _) | apply State.on_keeps | apply State.ite_keeps | apply State.endWait_keeps | apply State.applyShadows_keeps | apply State.foldl_keeps | (refine State.keeps_fst ?_ (by assumption)) | split)

theorem State.intoStep_keeps {r₀ : State} {s : State} (step time : Nat) (first : Bool) (hk : State.Keeps r₀ s) :
    State.Keeps r₀ (State.intoStep s step time first) := by
  unfold State.intoStep
  try dsimp only
  with_reducible repeat' (first | assumption | (intro _) | apply State.on_keeps | apply State.ite_keeps | apply State.abandonImage_keeps | apply State.takeBarrier_keeps | apply State.foldl_keeps | (refine State.keeps_fst ?_ (by assumption)) | split)

theorem State.firstBoundary_keeps {r₀ : State} {s : State} (hk : State.Keeps r₀ s) :
    State.Keeps r₀ (State.firstBoundary s) := by
  unfold State.firstBoundary
  try dsimp only
  with_reducible repeat' (first | assumption | (intro _) | apply State.on_keeps | apply State.ite_keeps | apply State.endWait_keeps | apply State.grantAt_keeps | apply State.shadowsAt_keeps | apply State.intoStep_keeps | apply State.foldl_keeps | (refine State.keeps_fst ?_ (by assumption)) | split)

theorem State.stopAt_keeps {r₀ : State} {s : State} (step : Nat) (hk : State.Keeps r₀ s) :
    State.Keeps r₀ (State.stopAt s step) := by
  unfold State.stopAt
  try dsimp only
  with_reducible repeat' (first | assumption | (intro _) | apply State.on_keeps | apply State.ite_keeps | apply State.endWait_keeps | apply State.writeTallySlot_keeps | apply State.shadowsAt_keeps | apply State.foldl_keeps | (refine State.keeps_fst ?_ (by assumption)) | split)

theorem State.turnStep_keeps {r₀ : State} {s : State} (step time : Nat) (hk : State.Keeps r₀ s) :
    State.Keeps r₀ (State.turnStep s step time) := by
  unfold State.turnStep
  try dsimp only
  with_reducible repeat' (first | assumption | (intro _) | apply State.on_keeps | apply State.ite_keeps | apply State.postEvent_keeps | apply State.writeTallySlot_keeps | apply State.grantAt_keeps | apply State.streamsAt_keeps | apply State.shadowsAt_keeps | apply State.intoStep_keeps | apply State.foldl_keeps | (refine State.keeps_fst ?_ (by assumption)) | split)

theorem State.wipeCroft_keeps {r₀ : State} {s : State} (n : Nat) (hk : State.Keeps r₀ s) :
    State.Keeps r₀ (State.wipeCroft s n) := by
  unfold State.wipeCroft
  try dsimp only
  with_reducible repeat' (first | assumption | (intro _) | apply State.on_keeps | apply State.ite_keeps | apply State.loseStore_keeps | apply State.foldl_keeps | (refine State.keeps_fst ?_ (by assumption)) | split)

theorem State.grade_keeps {r₀ s : State} (e : ErrorRec) (hk : r₀.Keeps s) : r₀.Keeps (s.grade e).1 := by
  unfold State.grade
  dsimp only
  repeat' (first | exact hk | exact State.on_keeps hk | split)

theorem State.beginReset_keeps {r₀ : State} {s : State} (d : Domain) (e : ErrorRec) (hk : State.Keeps r₀ s) :
    State.Keeps r₀ (State.beginReset s d e) := by
  unfold State.beginReset
  try dsimp only
  with_reducible repeat' (first | assumption | (intro _) | apply State.on_keeps | apply State.ite_keeps | apply State.raiseBell_keeps | apply State.wipeCroft_keeps | apply State.foldl_keeps | (refine State.keeps_fst ?_ (by assumption)) | split)

theorem State.replayOnly_keeps {r₀ : State} {s : State} (e : ErrorRec) (hk : State.Keeps r₀ s) :
    State.Keeps r₀ (State.replayOnly s e) := by
  unfold State.replayOnly
  try dsimp only
  with_reducible repeat' (first | assumption | (intro _) | apply State.on_keeps | apply State.ite_keeps | apply State.cross_keeps | apply State.foldl_keeps | (refine State.keeps_fst ?_ (by assumption)) | split)

theorem State.startHandling_keeps {r₀ : State} {s : State} (e : ErrorRec) (hk : State.Keeps r₀ s) :
    State.Keeps r₀ (State.startHandling s e) := by
  unfold State.startHandling
  try dsimp only
  with_reducible repeat' (first | assumption | (intro _) | apply State.on_keeps | apply State.ite_keeps | apply State.beginReset_keeps | apply State.replayOnly_keeps | apply State.foldl_keeps | (refine State.keeps_fst ?_ (by assumption)) | split)

theorem State.countError_keeps {r₀ : State} {s : State} (e : ErrorRec) (hk : State.Keeps r₀ s) :
    State.Keeps r₀ (State.countError s e) := by
  unfold State.countError
  try dsimp only
  with_reducible repeat' (first | assumption | (intro _) | apply State.on_keeps | apply State.ite_keeps | apply State.event_keeps | apply State.traceErr_keeps | apply State.detect_keeps | apply State.foldl_keeps | (refine State.keeps_fst ?_ (by assumption)) | split)

theorem State.place_keeps {r₀ s : State} (e : ErrorRec) (hk : r₀.Keeps s) : ∀ t, s.place e = some t → r₀.Keeps t := by
  intro t
  unfold State.place
  dsimp only
  repeat' split
  all_goals (intro h; first | (cases h; first | exact hk | exact State.startHandling_keeps _ hk) | (cases h))

theorem State.letIn_keeps {r₀ s : State} (e : ErrorRec) (hk : r₀.Keeps s) : r₀.Keeps (s.letIn e) := by
  have hn : r₀.Keeps (s.on (fun b => (b.noteWriter e).detection e)) := State.on_keeps hk
  have hm : r₀.Keeps (if (s.on (fun b => (b.noteWriter e).detection e)).m.merges e = true then (s.on (fun b => (b.noteWriter e).detection e), e)
      else (s.on (fun b => (b.noteWriter e).detection e)).grade e).1 := by
    split
    · exact hn
    · exact State.grade_keeps e hn
  unfold State.letIn
  dsimp only
  revert hm
  generalize (if (s.on (fun b => (b.noteWriter e).detection e)).m.merges e = true then (s.on (fun b => (b.noteWriter e).detection e), e)
      else (s.on (fun b => (b.noteWriter e).detection e)).grade e) = p
  intro hg
  refine State.ite_keeps (State.raiseErr_keeps _ hg) ?_
  split
  · rename_i t ht
    exact State.place_keeps _ (State.countError_keeps _ hg) t ht
  · exact State.ite_keeps (State.startHandling_keeps _ (State.countError_keeps _ (State.on_keeps (State.countError_keeps _ hg))))
      (State.countError_keeps _ (State.on_keeps (State.countError_keeps _ hg)))

theorem State.takeQueued_keeps {r₀ s : State} (n : Nat) (hk : r₀.Keeps s) : r₀.Keeps (s.takeQueued n) := by
  induction n generalizing s with
  | zero => exact hk
  | succ k ih =>
    unfold State.takeQueued
    try dsimp only
    with_reducible repeat' (first | assumption | apply ih | apply State.on_keeps | apply State.ite_keeps | apply State.on_keeps | apply State.startHandling_keeps | apply State.foldl_keeps | (intro _) | split)

theorem State.drainLog_keeps {r₀ : State} {s : State} (hk : State.Keeps r₀ s) :
    State.Keeps r₀ (State.drainLog s) := by
  unfold State.drainLog
  try dsimp only
  with_reducible repeat' (first | assumption | (intro _) | apply State.on_keeps | apply State.ite_keeps | apply State.traceErr_keeps | apply State.foldl_keeps | (refine State.keeps_fst ?_ (by assumption)) | split)

theorem State.escalate_keeps {r₀ : State} {s : State} (r : Reset) (late : Bool) (hk : State.Keeps r₀ s) :
    State.Keeps r₀ (State.escalate s r late) := by
  unfold State.escalate
  try dsimp only
  with_reducible repeat' (first | assumption | (intro _) | apply State.on_keeps | apply State.ite_keeps | apply State.beginReset_keeps | apply State.countError_keeps | apply State.foldl_keeps | (refine State.keeps_fst ?_ (by assumption)) | split)

theorem State.handlerFails_keeps {r₀ : State} {s : State} (handled : Option ErrorRec) (hk : State.Keeps r₀ s) :
    State.Keeps r₀ (State.handlerFails s handled) := by
  unfold State.handlerFails
  try dsimp only
  with_reducible repeat' (first | assumption | (intro _) | apply State.on_keeps | apply State.ite_keeps | apply State.beginReset_keeps | apply State.countError_keeps | apply State.escalate_keeps | apply State.foldl_keeps | (refine State.keeps_fst ?_ (by assumption)) | split)

theorem State.leaveService_keeps {r₀ : State} {s : State} (reason : Nat) (hk : State.Keeps r₀ s) :
    State.Keeps r₀ (State.leaveService s reason) := by
  unfold State.leaveService
  try dsimp only
  with_reducible repeat' (first | assumption | (intro _) | apply State.on_keeps | apply State.ite_keeps | apply State.enterOos_keeps | apply State.foldl_keeps | (refine State.keeps_fst ?_ (by assumption)) | split)

theorem State.resetsTooMany_keeps {r₀ : State} {s : State} (reason code : Nat) (hk : State.Keeps r₀ s) :
    State.Keeps r₀ (State.resetsTooMany s reason code) := by
  unfold State.resetsTooMany
  try dsimp only
  with_reducible repeat' (first | assumption | (intro _) | apply State.on_keeps | apply State.ite_keeps | apply State.raiseErr_keeps | apply State.leaveService_keeps | apply State.foldl_keeps | (refine State.keeps_fst ?_ (by assumption)) | split)

theorem State.diagnosed_keeps {r₀ : State} {s : State} (n : Nat) (ok : Bool) (hk : State.Keeps r₀ s) :
    State.Keeps r₀ (State.diagnosed s n ok) := by
  unfold State.diagnosed
  try dsimp only
  with_reducible repeat' (first | assumption | (intro _) | apply State.on_keeps | apply State.ite_keeps | apply State.raiseErr_keeps | apply State.leaveService_keeps | apply State.foldl_keeps | (refine State.keeps_fst ?_ (by assumption)) | split)

theorem State.settleSuspect_keeps {r₀ : State} {s : State} (n : Nat) (diagnosticOk : Bool) (hk : State.Keeps r₀ s) :
    State.Keeps r₀ (State.settleSuspect s n diagnosticOk) := by
  unfold State.settleSuspect
  try dsimp only
  with_reducible repeat' (first | assumption | (intro _) | apply State.on_keeps | apply State.ite_keeps | apply State.diagnosed_keeps | apply State.foldl_keeps | (refine State.keeps_fst ?_ (by assumption)) | split)

theorem State.activeSlot_keeps {r₀ : State} {s : State} (n : Nat) (passed released diagnosticOk : Bool) (hk : State.Keeps r₀ s) :
    State.Keeps r₀ (State.activeSlot s n passed released diagnosticOk) := by
  unfold State.activeSlot
  try dsimp only
  with_reducible repeat' (first | assumption | (intro _) | apply State.on_keeps | apply State.ite_keeps | apply State.raiseErr_keeps | apply State.diagnosed_keeps | apply State.foldl_keeps | (refine State.keeps_fst ?_ (by assumption)) | split)

theorem State.spareSlotTest_keeps {r₀ : State} {s : State} (d : Nat) (passed : Bool) (hk : State.Keeps r₀ s) :
    State.Keeps r₀ (State.spareSlotTest s d passed) := by
  unfold State.spareSlotTest
  try dsimp only
  with_reducible repeat' (first | assumption | (intro _) | apply State.on_keeps | apply State.ite_keeps | apply State.raiseErr_keeps | apply State.foldl_keeps | (refine State.keeps_fst ?_ (by assumption)) | split)

theorem State.streamLog_keeps {r₀ s : State} (bytes : List Byte) (j n : Nat) (hk : r₀.Keeps s) : r₀.Keeps (s.streamLog bytes j n) := by
  induction n generalizing s j with
  | zero => exact hk
  | succ k ih =>
    unfold State.streamLog
    try dsimp only
    with_reducible repeat' (first | assumption | apply ih | apply State.on_keeps | apply State.ite_keeps | apply State.trace_keeps | apply State.foldl_keeps | (intro _) | split)

theorem State.dropMain_keeps {r₀ s : State} (hk : r₀.Keeps s) : r₀.Keeps s.dropMain := by
  have hv := State.voidSlot_keeps hk
  refine ⟨hv.1, fun w => ?_⟩
  have h := hv.2 w
  simp only [State.wf, Memory.wf, Bool.and_eq_true] at h
  simp [State.wf, Memory.wf, State.dropMain, Mem.wf, Mem.wfFrom, storesFrom]
  exact h.1.2

theorem State.powerMain_keeps {r₀ : State} {s : State} (x : BootSense) (hk : State.Keeps r₀ s) :
    State.Keeps r₀ (State.powerMain s x) := by
  unfold State.powerMain
  try dsimp only
  with_reducible repeat' (first | assumption | (intro _) | apply State.on_keeps | apply State.ite_keeps | apply State.enterOos_keeps | apply State.foldl_keeps | (refine State.keeps_fst ?_ (by assumption)) | split)

theorem State.bootFrom3_keeps {r₀ : State} {s : State} (x : BootSense) (hk : State.Keeps r₀ s) :
    State.Keeps r₀ (State.bootFrom3 s x) := by
  unfold State.bootFrom3
  try dsimp only
  with_reducible repeat' (first | assumption | (intro _) | apply State.on_keeps | apply State.ite_keeps | apply State.powerMain_keeps | apply State.foldl_keeps | (refine State.keeps_fst ?_ (by assumption)) | split)

theorem State.moduleReset_keeps {r₀ : State} {s : State} (x : BootSense) (hk : State.Keeps r₀ s) :
    State.Keeps r₀ (State.moduleReset s x) := by
  unfold State.moduleReset
  try dsimp only
  with_reducible repeat' (first | assumption | (intro _) | apply State.on_keeps | apply State.ite_keeps | apply State.dropMain_keeps | apply State.bootFrom3_keeps | apply State.foldl_keeps | (refine State.keeps_fst ?_ (by assumption)) | split)

theorem State.classM_keeps {r₀ : State} {s : State} (e : ErrorRec) (hk : State.Keeps r₀ s) :
    State.Keeps r₀ (State.classM s e) := by
  unfold State.classM
  try dsimp only
  with_reducible repeat' (first | assumption | (intro _) | apply State.on_keeps | apply State.ite_keeps | apply State.raiseBell_keeps | apply State.countError_keeps | apply State.foldl_keeps | (refine State.keeps_fst ?_ (by assumption)) | split)

theorem State.shedInput_keeps {r₀ : State} {s : State} (delay : Nat) (hk : State.Keeps r₀ s) :
    State.Keeps r₀ (State.shedInput s delay) := by
  unfold State.shedInput
  try dsimp only
  with_reducible repeat' (first | assumption | (intro _) | apply State.on_keeps | apply State.ite_keeps | apply State.classM_keeps | apply State.foldl_keeps | (refine State.keeps_fst ?_ (by assumption)) | split)

theorem State.powerDown_keeps {r₀ : State} {s : State} (hk : State.Keeps r₀ s) :
    State.Keeps r₀ (State.powerDown s) := by
  unfold State.powerDown
  try dsimp only
  with_reducible repeat' (first | assumption | (intro _) | apply State.on_keeps | apply State.ite_keeps | apply State.dropMain_keeps | apply State.foldl_keeps | (refine State.keeps_fst ?_ (by assumption)) | split)

theorem State.shutdown_keeps {r₀ : State} {s : State} (hk : State.Keeps r₀ s) :
    State.Keeps r₀ (State.shutdown s) := by
  unfold State.shutdown
  try dsimp only
  with_reducible repeat' (first | assumption | (intro _) | apply State.on_keeps | apply State.ite_keeps | apply State.classM_keeps | apply State.foldl_keeps | (refine State.keeps_fst ?_ (by assumption)) | split)

theorem State.mailed_keeps {r₀ : State} {s : State} (by_ : Binding) (i : Instr) (f : Block → Block) (hk : State.Keeps r₀ s) :
    State.Keeps r₀ (State.mailed s by_ i f) := by
  unfold State.mailed
  try dsimp only
  with_reducible repeat' (first | assumption | (intro _) | apply State.on_keeps | apply State.ite_keeps | apply State.foldl_keeps | (refine State.keeps_fst ?_ (by assumption)) | split)

theorem State.pollRing_keeps {r₀ : State} {s : State} (failed : List Nat) (n : Nat) (hk : State.Keeps r₀ s) :
    State.Keeps r₀ (State.pollRing s failed n) := by
  unfold State.pollRing
  try dsimp only
  with_reducible repeat' (first | assumption | (intro _) | apply State.on_keeps | apply State.ite_keeps | apply State.host_keeps | apply State.foldl_keeps | (refine State.keeps_fst ?_ (by assumption)) | split)

theorem State.takePacket_keeps {r₀ : State} {s : State} (n : Nat) (bytes : List Byte) (hk : State.Keeps r₀ s) :
    State.Keeps r₀ (State.takePacket s n bytes) := by
  unfold State.takePacket
  try dsimp only
  with_reducible repeat' (first | assumption | (intro _) | apply State.on_keeps | apply State.ite_keeps | apply State.postCompletion_keeps | apply State.foldl_keeps | (refine State.keeps_fst ?_ (by assumption)) | split)

theorem State.takeFrom_keeps {r₀ s : State} (n prod k : Nat) (hk : r₀.Keeps s) : r₀.Keeps (s.takeFrom n prod k) := by
  induction k generalizing s with
  | zero => exact hk
  | succ k ih =>
    unfold State.takeFrom
    try dsimp only
    with_reducible repeat' (first | assumption | apply ih | apply State.on_keeps | apply State.ite_keeps | apply State.on_keeps | apply State.takePacket_keeps | apply State.foldl_keeps | (intro _) | split)

theorem State.takeRing_keeps {r₀ : State} {s : State} (n : Nat) (hk : State.Keeps r₀ s) :
    State.Keeps r₀ (State.takeRing s n) := by
  unfold State.takeRing
  try dsimp only
  with_reducible repeat' (first | assumption | (intro _) | apply State.on_keeps | apply State.ite_keeps | apply State.writeHost_keeps | apply State.takeFrom_keeps | apply State.host_keeps | apply State.foldl_keeps | (refine State.keeps_fst ?_ (by assumption)) | split)

theorem State.poll_keeps {r₀ : State} {s : State} (failed : List Nat) (hk : State.Keeps r₀ s) :
    State.Keeps r₀ (State.poll s failed) := by
  unfold State.poll
  try dsimp only
  with_reducible repeat' (first | assumption | (intro _) | apply State.on_keeps | apply State.ite_keeps | apply State.drainPosts_keeps | apply State.drainEvents_keeps | apply State.pollRing_keeps | apply State.takeRing_keeps | apply State.foldl_keeps | (refine State.keeps_fst ?_ (by assumption)) | split)

theorem State.host_keeps {r₀ : State} {s : State} (h : Hdr) (op : Nat) (f : State → State) (hk : State.Keeps r₀ s) (hf : ∀ u, State.Keeps r₀ u → State.Keeps r₀ (f u)) :
    State.Keeps r₀ (State.host s h op f) := by
  unfold State.host
  try dsimp only
  with_reducible repeat' (first | assumption | (intro _) | apply State.on_keeps | apply State.ite_keeps | apply State.finish_keeps | apply State.foldl_keeps | (refine State.keeps_fst ?_ (by assumption)) | (apply hf) | split)

theorem State.bad_keeps {r₀ : State} {s : State} (h : Hdr) (op byte : Nat) (hk : State.Keeps r₀ s) :
    State.Keeps r₀ (State.bad s h op byte) := by
  unfold State.bad
  try dsimp only
  with_reducible repeat' (first | assumption | (intro _) | apply State.on_keeps | apply State.ite_keeps | apply State.finish_keeps | apply State.foldl_keeps | (refine State.keeps_fst ?_ (by assumption)) | split)

theorem State.output_keeps {r₀ : State} {s : State} (h : Hdr) (op room : Nat) (bytes : List Byte) (result : BitVec 128) (byte : Nat) (hk : State.Keeps r₀ s) :
    State.Keeps r₀ (State.output s h op room bytes result byte) := by
  unfold State.output
  try dsimp only
  with_reducible repeat' (first | assumption | (intro _) | apply State.on_keeps | apply State.ite_keeps | apply State.writeHost_keeps | apply State.finish_keeps | apply State.bad_keeps | apply State.foldl_keeps | (refine State.keeps_fst ?_ (by assumption)) | split)

theorem State.await_keeps {r₀ : State} {s : State} (h : Hdr) (op : Nat) (w : WaitFor) (hk : State.Keeps r₀ s) :
    State.Keeps r₀ (State.await s h op w) := by
  unfold State.await
  try dsimp only
  with_reducible repeat' (first | assumption | (intro _) | apply State.on_keeps | apply State.ite_keeps | apply State.foldl_keeps | (refine State.keeps_fst ?_ (by assumption)) | split)

theorem State.settleFences_keeps {r₀ : State} {s : State} (hk : State.Keeps r₀ s) :
    State.Keeps r₀ (State.settleFences s) := by
  unfold State.settleFences
  try dsimp only
  with_reducible repeat' (first | assumption | (intro _) | apply State.on_keeps | apply State.ite_keeps | apply State.endWait_keeps | apply State.foldl_keeps | (refine State.keeps_fst ?_ (by assumption)) | split)

theorem State.endCheck_keeps {r₀ : State} {s : State} (w : Wait) (hk : State.Keeps r₀ s) :
    State.Keeps r₀ (State.endCheck s w) := by
  unfold State.endCheck
  try dsimp only
  with_reducible repeat' (first | assumption | (intro _) | apply State.on_keeps | apply State.ite_keeps | apply State.writeHost_keeps | apply State.endWait_keeps | apply State.foldl_keeps | (refine State.keeps_fst ?_ (by assumption)) | split)

theorem State.resumeCopies_keeps {r₀ : State} {s : State} (hk : State.Keeps r₀ s) :
    State.Keeps r₀ (State.resumeCopies s) := by
  unfold State.resumeCopies
  try dsimp only
  with_reducible repeat' (first | assumption | (intro _) | apply State.on_keeps | apply State.ite_keeps | apply State.releaseWrites_keeps | apply State.foldl_keeps | (refine State.keeps_fst ?_ (by assumption)) | split)

theorem State.settleIdle_keeps {r₀ : State} {s : State} (hk : State.Keeps r₀ s) :
    State.Keeps r₀ (State.settleIdle s) := by
  unfold State.settleIdle
  try dsimp only
  with_reducible repeat' (first | assumption | (intro _) | apply State.on_keeps | apply State.ite_keeps | apply State.cross_keeps | apply State.settleFences_keeps | apply State.endCheck_keeps | apply State.resumeCopies_keeps | apply State.foldl_keeps | (refine State.keeps_fst ?_ (by assumption)) | split)

theorem State.withDesc_keeps {r₀ : State} {s : State} (h : Hdr) (op kind index : Nat) (f : Nat → State) (hk : State.Keeps r₀ s) (hf : ∀ y, State.Keeps r₀ (f y)) :
    State.Keeps r₀ (State.withDesc s h op kind index f) := by
  unfold State.withDesc
  try dsimp only
  with_reducible repeat' (first | assumption | (intro _) | apply State.on_keeps | apply State.ite_keeps | apply State.finish_keeps | apply State.bad_keeps | apply State.foldl_keeps | (refine State.keeps_fst ?_ (by assumption)) | (apply hf) | split)

theorem State.writeTables_keeps {r₀ : State} {s : State} (hk : State.Keeps r₀ s) :
    State.Keeps r₀ (State.writeTables s) := by
  unfold State.writeTables
  try dsimp only
  with_reducible repeat' (first | assumption | (intro _) | apply State.on_keeps | apply State.ite_keeps | apply State.devWrite_keeps | apply State.writeSeqEntry_keeps | apply State.foldl_keeps | (refine State.keeps_fst ?_ (by assumption)) | split)

theorem State.applyNow_keeps {r₀ : State} {s : State} (kind index new : Nat) (fs : List DField) (hk : State.Keeps r₀ s) :
    State.Keeps r₀ (State.applyNow s kind index new fs) := by
  unfold State.applyNow
  try dsimp only
  with_reducible repeat' (first | assumption | (intro _) | apply State.on_keeps | apply State.ite_keeps | apply State.refreshTile_keeps | apply State.applyField_keeps | apply State.writeTables_keeps | apply State.foldl_keeps | (refine State.keeps_fst ?_ (by assumption)) | split)

theorem State.writeDesc_keeps {r₀ : State} {s : State} (h : Hdr) (kind index old new : Nat) (hk : State.Keeps r₀ s) :
    State.Keeps r₀ (State.writeDesc s h kind index old new) := by
  unfold State.writeDesc
  try dsimp only
  with_reducible repeat' (first | assumption | (intro _) | apply State.on_keeps | apply State.ite_keeps | apply State.finish_keeps | apply State.bad_keeps | apply State.await_keeps | apply State.applyNow_keeps | apply State.foldl_keeps | (refine State.keeps_fst ?_ (by assumption)) | split)

theorem State.copyAccess_keeps {r₀ : State} {s : State} (acc : Access) (a n : Nat) (hk : State.Keeps r₀ s) :
    State.Keeps r₀ (State.copyAccess s acc a n).1 := by
  unfold State.copyAccess
  try dsimp only
  with_reducible repeat' (first | assumption | (intro _) | apply State.on_keeps | apply State.ite_keeps | apply State.ioFailed_keeps | apply State.foldl_keeps | (refine State.keeps_fst ?_ (by assumption)) | split)

theorem State.writeTiles_keeps {r₀ s : State} (k a : Nat) (bs : List Byte) (hk : r₀.Keeps s) : r₀.Keeps (s.writeTiles k a bs) := by
  induction k generalizing s a bs with
  | zero => exact hk
  | succ k ih =>
    unfold State.writeTiles
    try dsimp only
    with_reducible repeat' (first | assumption | apply ih | apply State.on_keeps | apply State.ite_keeps | apply State.devWrite_keeps | apply State.foldl_keeps | (intro _) | split)

theorem State.freeParcel_keeps {r₀ : State} {s : State} (p : Parcel) (hk : State.Keeps r₀ s) :
    State.Keeps r₀ (State.freeParcel s p) := by
  unfold State.freeParcel
  try dsimp only
  with_reducible repeat' (first | assumption | (intro _) | apply State.on_keeps | apply State.ite_keeps | apply State.clearParcel_keeps | apply State.endWait_keeps | apply State.pageSettled_keeps | apply State.foldl_keeps | (refine State.keeps_fst ?_ (by assumption)) | split)

theorem State.remapSuspects_keeps {r₀ : State} {s : State} (hk : State.Keeps r₀ s) :
    State.Keeps r₀ (State.remapSuspects s) := by
  unfold State.remapSuspects
  try dsimp only
  with_reducible repeat' (first | assumption | (intro _) | apply State.on_keeps | apply State.ite_keeps | apply State.wipeCroft_keeps | apply State.diagnosed_keeps | apply State.foldl_keeps | (refine State.keeps_fst ?_ (by assumption)) | split)

theorem State.writeExpInit_keeps {r₀ : State} {s : State} (firstStep : Nat) (hk : State.Keeps r₀ s) :
    State.Keeps r₀ (State.writeExpInit s firstStep) := by
  unfold State.writeExpInit
  try dsimp only
  with_reducible repeat' (first | assumption | (intro _) | apply State.on_keeps | apply State.ite_keeps | apply State.writeExp_keeps | apply State.foldl_keeps | (refine State.keeps_fst ?_ (by assumption)) | split)

theorem State.writeRecs_keeps {r₀ s : State} (l : List PageRec) (hk : r₀.Keeps s) : r₀.Keeps (s.writeRecs l).1 := by
  induction l generalizing s with
  | nil => exact hk
  | cons x rs ih =>
    unfold State.writeRecs
    split
    · exact hk
    · rename_i bytes _
      have h := ih (State.writeTiles_keeps 3 x.address bytes hk)
      split <;> rename_i heq <;> rw [heq] at h <;> exact h

theorem State.applyImage_keeps {r₀ : State} {s : State} (h : Hdr) (img : List Byte) (pages : List (Nat × List Byte)) (hk : State.Keeps r₀ s) :
    State.Keeps r₀ (State.applyImage s h img pages) := by
  unfold State.applyImage
  try dsimp only
  with_reducible repeat' (first | assumption | (intro _) | apply State.on_keeps | apply State.ite_keeps | apply State.twinSays_keeps | apply State.twinDigest_keeps | apply State.recordedDigest_keeps | apply State.await_keeps | apply State.foldl_keeps | (refine State.keeps_fst ?_ (by assumption)) | split)

end Sys2Proof.Machine
end

