-- ==== Sys2Proof/Tests/Slice0.lean ====
section
/-! SUPPORT. Tests: ill-formed commands that WellFormed refuses; for every statement, concrete states and operands that meet its hypotheses; and values that the
manual gives. -/
namespace Sys2Proof.Tests
open Sys2Proof.Machine
set_option Elab.async false

/-! Small states and operands -/

/-- The module after reset with its block changed. -/
def blk (f : Block → Block) : State := State.reset.on f
/-- The module in a device state (R433), 0 RECOVERY to 6 OUT_OF_SERVICE. -/
def inState (n : Nat) : State := blk (fun b => { b with dev := { b.dev with state := n } })
/-- A header on ring 0 with tag 1. -/
def hdr (ptr len : Nat) : Hdr := { ring := 0, tag := 1, ordered := false, noIrq := false, ptrAddr := ptr, payloadLen := len }
/-- A header without payload. -/
def h0 : Hdr := hdr 0 0
/-- n zero bytes. -/
def zeros (n : Nat) : List Byte := List.replicate n 0
/-- A packet from module 1 to the module after reset, intact. -/
def pkt (typ addr seq : Nat) (payload : List Byte) : Pkt :=
  let p := mkPkt 0 16 1 16 false typ addr 0 0xFFFF 0 payload
  let p := { p with head := setFld p.head 223 208 seq }
  { p with head := setFld p.head 255 224 (crc32c p.crcBytes).toNat }
/-- A flit with a type and a sequence number, intact. -/
def flit (typ seq : Nat) : Flit :=
  let f : Flit := { head := setFld (setFld (0 : BitVec 64) 63 52 seq) 38 36 typ, payload := zeros 240, crc := 0 }
  { f with crc := crc64 (flitBytes f) }
/-- What boot senses on a board whose EEPROM nobody wrote at service. -/
def sense : BootSense := { ga := 0, stepping := 1, railsOk := true, densityGib := 1280 }
/-- A sensor pass with every sensor at one temperature. -/
def warm (x : Int) : Thermals := { junctions := List.replicate 20 x, ioControl := List.replicate 3 x, packages := List.replicate 20 x, stage := x, optics := [], inlet := 300 }
/-- A self-test with nothing wrong. -/
def passes : SelfTestResult := { failingSlots := [], larderOk := true, bellLineOk := true, failedFrames := [], sp0Ok := true }

/-! WellFormed: one ill-formed term for each check -/

/-- Commands with one operand out of its field. -/
def illFormed : List Instr :=
  [.nop { h0 with ring := 4 }, .nop (hdr 1 0), .nop (hdr 0 1), .nop { hdr 0 0 with ptrAddr := 2 ^ 64 }, .descWrite (hdr 0 8) 2 0 (zeros 7), .descWrite (hdr 0 8) 0x0F 0 (zeros 8),
   .descWrite (hdr 0 8) 2 65536 (zeros 8), .descWrite (hdr 0 8) 3 0 (zeros 8), .descRead (hdr 64 15) 3 0 false, .descRead (hdr 64 64) 0x0F 0 false, .copyIn (hdr 0 64) 0 128 (zeros 64) {},
   .copyIn (hdr 0 64) (2 ^ 64) 64 (zeros 64) {}, .copyOut (hdr 64 64) 0 128 {}, .copyOut (hdr 64 64) 0 64 { failed := some (2 ^ 64, 1) }, .parcelCreate h0 (2 ^ 64) 1 1 false false, .parcelCreate h0 0 (2 ^ 32) 1 false false,
   .parcelCreate h0 0 1 4 false false, .parcelFree h0 65536, .parcelQuery (hdr 64 55) 0, .parcelMigrate h0 0 256 0 1, .pageQuery (hdr 64 31) 0 1, .jobLoad (hdr 0 63) 0 { bytes := zeros 63 },
   .jobLoad (hdr 0 64) 65536 { bytes := zeros 64 }, .jobLoad (hdr 0 64) 0 { bytes := zeros 64, sites := [{ tensor := 65536, block := 16, stream := 0, rowLength := 256 }] }, .stileWiden { croft := 192 }, .jobStart h0 0 (2 ^ 64) 0, .jobStop h0 (2 ^ 64), .jobAbort (hdr 1 0) 0, .restore h0 (2 ^ 64) 1 0 [] 0, .restore h0 0 256 0 [] 0, .restore h0 0 1 0 [] 4,
   .drainTableLoad (hdr 0 4095) 0 (zeros 4095), .drainTableLoad (hdr 0 4096) 256 (zeros 4096), .laneProgLoad (hdr 0 16895) 0 (zeros 16895), .fabricTableLoad (hdr 0 0) false false [],
   .fabricTableLoad (hdr 0 72) true true (zeros 72), .groupLoad (hdr 0 63) 0 (zeros 63), .groupLoad (hdr 0 64) 65536 (zeros 64), .tallyRead (hdr 64 63) 0 0, .tallyRead (hdr 64 64) 65536 0,
   .digestRead (hdr 64 95) 0, .fenceModule (hdr 0 8), .fenceGroup h0 0 256 1, .fenceGroup h0 0 0 (2 ^ 32), .ideKeySet (hdr 0 40) 0 4 false false (zeros 40),
   .ideKeySet (hdr 0 39) 0 0 false false (zeros 39), .ideKeyGo h0 256 false false true, .fwStage (hdr 0 63) 0 (zeros 63), .fwStage (hdr 0 64) (2 ^ 32) (zeros 64), .fwCommit h0 (2 ^ 32),
   .attest (hdr 64 31) 80160 (zeros 31), .selfCheck (hdr 64 63) 0 0 { run := 0, failed := 0, entries := [] }, .ringPoll (2 ^ 64) [], .ringPoll 0 [4], .payloadReadDone 0 4 0 0, .payloadReadDone 0 0 0 4,
   .ringEnWrite 0 4 0, .registerWrite 0 65536 8 0, .registerWrite 0 0 2 0, .mmioRefusedClear (2 ^ 64), .faMatmul 192 {}, .laneRun 0 { store := some (2 ^ 51, true) }, .moveCopy 0 { corrected := [(0, 3)] }, .tileDrain 192 .fa {}, .add 192, .endProgram 192,
   .waitTimeExpiry 0 192, .cacheFlushDone 0 4095 0, .commitHoldLimit 0 [192], .retiredPageRetry 0 (2 ^ 35) 0, .pageCopied 0 (2 ^ 35) 0, .pageMigrationSwitch 0 0 4, .cellarRetrain 0 80, .scrub 0 3 0 .clean true,
   .scrub 0 1 (2 ^ 36) .clean true, .scrub 0 1 0 (.corrected 65536 0) true, .scrub 0 1 0 (.corrected 0 3) true, .scrub 0 1 0 (.uncorrectable 65536) true, .nullFlit 0 31 (flit 0 0), .nullFlit 0 18 (flit 0 0), .dataFlit 0 0 { flit 1 0 with payload := zeros 239 } true, .dataFlit 0 0 { flit 1 0 with corrected := [(5, 1)] } true, .linkFlit 0 0 (flit 2 0) (.identity (2 ^ 14) 0),
   .linkFlit 0 0 (flit 2 0) (.identity 0 32), .linkFlit 0 0 (flit 2 0) (.substitute 4), .timeFlit 0 0 (flit 3 0) (2 ^ 64), .write 0 18 (pkt 1 0 0 []), .write 0 0 (pkt 1 0 0 (zeros 15)),
   .readReq 0 0 (pkt 2 0 0 (zeros 528)), .e2eAck 0 { srcModule := 2 ^ 14, srcDie := 0, dstModule := 0, dstDie := 0, urgent := false } 0,
   .e2eRetransmit 0 { srcModule := 0, srcDie := 32, dstModule := 0, dstDie := 0, urgent := false } 0, .millDeadline 0 1024 0 0 0 0 true, .millDeadline 0 0 (2 ^ 28) 0 0 0 true,
   .millDeadline 0 0 0 256 0 0 true, .millDeadline 0 0 0 0 8 0 true, .millDeadline 0 0 0 0 0 16 true, .fenceGroupTimeout 0 1024 0, .fenceGroupTimeout 0 0 256, .portRetrain 0 18, .laneLossOfLock 0 0 [5], .laneLossOfLock 0 100 [0],
   .laneCorrectionLimit 0 0 5 5000, .laneCorrectionLimit 0 0 4 4096, .portTrainingDone 0 0 (2 ^ 14) 0 true, .sp0Trained 0 0 32 true, .croftWatchdog 0 192 .fa 0, .remoteWatch 0 (2 ^ 14), .moduleReset 0 { sense with ga := 32 },
   .moduleReset 0 { sense with stepping := 16 }, .selfTestSlot 0 209 true false true, .lockstepMismatch 0 5, .monitorTrip 0 (.computeDie 16 true), .monitorExcursion 0 (.other 46), .telemetrySample 0 65536, .logExport 0 256,
   .startupSelfTest 0 { passes with failingSlots := [(16, 0)] }, .startupSelfTest 0 { passes with failingSlots := [(0, 13)] }, .powerCapCheck 0 65536 0 0, .powerCapCheck 0 0 0 65536,
   .thermalSensorRead 0 { warm 300 with packages := [] }, .vectorTimeout 0 (2 ^ 32) 0, .getBlock .i3c 256, .logRead .i3c (2 ^ 32) 0, .logRead .i3c 0 65536, .pldmSensorRead .i3c 65536,
   .getPldmVersion .i3c 256, .updateComponent .i3c ⟨0, 0, 0⟩ (2 ^ 32), .passComponentTable .i3c ⟨2 ^ 16, 0, 0⟩, .getTid (.sgmii (2 ^ 16) 0), .moveTilesWritten 0 192 0, .managementLinkFailure (2 ^ 64) .i3c, .tapInstruction 0 256]

theorem test_ill_formed_refused : ∀ i ∈ illFormed, wellFormed i = false := by decide +kernel

/-- Commands whose operands stand at the end of their fields. -/
def atTheEnd : List Instr :=
  [.nop { h0 with ring := 3 }, .descWrite (hdr 0 8) 2 65535 (zeros 8), .descRead (hdr 64 640) 0x0C 0 true, .copyIn (hdr 0 64) 0 64 (zeros 64) { failed := some (2 ^ 64 - 1, 3), corrected := [(0, 2)] }, .parcelCreate h0 (2 ^ 64 - 1) 1 3 true true,
   .pageQuery (hdr 64 32) 0 1, .jobStart h0 0 (2 ^ 64 - 1) 0, .groupLoad (hdr 0 64) 65535 (zeros 64), .fenceGroup h0 0 255 (2 ^ 32 - 1), .ideKeySet (hdr 0 40) 255 3 true true (zeros 40),
   .ringPoll 0 [3], .registerWrite 0 65535 4 0, .faMatmul 191 {}, .scrub 0 2 0 (.corrected 65535 2) false, .completionTimeout 0 192, .linkIdleTimeout 0 99, .cellarCalibration 0 79, .dataFlit 0 17 (flit 1 4095) true, .write 0 17 (pkt 1 0 0 (zeros 512)),
   .millDeadline 0 1023 (2 ^ 28 - 1) 255 7 15 true, .selfTestSlot 0 208 true false true, .monitorTrip 0 (.computeDie 15 true), .lockstepMismatch 0 4, .tapInstruction 0 255]

theorem test_well_formed_accepted : ∀ i ∈ atTheEnd, wellFormed i = true := by decide +kernel

/-! Values that the manual gives -/

/-- R325: the CRC-64 of "123456789". -/
theorem test_crc64_check : crc64 [0x31, 0x32, 0x33, 0x34, 0x35, 0x36, 0x37, 0x38, 0x39] = 0x6C40DF5F0B497347#64 := by decide +kernel

/-- The worked example of R77: five KF4 codes under RNE, and the draws of the element 2.25 under SR. -/
theorem test_kf4_worked_example :
    (encodeElem 3 .rne (.fin false 11 (-1))).code = 7 ∧ (encodeElem 3 .rne (.fin false 9 (-2))).code = 4 ∧ (encodeElem 3 .rne (.fin true 3 (-2))).code = 10
    ∧ (encodeElem 3 .rne (.fin false 3 (-4))).code = 0 ∧ (encodeElem 3 .rne (.fin false 3 (-4))).vanish = true ∧ (encodeElem 3 .rne (.fin true 0 0)).code = 0
    ∧ (encodeElem 3 (.sr 10768) (.fin false 9 (-2))).code = 5 ∧ (encodeElem 3 (.sr 16384) (.fin false 9 (-2))).code = 4 := by decide +kernel

/-- The worked example of R123: the row scale of m = 3.0 in KF4, and the shifts of its blocks. -/
theorem test_row_scale_worked_example :
    (rowScale 3 0 3 0).1 = 0x3F01 ∧ blockShift 3 0 3 0 = 0 ∧ blockShift 3 0 3 (-3) = 3 ∧ blockShift 3 0 11 (-7) = 5 := by decide +kernel

/-- The worked example of R209: 2.5 units are added as 2 (a tie to even), -0.1875 units vanish. -/
theorem test_master_update_worked_example :
    (masterUpdate .rne 858993459 (-34) (toF32 (.fin false 5 (-35)))).1 = 858993461
    ∧ (masterUpdate .rne 858993459 (-34) (toF32 (.fin true 3 (-38)))).1 = 858993459 ∧ (masterUpdate .rne 858993459 (-34) (toF32 (.fin true 3 (-38)))).2.1.vanish = true := by decide +kernel

/-- The worked example of R240: the high jump of step 9,100, and the mean after it, 0x3D810000. -/
theorem test_owl_worked_example :
    owlJudge (toF32 (.ofInt 49152)) 32768 0x3D800000#32 0x40800000#32 0x3E800000#32 = .high
    ∧ (owlUpdate { mean := 0x3D800000#32, valid := true } (55738368 * 2 ^ 149) 792723456 false).mean = 0x3D810000#32 := by decide +kernel

/-- The worked example of R260: step 9,400 is a storm. -/
theorem test_storm_worked_example : isStorm 6554 12582912000 1509949440 = true ∧ isStorm 6554 12582912000 1258291200 = false := by decide +kernel

/-- The Reset columns of R350, R334 and R456, and MODULE_INFO of a BXJ-9640-A of stepping A1. -/
theorem test_bar0_after_reset : let b := State.reset.m
    b.bar0Read 0 8 = 0x5001A009640 ∧ b.bar0Read 0 4 = 0x1A009640 ∧ b.bar0Read 4 4 = 0x500 ∧ b.bar0Read 0x40 8 = 1 ∧ b.bar0Read 0x58 8 = 0x3FFF * 2 ^ 50 ∧ b.bar0Read 0x68 8 = 0xFFFF0001
    ∧ b.bar0Read 0x70 8 = 0x3E8 ∧ b.bar0Read 0x200 8 = 0x00F0BA9876543210 ∧ b.bar0Read 0x300 8 = 0xFF8 * 2 ^ 36 ∧ b.bar0Read 0x400 8 = 0xFFFFEEF8 * 2 ^ 32 := by decide +kernel

/-! Witnesses: the host's commands -/

/-- A job's state: ops on croft 0, running, step begun. -/
def op (code : Nat) (ws : List (Nat × Nat)) : BitVec 512 :=
  BitVec.ofNat 512 (ws.foldl (fun a x => a + x.2 * 2 ^ (32 * x.1)) (code + 0xFFFFFFFF * 2 ^ 384 + 0xFFFF * 2 ^ 416))
/-- A tensor-table entry of 8 rows and 256 columns in the croft store. -/
def ten (fmt : Nat) (scaled : Bool) (tag slot : Nat) : BitVec 256 :=
  setFld (setFld (setFld (setFld (setFld (setFld (setFld (0 : BitVec 256) 159 144 tag) 133 133 (b2n scaled)) 132 128 fmt) 127 96 256) 95 64 8) 63 63 1) 21 0 (32768 * slot)
/-- An almanac of one stream on croft 0, with tensors KT2, KF16, KF32, scaled KT2 and KF6, KL32 and KQ32. -/
def alm (ops : List (BitVec 512)) : Almanac :=
  { crc := 0, narrowNs := 1000000, wideNs := 2000000, layers := 1, micro := 1, chunk := 64,
    tensors := [ten 0 false 1 0, ten 7 false 2 1, ten 8 false 3 8, ten 0 true 4 16, ten 4 true 5 24, ten 11 false 6 32, ten 9 false 7 48], companions := [], bcast := [], mbPred := [(0, 0)], streams := [ops] }
/-- A job that runs the operations on croft 0. -/
def job (ops : List (BitVec 512)) : State :=
  blk (fun b => { b with dev := { b.dev with state := 4 }, job := { b.job with id := 1, begun := true, boundaryAt := 1000000, almanac := some (alm ops) },
                         desc := { b.desc with layer := [0], guard := [0] }, crofts := b.crofts.set 0 { todo := List.range ops.length } })
/-- The block of a state changed. -/
def on (s : State) (f : Block → Block) : State := s.on f
/-- A parcel of two larder pages from page 1, of which a state's job names nothing. -/
def parcels (s : State) : State :=
  on s (fun b => { b with tiers := { b.tiers with parcels := [{ id := 0, base := 65536, pages := 2, codec := false, pin := false, home := 1 }],
                                                  pages := [{ page := 1, parcel := 0, tier := 1, frame := 0 }, { page := 2, parcel := 0, tier := 1, frame := 1 }] } })
/-- Ring 0 runs. -/
def ringed (s : State) : State := on s (fun b => { b with rings := b.rings.set 0 { state := 1, en := true, base := 0x40000, cmplBase := 0x80000, ctrlBase := 0xC0000 } })
/-- A wait under tag 1 of ring 0. -/
def waitOf (w : WaitFor) : Wait := { ring := 0, tag := 1, opcode := 0x28, noIrq := false, wait := w }
/-- The waiting commands of a state. -/
def waiting (s : State) (ws : List Wait) : State := on s (fun b => { b with path := { b.path with waits := ws } })

theorem witness_StepWithEmptyQueue : State.reset.pending = [] ∧ State.reset.m.path.mailbox = []
    ∧ (blk (fun b => { b with path := { b.path with mailbox := [.nop h0] } })).m.path.mailbox = .nop h0 :: [] := by decide +kernel

theorem witness_StepKeepsMemory : State.reset.wf ∧ ∃ t, step State.reset = .next t := ⟨by unfold State.wf; decide +kernel, _, rfl⟩

theorem witness_ExecKeepsQueue : ∃ t, exec (.nop h0) State.reset = .next t := ⟨_, rfl⟩

theorem witness_HostCommandRoundTrip : wellFormed (.nop h0) = true ∧ Packet.ofCommand (.nop h0) = some (0, h0, [], []) ∧ 7 < 8
    ∧ wellFormed (.jobStop h0 (2 ^ 64 - 1)) = true ∧ (Packet.ofCommand (.jobStop h0 (2 ^ 64 - 1))).isSome = true := by decide +kernel

theorem witness_WellFormedPacketAccepted : wellFormed (.groupLoad (hdr 0 64) 5 (zeros 64)) = true
    ∧ (Packet.ofCommand (.groupLoad (hdr 0 64) 5 (zeros 64))).isSome = true ∧ (hdr 0 64).payloadLen ≤ 268435456 := by decide +kernel

theorem witness_HostRefusedByState : Packet.ofCommand (.jobUnload h0) = some (0x11, h0, [], []) ∧ (acceptedIn 0x11).contains (inState 2).m.dev.state = false
    ∧ (acceptedIn 0x11).contains (inState 6).m.dev.state = false ∧ ¬ (0x11 = 0x14 ∧ (inState 2).m.dev.state = 5 ∧ (inState 2).m.dev.bellPending = true) := by decide +kernel

theorem witness_CompletionIsPosted : let s := ringed (inState 2)
    0 < s.m.rings.length ∧ (s.m.ring 0).usable = true ∧ (s.m.ring 0).postq = [] ∧ (s.m.ring 0).unread < 4096 := by decide +kernel

/-- A running job's group 3 of one member, valid. -/
def grouped (s : State) : State := on s (fun b => { b with desc := { b.desc with groups := [{ index := 3, desc := setFld (setFld (0 : BitVec 512) 210 210 1) 261 248 1 }] } })

theorem witness_HostReads : Accepts (inState 1) 0 ∧ Accepts (inState 2) 4 ∧ (parcels (inState 2)).m.copyBusy 65536 = false ∧ 65536 % 64 = 0 ∧ (parcels (inState 2)).m.inOneParcel 65536 131072 = true
    ∧ Accepts (inState 2) 2 ∧ descSize 3 = some 16 ∧ (inState 2).m.indexOk 3 0 = true ∧ (∃ v, (inState 2).m.getDesc 3 0 = some v)
    ∧ Accepts (inState 2) 0x0A ∧ (∃ p, (parcels (inState 2)).m.parcel 0 = some p) ∧ Accepts (inState 2) 0x0C ∧ Accepts (inState 2) 0x20
    ∧ Accepts (inState 2) 0x21 ∧ Accepts (inState 6) 0x3A := by
  refine ⟨?_, ?_, ?_, ?_, ?_, ?_, ?_, ?_, ⟨_, rfl⟩, ?_, ⟨_, rfl⟩, ?_, ?_, ?_, ?_⟩ <;> (try unfold Accepts) <;> decide +kernel

theorem witness_HostReads_layer : let s := job []
    Accepts s 2 ∧ (2 ∈ [1, 2, 5] → s.m.job.almanac.isSome = true) ∧ descSize 2 = some 8 ∧ s.m.indexOk 2 0 = true ∧ s.m.getDesc 2 0 = some 0 := by unfold Accepts; decide +kernel

theorem witness_HostReads_tally_digest :
    let s := grouped (inState 2)
    let f := s.m.tally.frozen
    let tags := s.m.slotBytes f (s.m.tallyTags.filter (fun t => 0 ≤ t && t ≤ 0xFFF))
    (tags ++ slotTrailer f.step (tags.length + 64)).length ≤ (hdr 0x1000 4096).payloadLen ∧ (s.m.group 3).isSome = true ∧ (s.m.digestRecords 3).length ≤ 4096 := by decide +kernel

/-- A lane program of one empty phase, and a table that names it. -/
def endImage : List Byte := leBytes 8 0x800 ++ zeros 504 ++ leBytes 8 (0x1E * 2 ^ 56) ++ leBytes 8 (0x1F * 2 ^ 56) ++ zeros 16368

theorem witness_TableLoads : Accepts (inState 2) 0x18 ∧ ((inState 2).m.croft 191).runsTable = false ∧ (inState 2).m.checkCrofts.contains 191 = false
    ∧ Accepts (inState 2) 0x19 ∧ ((inState 2).m.croft 5).lane = none ∧ (∀ e ∈ ((inState 2).m.croft 5).inFlight, opCode e.op ≠ 8)
    ∧ imageBad ((List.range 64).map (fun i => BitVec.ofNat 64 (leAt endImage (8 * i) 8))) ((List.range 2048).map (fun i => BitVec.ofNat 64 (leAt endImage (512 + 8 * i) 8))) = none
    ∧ Accepts (inState 2) 0x1A ∧ (inState 2).m.jobRuns = false ∧ (∀ i, i < 104 → (inState 2).m.routeBad (leAt (zeros 208) (2 * i) 2) = false) ∧ Accepts (inState 3) 0x1B := by
  refine ⟨?_, ?_, ?_, ?_, ?_, ?_, ?_, ?_, ?_, ?_, ?_⟩ <;> (try unfold Accepts) <;> decide +kernel

/-- A group descriptor of one member, this module at rank 0, with one micro-batch. -/
def groupPl : List Byte := leBytes 64 (putBits (putBits (putBits (putBits 0 261 248 1) 247 240 1) 210 210 1) 511 460 65536)

theorem witness_TableLoads_group : ((inState 2).writeParcel 65536 [0, 0, 0xFF, 0x3F]).groupBad (putBits (leAt groupPl 0 64) 209 0 0) = [] := by decide +kernel

theorem witness_DescWriteApplies : let s := inState 2
    Accepts s 1 ∧ s.m.indexOk 3 0 = true ∧ (∃ v, s.m.getDesc 3 0 = some v) ∧ ¬ ((s.m.written 3 0 s.m.desc.norm.toNat s.m.desc.norm.toNat).filter (fun f => f.cls == .idle) ≠ [] ∧ s.m.idleBusy 3 0 = true)
    ∧ s.m.descBad 3 0 s.m.desc.norm.toNat (afterWrite (s.m.withShadows 3 0 s.m.desc.norm.toNat) s.m.desc.norm.toNat (s.m.written 3 0 s.m.desc.norm.toNat s.m.desc.norm.toNat))
        (s.m.written 3 0 s.m.desc.norm.toNat s.m.desc.norm.toNat) = [] ∧ s.m.jobRuns = false := by
  refine ⟨?_, ?_, ⟨_, rfl⟩, ?_, ?_, ?_⟩ <;> (try unfold Accepts) <;> decide +kernel

theorem witness_DescWriteApplies_busy_bad : let s := job []
    Accepts s 1 ∧ s.m.indexOk 2 0 = true ∧ s.m.getDesc 2 0 = some 0 ∧ (s.m.written 0x07 0 0 (2 ^ 80)).filter (fun f => f.cls == .idle) ≠ [] ∧ s.m.idleBusy 0x07 0 = true
    ∧ (s.m.written 2 0 0 0xF000).any (fun f => f.cls == .step) = true ∧ s.m.dev.bellDone = false ∧ s.m.jobRuns = true
    ∧ (let old := (inState 2).m.desc.tallyBuf.toNat
       let fs := (inState 2).m.written 6 0 old (putBits old 119 116 0)
       (inState 2).m.getDesc 6 0 = some old ∧ (inState 2).m.descBad 6 0 old (afterWrite ((inState 2).m.withShadows 6 0 old) (putBits old 119 116 0) fs) fs ≠ []) := by
  refine ⟨?_, ?_, ?_, ?_, ?_, ?_, ?_, ?_, ?_⟩ <;> (try unfold Accepts) <;> decide +kernel

theorem witness_GuardDescriptorWrites : let s := on (job []) (fun b => { b with dev := { b.dev with state := 3 } })
    s.m.desc.guard[0]? = some 0 ∧ (∀ f ∈ s.m.written 2 0 0 0x4000200000000000, f.cls = .step) ∧ s.m.path.shadows = [] := by decide +kernel

theorem witness_ParcelLifecycle : (inState 2).wf ∧ Accepts (inState 2) 8 ∧ (inState 2).m.createBad 65536 2 1 = none ∧ 2 ≤ (inState 2).m.framesFree 1
    ∧ Accepts (parcels (inState 2)) 9 ∧ (∃ p, (parcels (inState 2)).m.parcel 0 = some p ∧ p.pin = false ∧ 1 < p.pages ∧ 1 + 1 ≤ p.pages) ∧ (parcels (inState 2)).m.parcelBusy 0 = false
    ∧ (parcels (inState 2)).m.checkParcel ≠ some 0 ∧ (parcels (inState 2)).m.path.waits = [] ∧ (parcels (inState 2)).m.tiers.heldWrites = [] ∧ Accepts (parcels (inState 2)) 0x0B := by
  refine ⟨?_, ?_, ?_, ?_, ?_, ⟨_, rfl, ?_⟩, ?_, ?_, ?_, ?_, ?_⟩ <;> (try unfold Accepts) <;> (try unfold State.wf) <;> decide +kernel

theorem page_free (n : Nat) (h : n = 1) : PageFree (parcels (inState 2)) n := by
  subst h; unfold PageFree; exact ⟨⟨_, rfl, by decide +kernel⟩, by decide +kernel, by decide +kernel⟩

theorem witness_CopyInWrites : let s := parcels (inState 2)
    s.wf ∧ Accepts s 3 ∧ s.m.copyBusy 131008 = false ∧ s.m.checkParcel = none ∧ 131008 % 64 = 0 ∧ s.m.inOneParcel 131008 64 = true ∧ 131008 + 64 ≤ 2 ^ 51 ∧ (zeros 64).length = 64
    ∧ ∀ x, 131008 ≤ x → x < 131008 + 64 → PageFree s (x / 65536) := by
  refine ⟨?_, ?_, ?_, ?_, ?_, ?_, ?_, ?_, fun x h1 h2 => page_free _ (by omega)⟩ <;> (try unfold Accepts) <;> (try unfold State.wf) <;> decide +kernel

/-- An almanac image without sections: periods of 1 ms and CHUNK_TOKENS 1,024. -/
def emptyImage : List Byte := leBytes 64 (putBits (putBits (putBits (putBits 0 223 160 1000000) 159 96 1000000) 63 32 1024) 31 0 64)

/-- READY, with slots of 4,096 bytes in TALLY_BUF. -/
def slotted : State := on (inState 2) (fun b => { b with desc := { b.desc with tallyBuf := setFld b.desc.tallyBuf 115 96 1 } })

theorem witness_JobLoadAndUnload : Accepts slotted 0x10 ∧ slotted.m.boot.committing = false ∧ slotted.m.checkCrofts = [] ∧ almanacBad (slice emptyImage 0 64) = none
    ∧ (slotted.m.loadAlmanac 0xFFFE emptyImage []).slotTooLong = false ∧ (slotted.m.loadAlmanac 0xFFFE emptyImage []).loadBad = false ∧ Accepts (inState 3) 0x11
    ∧ ((inState 3).m.croft 0).suspect = false := by
  refine ⟨?_, ?_, ?_, ?_, ?_, ?_, ?_, ?_⟩ <;> (try unfold Accepts) <;> decide +kernel

/-- The fabric clock is locked. -/
def locked (s : State) : State := on s (fun b => { b with clk := { b.clk with locked := true } })

theorem witness_JobStartStopAbort : Accepts (inState 3) 0x12 ∧ (locked (inState 3)).m.clk.locked = true ∧ (inState 3).m.clk.locked = false ∧ (locked (inState 3)).m.job.restored = .none
    ∧ (locked (inState 3)).m.now + 1000000 ≤ 1000000 ∧ 999999 < (locked (inState 3)).m.now + 1000000 ∧ Accepts (job []) 0x13 ∧ Accepts (job []) 0x14 ∧ (job []).m.faults.bells = [] := by
  refine ⟨?_, ?_, ?_, ?_, ?_, ?_, ?_, ?_, ?_⟩ <;> (try unfold Accepts) <;> decide +kernel

/-- A complete image of SNAP_ID 7 without pages, of this module and of an almanac with CRC 0. -/
def snapImage : List Byte := leBytes 64 (putBits (putBits (putBits (putBits 0 511 448 0) 255 192 7) 191 128 128) 63 50 0) ++ leBytes 64 (putBits (putBits 0 191 128 128) 63 0 7)
/-- A loaded job. -/
def loaded : State := on (job []) (fun b => { b with dev := { b.dev with state := 3 }, job := { b.job with begun := false } })

theorem witness_RestoreReadsImage : Accepts loaded 0x15 ∧ flag loaded.m.desc.snap 3 = false ∧ loaded.m.snap.image = none ∧ isImageOf snapImage 7 = true
    ∧ loaded.senderOk (snapHead snapImage 63 50) = true ∧ some (snapHead snapImage 511 448) = loaded.m.job.almanac.map (·.crc.toNat)
    ∧ (∀ r ∈ pageRecs snapImage (snapHead snapImage 127 96) (64 + snapHead snapImage 95 64), r.address % 65536 = 0)
    ∧ (let s' := loaded.on (fun b => { b with job := { b.job with restored := .failed } })
       (s'.writeRecs (pageRecs snapImage (snapHead snapImage 127 96) (64 + snapHead snapImage 95 64))).2 = some []) := by
  refine ⟨?_, ?_, ?_, ?_, ?_, ?_, ?_, ?_⟩ <;> (try unfold Accepts) <;> decide +kernel

/-- A page record whose first tile is stored without bytes under a CRC of c. -/
def badRec (c : Nat) : PageRec := { address := 65536, head0 := BitVec.ofNat 64 (c * 2 ^ 32 + 1), head1 := 0, tile0 := [], tile1 := [] }
/-- A complete image of that record. -/
def badPageImage (c : Nat) : List Byte :=
  leBytes 64 (putBits (putBits (putBits (putBits 0 127 96 1) 255 192 7) 191 128 160) 63 50 0) ++ leBytes 32 (65536 + 2 ^ 64 * (c * 2 ^ 32 + 1)) ++ leBytes 64 (putBits (putBits 0 191 128 160) 63 0 7)

theorem decode_stored (h : BitVec 64) (k : TileElems) (bs : List Byte) (e : fld h 1 0 = 1) : decodeTile h k bs = slice bs 0 32768 := by
  unfold decodeTile; simp only [e]

theorem bad_page (s : State) (r : PageRec) (c : Nat) (h1 : fld r.head0 1 0 = 1) (h2 : fld r.head0 63 32 = c) (h3 : (crc32c (slice r.tile0 0 32768)).toNat ≠ c) :
    (s.writeRecs [r]).2 = none := by
  simp [State.writeRecs, State.decodePage, decode_stored r.head0 _ _ h1, h1, h2, h3]

/-- Of two images that differ in the CRC of a tile header only, one holds a page that cannot be read. -/
theorem witness_RestoreReadsImage_unreadable (s : State) : ∃ c, isImageOf (badPageImage c) 7 = true ∧ (parcels loaded).m.parcelAt (badRec c).address ≠ none
    ∧ pageRecs (badPageImage c) 1 64 = [badRec c] ∧ (s.writeRecs [badRec c]).2 = none := by
  by_cases h : (crc32c (slice [] 0 32768)).toNat = 0
  · exact ⟨1, by decide +kernel, by decide +kernel, by decide +kernel, bad_page s _ 1 (by decide +kernel) (by decide +kernel) (fun h' => absurd (h.symm.trans h') (by decide))⟩
  · exact ⟨0, by decide +kernel, by decide +kernel, by decide +kernel, bad_page s _ 0 (by decide +kernel) (by decide +kernel) h⟩

theorem witness_RestoreVerdict : let w := waitOf (.restore 7 1 1 0 0 0 0x3FFF 0)
    w.wait = .restore 7 1 1 0 0 0 0x3FFF 0 ∧ (1 : BitVec 64) ≠ 2 ∧ loaded.m.streamTable.2 = 0 := by decide +kernel

/-- An end-to-end packet that waits for its acknowledgement. -/
def e2e (sends sentAt : Nat) : E2e :=
  { flow := { srcModule := 0, srcDie := 16, dstModule := 1, dstDie := 16, urgent := false }, seq := 5, pkt := pkt 1 0 5 [], sentAt := sentAt, sends := sends }
/-- The end-to-end buffer of a state. -/
def buffered (s : State) (es : List E2e) : State := on s (fun b => { b with fab := { b.fab with e2e := es } })
/-- A command of ring 1 taken and not completed. -/
def taken1 (s : State) : State := on s (fun b => { b with rings := b.rings.set 1 { state := 1, cmds := [{ tag := 9, opcode := 3, ordered := false, noIrq := false, slots := [], needsRead := true }] } })

theorem witness_Fences : Accepts (inState 2) 0x28 ∧ (inState 2).m.outstanding 0 1 = [] ∧ (inState 2).m.tiers.heldWrites = [] ∧ (taken1 (inState 2)).m.outstanding 0 1 ≠ []
    ∧ Accepts (taken1 (inState 2)) 0x28 ∧ Accepts (inState 2) 0x2A
    ∧ (waiting (inState 2) [waitOf .fenceHost]).m.path.waits.find? (fun w => w.ring == 0 && w.tag == 1 && w.wait == .fenceHost) = some (waitOf .fenceHost)
    ∧ Accepts (job []) 0x29 ∧ ((grouped (job [])).m.group 3).isSome = true ∧ (buffered (job []) [e2e 1 0]).m.fab.e2e ≠ []
    ∧ (waitOf (.fenceGroup 3 5 1000 [] true)).wait = .fenceGroup 3 5 1000 [] true ∧ 1000 ≤ ((inState 3).m.advanceTo 1000).span := by
  refine ⟨?_, ?_, ?_, ?_, ?_, ?_, ?_, ?_, ?_, ?_, ?_, ?_⟩ <;> (try unfold Accepts) <;> decide +kernel

/-- Three IDE keys of one direction and set, and a switch that waits. -/
def keyed (s : State) : State :=
  on s (fun b => { b with dev := { b.dev with ideKeys := (List.range 3).map (fun n => { sub := n, dir := true, set := false, bits := 0 }), idePending := [(true, false)], ideOn := (true, false) } })

theorem witness_LinkIde : Accepts (inState 2) 0x30 ∧ Accepts (keyed (inState 2)) 0x31
    ∧ (∀ n, n < 3 → ∃ k ∈ (keyed (inState 2)).m.dev.ideKeys, k.sub = n ∧ k.dir = true ∧ k.set = false) ∧ (keyed (inState 2)).m.dev.idePending = [(true, false)]
    ∧ (on (inState 2) (fun b => { b with dev := { b.dev with ideState := 1 } })).m.dev.ideState = 1 ∧ (inState 2).m.dev.eventEn = false := by
  refine ⟨?_, ?_, ?_, ?_, ?_, ?_⟩ <;> (try unfold Accepts) <;> decide +kernel

/-- A ring's staging session. -/
def staging : State := on (inState 2) (fun b => { b with boot := { b.boot with session := .ring } })

theorem witness_FirmwareStaging : Accepts staging 0x38 ∧ staging.m.boot.session = .ring ∧ staging.m.boot.committing = false ∧ 33554368 % 64 = 0 ∧ 33554368 + (hdr 0 64).payloadLen ≤ 33554432
    ∧ Accepts (inState 2) 0x39 ∧ (inState 2).m.boot.session = .closed ∧ (waiting staging [waitOf (.fwCommit 2 1)]).m.path.waits = [waitOf (.fwCommit 2 1)]
    ∧ (waiting staging [waitOf (.fwCommit 2 1)]).m.dev.state = 2 := by
  refine ⟨?_, ?_, ?_, ?_, ?_, ?_, ?_, ?_, ?_⟩ <;> (try unfold Accepts) <;> decide +kernel

theorem witness_SelfCheckRuns : Accepts (inState 2) 0x40 ∧ (inState 2).checkBad 0xFFFF 0xFF = none ∧ (inState 2).checkBad 0xFFFF 191 = none ∧ 0xFFFF / 2 ^ 24 % 2 = 0
    ∧ (waitOf (.selfCheck 0xFFFF 0xFF 64 0 0 { run := 0, failed := 0, entries := [] })).wait = .selfCheck 0xFFFF 0xFF 64 0 0 { run := 0, failed := 0, entries := [] } := by
  refine ⟨?_, ?_, ?_, ?_, ?_⟩ <;> (try unfold Accepts) <;> decide +kernel

/-! Witnesses: packets, links and time -/

/-- A packet of module 1 to die d of the module after reset, urgent or not, with PARAM and EXT. -/
def pktX (typ d param ext : Nat) (urgent : Bool) (payload : List Byte) : Pkt :=
  let p := mkPkt 0 d 1 16 urgent typ 0 param 0xFFFF ext payload
  { p with head := setFld p.head 255 224 (crc32c p.crcBytes).toNat }

/-- A port in a link state. -/
def ported (n : Nat) (p : Port) : State := on (inState 2) (fun b => { b with ports := b.ports.set n p })
/-- The module with a port UP. -/
def carrying (n : Nat) : State := ported n { linkState := 2 }

theorem in_turn (s : State) (p : Pkt) (h : 17 < 32 ∧ (s.m.advanceTo 0).takesFrom 17 p = true ∧ (s.m.advanceTo 0).waitsAt 17 p = false ∧ p.dstModule = s.m.moduleId ∧ pktIntact p = true ∧ p.seq = (s.m.rxFlow p.flow).next
    ∧ (s.m.rxFlow p.flow).held = [] ∧ s.m.rejects p = false) : InTurn s 0 17 p := h

theorem witness_PacketsAreHandedOver :
    InTurn (carrying 17) 0 17 (pktX 2 16 0 0 false []) ∧ (pktX 2 16 0 0 false []).typ = 2 ∧ InTurn (carrying 17) 0 17 (pktX 3 16 0 0 false (zeros 16)) ∧ (pktX 3 16 0 0 false (zeros 16)).typ = 3
    ∧ InTurn (carrying 17) 0 17 (pktX 8 16 0x20 0 false (zeros 16)) ∧ (millPkt (pktX 8 16 0x20 0 false (zeros 16))).part = 1
    ∧ InTurn (carrying 17) 0 17 (pktX 8 16 0x40 0 false (zeros 16)) ∧ (millPkt (pktX 8 16 0x40 0 false (zeros 16))).part = 2
    ∧ InTurn (carrying 17) 0 17 (pktX 8 16 0xA0 0 false (zeros 16)) ∧ (millPkt (pktX 8 16 0xA0 0 false (zeros 16))).part = 5
    ∧ InTurn (carrying 17) 0 17 (pktX 8 16 0xE0 0 false (zeros 32)) ∧ (millPkt (pktX 8 16 0xE0 0 false (zeros 32))).part = 7
    ∧ InTurn (carrying 17) 0 17 (pktX 9 16 0xC0 0 false (zeros 16)) ∧ (millPkt (pktX 9 16 0xC0 0 false (zeros 16))).part = 6
    ∧ InTurn (carrying 17) 0 17 (pktX 9 16 0xE0 0 false (zeros 32)) ∧ (pktX 9 16 0xE0 0 false (zeros 32)).typ = 9
    ∧ InTurn (carrying 17) 0 17 (pktX 0x0A 16 0 0 false (zeros 16)) ∧ (pktX 0x0A 16 0 0 false (zeros 16)).typ = 0x0A := by
  refine ⟨?_, ?_, ?_, ?_, ?_, ?_, ?_, ?_, ?_, ?_, ?_, ?_, ?_, ?_, ?_, ?_, ?_, ?_⟩ <;> (try unfold InTurn) <;> decide +kernel

theorem witness_PacketsAreHandedOver_urgent : ∀ k, k < 4 →
    InTurn (carrying 17) 0 17 (pktX 0x10 18 1 (k * 2 ^ 32) true (zeros 16)) ∧ (pktX 0x10 18 1 (k * 2 ^ 32) true (zeros 16)).typ = 0x10 ∧ (reportOf (pktX 0x10 18 1 (k * 2 ^ 32) true (zeros 16))).kind = k
    ∧ InTurn (carrying 17) 0 17 (pktX 0x11 18 1 0 true (zeros 16)) ∧ (pktX 0x11 18 1 0 true (zeros 16)).typ = 0x11 := by
  unfold InTurn; decide +kernel

/-- A WRITE of 16 bytes from flow number 0. -/
def writeTo (a : Nat) : Pkt := pkt 1 a 0 (zeros 16)

theorem witness_RemoteWriteIsVisible : let s := parcels (carrying 0)
    s.wf ∧ InTurn s 0 0 (writeTo 131056) ∧ (writeTo 131056).typ = 1 ∧ (writeTo 131056).payload ≠ [] ∧ (writeTo 131056).address + 16 ≤ 2 ^ 51
    ∧ (writeTo 131056).address / 65536 = ((writeTo 131056).address + 16 - 1) / 65536 ∧ PageFree s ((writeTo 131056).address / 65536) := by
  refine ⟨?_, ?_, ?_, ?_, ?_, ?_, page_free _ (by decide +kernel)⟩ <;> (try unfold InTurn) <;> (try unfold State.wf) <;> decide +kernel

theorem witness_RemoteWriteWithoutFrame : let s := carrying 0
    InTurn s 0 0 (writeTo (2 ^ 51 - 16)) ∧ s.m.tiers.pages = [] ∧ InTurn s 0 0 (writeTo (2 ^ 51)) ∧ 2 ^ 51 ≤ (writeTo (2 ^ 51)).address ∧ (writeTo (2 ^ 51)).typ = 1 := by
  refine ⟨?_, ?_, ?_, ?_, ?_⟩ <;> (try unfold InTurn) <;> decide +kernel

/-- A report on module 5. -/
def rep (kind epoch oport : Nat) : Report := { origin := 5, epoch := epoch, kind := kind, oport := oport }
/-- The job with a suspicion record of module 5 at epoch 1, seen by port 2. -/
def suspected (closed : Bool) : State := on (job []) (fun b => { b with faults := { b.faults with open_ := [{ origin := 5, epoch := 1, witnesses := [2], closed := closed }] } })

theorem witness_ReportsByFirstRow : (rep 0 0 2).epoch ≤ (job []).m.lastEpoch 5 ∧ (job []).m.lastEpoch 5 < (rep 0 1 2).epoch ∧ (job []).m.suspicion 5 = none
    ∧ (∀ x ∈ (suspected false).m.suspicion 5, x.epoch < (rep 0 2 2).epoch) ∧ (suspected false).m.suspicion 5 = some { origin := 5, epoch := 1, witnesses := [2] }
    ∧ (rep 0 1 3).oport ≠ 0x1F ∧ (rep 0 1 3).oport ∉ [2] ∧ (rep 1 1 3).kind ≠ 0 ∧ (rep 0 1 2).oport ∈ [2] ∧ (suspected true).m.suspicion 5 = some { origin := 5, epoch := 1, witnesses := [2], closed := true }
    ∧ (rep 2 1 3).kind = 2 ∧ (([2] : List Nat).filter (· < 7)).length < 4 := by decide +kernel

/-- The job with a bell at Ta 1,000. -/
def belled : State := on (job []) (fun b => { b with dev := { b.dev with state := 5, bellPending := true, bellTa := 1000 }, faults := { b.faults with bells := [{ origin := 5, epoch := 1, ta := 1000 }] } })

theorem witness_BellsDecideByEarliestTa : (job []).m.jobRuns = true ∧ (job []).m.faults.bells = [] ∧ belled.m.jobRuns = true ∧ (∃ r ∈ belled.m.faults.bells, r.ta ≤ 1000)
    ∧ (∃ r ∈ belled.m.faults.bells, 999 < r.ta) ∧ (∀ q ∈ belled.m.faults.bells, 999 < q.ta) ∧ (rep 1 1 0).kind = 1 := by decide +kernel

/-- A receiving flow from module 1 with 64 packets not yet acknowledged. -/
def flowed : State :=
  on (inState 2) (fun b => { b with fab := { b.fab with rx := [{ key := { srcModule := 1, srcDie := 16, dstModule := 0, dstDie := 16, urgent := false }, next := 64, sinceAck := 64, firstUnacked := some 0 }] } })

/-- The same flow with one packet delivered at 0 and not yet acknowledged. -/
def flowedAt : State :=
  on (inState 2) (fun b => { b with fab := { b.fab with rx := [{ key := { srcModule := 1, srcDie := 16, dstModule := 0, dstDie := 16, urgent := false }, next := 1, sinceAck := 1, firstUnacked := some 0 }] } })

theorem witness_EndToEndBuffer : let s := buffered (inState 2) [e2e 1 0]
    (∃ f, flowed.m.fab.rx.find? (fun f => f.key == { srcModule := 1, srcDie := 16, dstModule := 0, dstDie := 16, urgent := false }) = some f ∧ 64 ≤ f.sinceAck)
    ∧ (∃ f t0, flowedAt.m.fab.rx.find? (fun f => f.key == { srcModule := 1, srcDie := 16, dstModule := 0, dstDie := 16, urgent := false }) = some f ∧ f.sinceAck < 64
        ∧ f.firstUnacked = some t0 ∧ t0 + 2000 ≤ (flowedAt.m.advanceTo 2000).span ∧ (flowedAt.m.advanceTo 1999).span < t0 + 2000)
    ∧ s.m.fab.e2e.find? (fun e => e.flow == (e2e 1 0).flow && e.seq == (5 : BitVec 16).toNat) = some (e2e 1 0) ∧ (s.m.advanceTo 19999).span < (e2e 1 0).sentAt + 20000
    ∧ (e2e 3 0).sentAt + 20000 ≤ (s.m.advanceTo 20000).span ∧ (e2e 3 0).sends < 4 ∧ 4 ≤ (e2e 4 0).sends ∧ s.m.fab.backlog = [] := by
  refine ⟨⟨_, rfl, ?_⟩, ⟨_, 0, rfl, ?_⟩, ?_, ?_, ?_, ?_, ?_, ?_⟩ <;> decide +kernel

/-- An intact flit whose first slot begins a packet of LEN 14. -/
def begun : Flit :=
  let f : Flit := { head := setFld (flit 1 0).head 14 0 1, payload := leBytes 32 (putBits 0 157 152 14) ++ zeros 208, crc := 0 }
  { f with crc := crc64 (flitBytes f) }

theorem begun_ok : Machine.flitOk begun = true := by simp [Machine.flitOk, begun, flitBytes]

/-- An intact flit but for its CRC. -/
def broken (typ seq : Nat) : Flit := { flit typ seq with crc := (flit typ seq).crc + 1 }

theorem flit_ok (a b : Nat) : Machine.flitOk (flit a b) = true := by simp [Machine.flitOk, flit, flitBytes]

theorem broken_not_ok (a b : Nat) : Machine.flitOk (broken a b) = false := by simp [Machine.flitOk, broken, flit, flitBytes]

theorem witness_FlitsAreTaken : let s := ported 17 { linkState := 2, phy := { spareOk := true }, rxAck := 0xFFF }
    s.m.ports.length = 18 ∧ s.m.power.main = .on ∧ (s.m.port 17).linkState ≠ 4 ∧ (s.m.port 17).linkState ≠ 5 ∧ (s.m.port 17).rxAck < 4096 ∧ (s.m.port 17).isUp = true ∧ (s.m.port 17).rxPart = []
    ∧ (∀ typ, typ < 5 → flag (flit typ 0).head 39 = false ∧ flitType (flit typ 0) = typ) ∧ flag begun.head 39 = false ∧ flitType begun = 1
    ∧ fld (flit 1 0).head 63 52 = ((s.m.port 17).rxAck + 1) % 4096 ∧ fld (flit 1 0).head 14 0 = 0 ∧ fld begun.head 63 52 = ((s.m.port 17).rxAck + 1) % 4096 ∧ fld begun.head 14 0 = 1
    ∧ 13 < bitsOf (leNat (slice begun.payload 0 32)) 157 152 ∧ fld (flit 1 4095).head 63 52 = (s.m.port 17).rxAck ∧ fld (flit 1 1).head 63 52 = ((s.m.port 17).rxAck + 2) % 4096
    ∧ (s.m.port 17).discarding = false ∧ ((ported 17 { linkState := 2, discarding := true }).m.port 17).discarding = true ∧ ((ported 17 {}).m.port 17).isUp = false
    ∧ fld (flit 2 0).head 63 52 = ((s.m.port 17).rxAck + 1) % 4096 ∧ s.m.peerOk 17 0x3FFF 0x1F = true ∧ (s.m.port 17).phy.spareOk = true ∧ (s.m.port 17).substPending = []
    ∧ (s.m.port 17).retry.length < 2048 ∧ (s.m.port 17).phy.lanes.length = 4 ∧ ((ported 17 { linkState := 2 }).m.port 17).phy.spareOk = false
    ∧ 3 ∈ ((ported 17 { linkState := 2, substPending := [3] }).m.port 17).substPending := by decide +kernel

theorem witness_FlitsAreTaken_crc : Machine.flitOk begun = true ∧ (∀ typ seq, Machine.flitOk (flit typ seq) = true) ∧ Machine.flitOk (broken 0 0) = false :=
  ⟨begun_ok, flit_ok, broken_not_ok 0 0⟩

theorem witness_LinksFailAndTrain :
    let up (y : Phy) : State := ported 0 { linkState := 2, phy := y }
    (up {}).m.ports.length = 18 ∧ (up {}).m.power.main = .on ∧ ((up {}).m.port 0).subst = false ∧ ((up {}).m.port 0).isUp = true ∧ ((up {}).m.port 0).lastIntact + 1000 ≤ ((up {}).m.advanceTo 1000).span
    ∧ ((up {}).m.port 0).phy.lanes.findIdx? (· == 3) = some 3 ∧ ((up { spareOk := true }).m.port 0).phy.spareOk = true ∧ ((up { spareOk := true }).m.port 0).substPending = []
    ∧ ((up {}).m.port 0).phy.spareOk = false ∧ (∃ x ∈ ((ported 0 { linkState := 2, phy := { spareOk := true }, substPending := [1] }).m.port 0).substPending, x ≠ 3)
    ∧ ((up {}).m.port 0).phy.lanes.findIdx? (· == ((up {}).m.port 0).phy.spareLane) = none
    ∧ ((up { failedLane := some { lane := 2, since := 0 } }).m.port 0).phy.failedLane = some { lane := 2, since := 0 } ∧ ((up {}).m.advanceTo 100000000).span ≤ 0 + 100000000
    ∧ (let s := ported 0 { linkState := 4 }
       (s.m.port 0).linkState = 4 ∧ (s.m.port 0).failedAt + 100000000 ≤ (s.m.advanceTo 100000000).span ∧ (s.m.port 17).standsFor ≠ 0 ∧ (s.m.port 0).dead = false)
    ∧ ((ported 0 {}).m.port 0).linkState = 0 ∧ (ported 0 {}).m.jobRuns = false ∧ (ported 0 {}).m.peerOk 0 0x3FFF 0x1F = true ∧ ((ported 0 { linkState := 1 }).m.port 0).linkState = 1 := by decide +kernel

/-- Port 0 expects module 9; SP0 tries to stand in for port 7. -/
def peered : State := on (ported 17 { linkState := 1, standsFor := 7, sp0Trial := true }) (fun b => { b with ports := (b.ports.set 7 { linkState := 4 }).set 0 { linkState := 2 }, fab := { b.fab with peers := b.fab.peers.set 0 (setFld (setFld (0 : BitVec 32) 31 31 1) 18 5 9) } })

theorem witness_LinksFailAndTrain_peers : peered.m.peerOk 0 9 1 = false ∧ peered.m.peerOk 0 9 0 = true ∧ (7 : Nat) ≠ 17 ∧ (peered.m.port 17).standsFor = 7 ∧ (peered.m.port 17).sp0Trial = true
    ∧ (peered.m.port 7).linkState = 4 ∧ peered.m.peerOk 7 9 1 = true ∧ peered.m.jobRuns = false ∧ (peered.m.port 0).isUp = true := by decide +kernel

/-- The clock of a state. -/
def clocked (s : State) (c : Clk) : State := on s (fun b => { b with clk := c })

/-- A module whose field of FABCFG names port 5, which is UP. -/
def timed9 (hi lo : Nat) : State := on (ported 5 { linkState := 2, peerLocked := true }) (fun b => { b with fab := { b.fab with cfg := setFld b.fab.cfg hi lo 5 } })

theorem witness_FabricTime : (ported 17 { linkState := 2 }).m.up 17 = true ∧ (ported 17 { linkState := 2 }).m.ports.length = 18 ∧ (inState 2).m.power.main = .on
    ∧ (let s := clocked (inState 2) { parentInUse := 3, parentFlitAt := 0 }
       s.m.clk.role = 0 ∧ s.m.up 3 = false ∧ s.m.clk.parentFlitAt + 10000 ≤ (s.m.advanceTo 10000).span ∧ fld s.m.fab.cfg 102 98 = 0x1F ∧ (s.m.advanceTo 10000).hears 0x1F = false)
    ∧ (let s := clocked (timed9 102 98) { parentInUse := 3 }
       s.m.up s.m.clk.parentInUse = false ∧ fld s.m.fab.cfg 102 98 = 5 ∧ (s.m.advanceTo 9999).hears 5 = true ∧ (s.m.port 5).peerLocked = true)
    ∧ (let s := clocked (inState 2) { role := 2, parentInUse := 3 }
       s.m.clk.role = 2 ∧ s.m.up s.m.clk.parentInUse = false ∧ fld s.m.fab.cfg 102 98 = 0x1F)
    ∧ (let s := clocked (timed9 97 93) { primarySince := some 0, parentInUse := 6 }
       s.m.clk.primarySince = some 0 ∧ 0 + 1000000000 ≤ (s.m.advanceTo 1000000000).span ∧ s.m.clk.parentInUse ≠ fld s.m.fab.cfg 97 93 ∧ s.m.clk.role = 0)
    ∧ (let s := on (clocked (timed9 97 93) { primarySince := some 0, parentInUse := 6 }) (fun b => { b with ports := b.ports.set 5 { linkState := 2, peerLocked := true, echoAt := 999999999 } })
       (s.m.advanceTo 1000000000).hears 5 = true ∧ (s.m.port 5).peerLocked = true)
    ∧ (let s := clocked (job []) { holdover := true, holdoverAt := some 0 }
       s.m.dev.state = 4 ∧ s.m.clk.holdover = true ∧ s.m.clk.holdoverAt = some 0 ∧ 0 + 2000000 ≤ (s.m.advanceTo 2000000).span ∧ s.m.dev.bellPending = false ∧ s.m.faults.bells = [])
    ∧ (clocked (inState 2) { role := 1 }).m.clk.role = 1 ∧ (clocked (inState 2) { fab := 24000000000, ppsLast := some 0 }).m.clk.ppsLast = some 0
    ∧ 0 + 1500000000 ≤ ((clocked (inState 2) { fab := 24000000000, ppsLast := some 0 }).m.advanceTo 0).fabNs := by decide +kernel

theorem witness_TimeNeverGoesBack : let c := (clocked (inState 2) { locked := true, ppsRate := -10000, frac := 999999999, fab := 16 }).m.clk
    c.frac < 1000000000 ∧ c.role ≠ 1 ∧ c.role ≠ 3 ∧ -10000 ≤ c.ppsRate ∧ c.ppsRate ≤ 10000 ∧ 0 ≤ 5 ∧ c.locked = true ∧ 16 ≤ c.fab := by decide +kernel

/-! Witnesses: crofts -/

/-- A lane run of operation 0 at slot 0. -/
def laneRun : LaneRun := { index := 0, pc := 0, phasePc := 0, regs := zeroRegs }
/-- The job of one LANE_RUN on tensors 2 to 2, its program one instruction. -/
def lanes (ws : List (Nat × Nat)) (ins : Nat) (l : LaneRun) : State :=
  on (job [op 8 ws]) (fun b => b.onCroft 0 (fun c => { c with lane := some l, progStore := [BitVec.ofNat 64 ins], progTable := [0x800#64] }))
/-- LANE_RUN words: row length 256, one row, operand A tensor 2, output tensor 2. -/
def lws : List (Nat × Nat) := [(3, 8), (4, 2), (6, 0xFFFF), (8, 2), (10, 0xFFFF)]

/-- Each opcode of R168 to R170 stands at the next slot of some run. -/
theorem witness_LaneRegisterInstructions : ∀ k, k < 0x20 → (lanes lws (k * 2 ^ 56) laneRun).m.nextSlot 0 = some (laneRun, BitVec.ofNat 64 (k * 2 ^ 56)) ∧ lopOf (BitVec.ofNat 64 (k * 2 ^ 56)) = k := by
  decide +kernel

theorem witness_LaneReductionsAndDraw : ((lanes lws 0 laneRun).m.tensor (opA ((lanes lws 0 laneRun).m.op 0 0)).tensor).isSome = true
    ∧ ((lanes [(3, 8), (4, 0xFFFF), (6, 0xFFFF), (8, 2)] 0 laneRun).m.tensor (opA ((lanes [(3, 8), (4, 0xFFFF), (6, 0xFFFF), (8, 2)] 0 laneRun).m.op 0 0)).tensor).isSome = false := by decide +kernel

theorem witness_LaneConstantLoads : laneRun.regs.length = 256 ∧ ∀ k, k < 9 → (lanes lws (0x13 * 2 ^ 56 + k) laneRun).m.nextSlot 0 = some (laneRun, BitVec.ofNat 64 (0x13 * 2 ^ 56 + k))
    ∧ lopImm (BitVec.ofNat 64 (0x13 * 2 ^ 56 + k)) = k := by decide +kernel

theorem witness_LaneTensorLoads : let s := lanes lws (0x13 * 2 ^ 56) laneRun
    (∀ n, n < 256 → (s.slotElem 0 (s.m.op 0 0) laneRun 0 n).2.2 = false) ∧ s.m.namesCache (s.m.slotRef (s.m.op 0 0) 0).tensor = false ∧ s.m.isCache (s.m.slotTensor (s.m.op 0 0) 0) = false ∧ s.m.attends (s.m.op 0 0) 0 = none
    ∧ s.m.isUpdate (s.m.op 0 0) = false := by decide +kernel

/-- The load of a scaled tensor whose first segment carries another tag than its scale record: the mismatch of R151. -/
theorem witness_LaneTensorLoads_mismatch :
    let s := (lanes [(3, 8), (4, 3), (6, 0xFFFF), (8, 2), (10, 0xFFFF)] (0x13 * 2 ^ 56) laneRun).writeStore 0 ((tensorOf (ten 0 true 4 16)).tagAddr 0) [1]
    ∃ n, n < 256 ∧ laneRun.loads s.m (s.m.op 0 0) 0 n = true ∧ (s.slotElem 0 (s.m.op 0 0) laneRun 0 n).2.2 = true := ⟨0, by decide +kernel⟩

theorem witness_LaneStoresWait : ∀ k, k < 6 → (lanes lws (0x14 * 2 ^ 56 + k * 2 ^ 24) laneRun).m.nextSlot 0 = some (laneRun, BitVec.ofNat 64 (0x14 * 2 ^ 56 + k * 2 ^ 24))
    ∧ lopOf (BitVec.ofNat 64 (0x14 * 2 ^ 56 + k * 2 ^ 24)) = 0x14 ∧ lopMode (BitVec.ofNat 64 (0x14 * 2 ^ 56 + k * 2 ^ 24)) = k := by decide +kernel

theorem witness_LaneSequencing : let s := lanes lws (0x1E * 2 ^ 56) laneRun
    ceilDiv (s.m.rowLen (s.m.op 0 0)) 256 ≤ laneRun.group + 1 ∧ opRows (s.m.op 0 0) ≤ laneRun.row + 1
    ∧ (let s := lanes [(3, 9 + 2 ^ 14), (4, 2), (6, 0xFFFF), (8, 0xFFFF), (10, 0xFFFF)] (0x1F * 2 ^ 56) laneRun
       laneRun.group + 1 < ceilDiv (s.m.rowLen (s.m.op 0 0)) 256 ∧ laneRun.row + 1 < opRows (s.m.op 0 0) ∧ (s.m.croft 0).program (opWord (s.m.op 0 0) 1 % 64) = some (0, [BitVec.ofNat 64 (0x1F * 2 ^ 56)])) := by decide +kernel

theorem witness_KF32Arithmetic : isNan (f32Add 0x7F800000#32 0xFF800000#32) = true ∧ isNan (f32Mul 0 0x7F800000#32) = true ∧ isNan (f32Fma 0 0x7F800000#32 0) = true
    ∧ isNan (f32Div 0 0) = true ∧ isNan 0x7FC00000#32 = true := by decide +kernel

/-- Words of an array operation: K of 128, operands and output by tensor, DRAIN_CTRL by output format. -/
def aws (a b out fmt : Nat) : List (Nat × Nat) := [(2, fmt * 2 ^ 10), (3, 4), (4, a), (6, b), (8, out), (10, 0xFFFF)]

theorem witness_OperationsIssue_arrays : (∀ x ∈ [(1, CroftUnit.fa, 0), (2, .ba, 1), (3, .ba, 1)],
    let s := job [op x.1 (aws x.2.2 x.2.2 2 8)]
    s.head 0 x.2.1 [x.1] = .ready 0 ∧ badArray s.m s.mem 0 (s.m.op 0 0) = false ∧ s.m.dev.ideState ≠ 2
    ∧ (let noted := (s.on (fun b => (b.endStall 0 x.2.1).journalIssue 0 0)).on (fun b => b.notePrior 0 0)
       noted.patched (s.m.op 0 0) true = none ∧ noted.patched (s.m.op 0 0) false = none))
    ∧ (let s := job [op 1 (aws 0 0 2 9)]
       s.head 0 .fa [1] = .ready 0 ∧ badArray s.m s.mem 0 (s.m.op 0 0) = true) := by
  decide +kernel

/-- A lane program table and store in place: one phase that does nothing. -/
def programmed (s : State) : State := on s (fun b => b.onCroft 0 (fun c => { c with progStore := [BitVec.ofNat 64 (0x1E * 2 ^ 56), BitVec.ofNat 64 (0x1F * 2 ^ 56)], progTable := [0x800#64] }))

theorem witness_OperationsIssue_others :
    (let s := programmed (job [op 8 ((2, 8 * 2 ^ 10) :: lws)])
     s.head 0 .lane [8] = .ready 0 ∧ badLane s.m 0 (s.m.op 0 0) = false ∧ s.m.isUpdate (s.m.op 0 0) = false ∧ s.m.namesCache (opOut (s.m.op 0 0)).tensor = false)
    ∧ (let s := job [op 0x0C ((2, 4 * 2 ^ 10 + 2 ^ 16) :: [(3, 4), (4, 3), (6, 0xFFFF), (8, 4), (10, 0xFFFF)])]
       s.head 0 .stile [0x0C] = .ready 0 ∧ badStile s.m (s.m.op 0 0) = false)
    ∧ (let s := job [op 0x0D ((2, 2 ^ 16) :: [(3, 4), (4, 1), (6, 0xFFFF), (8, 3), (10, 0xFFFF)])]
       s.head 0 .stile [0x0D] = .ready 0 ∧ badStile s.m (s.m.op 0 0) = false) := by decide +kernel

/-- The update run of 8 rows of layer 0, whose master tensor is tensor 5 and whose held shard is tensor 6, under a group of one member that this module owns. -/
def updating (held : List Held) : State :=
  on (programmed (job [op 8 [(3, 8 + 7 * 2 ^ 14), (4, 6), (6, 0xFFFF), (8, 5), (10, 0xFFFF)], op 3 [(0, 2 ^ 23), (10, 0)]])) (fun b =>
    { b with job := { b.job with clip := some 0x3F800000#32 }, mill := { b.mill with held := held },
             desc := { b.desc with layer := [setFld (setFld (setFld (setFld (0 : BitVec 512) 159 144 5) 175 160 0xFFFF) 191 176 0xFFFF) 223 192 0xFFFFFFFF] } })

theorem witness_OperationsIssue_update : let s := updating []
    s.head 0 .lane [8] = .ready 0 ∧ badLane s.m 0 (s.m.op 0 0) = false ∧ s.m.isUpdate (s.m.op 0 0) = true ∧ s.m.job.clip.isSome = true ∧ s.m.shardPending (s.m.op 0 0) = false
    ∧ (s.on (fun b => (b.endStall 0 .lane).journalIssue 0 0)).m.heldComplete (s.m.op 0 0) = false := by decide +kernel

theorem witness_OperationsIssue_update_held : let s := updating ((List.range 8).map (fun k => { group := 0, layer := 0, slice := k, state := .complete }))
    s.head 0 .lane [8] = .ready 0 ∧ badLane s.m 0 (s.m.op 0 0) = false ∧ s.m.isUpdate (s.m.op 0 0) = true ∧ s.m.shardPending (s.m.op 0 0) = false
    ∧ (s.on (fun b => (b.endStall 0 .lane).journalIssue 0 0)).m.heldComplete (s.m.op 0 0) = true := by decide +kernel

/-- Words of a MOVE: kind, target tier, source and destination. -/
def mws (kind tier : Nat) (src dst : Nat) (store : Bool) : List (Nat × Nat) :=
  [(1, kind + 256 * tier), (2, 0xFFFF), (3, if kind = 1 then 1 else 0), (4, src % 2 ^ 32), (5, src / 2 ^ 32), (6, dst % 2 ^ 32), (7, dst / 2 ^ 32 + (if store then 2 ^ 31 else 0))]
/-- Two parcels: of the larder at page 1, of the host tier at page 16. -/
def twoParcels (s : State) : State :=
  on s (fun b => { b with tiers := { b.tiers with
    parcels := [{ id := 0, base := 65536, pages := 2, codec := false, pin := false, home := 1 }, { id := 1, base := 0x100000, pages := 1, codec := false, pin := false, home := 3 }],
    pages := [{ page := 1, parcel := 0, tier := 1, frame := 0 }, { page := 2, parcel := 0, tier := 1, frame := 1 }, { page := 16, parcel := 1, tier := 3, frame := 0 }] } })

theorem witness_OperationsIssue_moves : ∀ x ∈ [(0, 0, 65536, 0, true), (1, 2, 65536, 0, false), (2, 0, 65536, 0x100000, false), (3, 0, 0x100000, 65536, false)],
    let s := twoParcels (job [op 0x10 (mws x.1 x.2.1 x.2.2.1 x.2.2.2.1 x.2.2.2.2)])
    s.head 0 .move [0x10] = .ready 0 ∧ moveKind (s.m.op 0 0) = x.1 ∧ badMove s.m (s.m.op 0 0) = false ∧ s.m.notBefore (s.m.op 0 0) ≤ s.m.now ∧ s.m.squirrelFull x.1 = false := by decide +kernel

theorem witness_ArrayTileIsFormed : let s := job [op 1 (aws 0 0 2 8)]
    0 < s.m.crofts.length ∧ ∀ l ∈ operandLines s.mem 0 (s.m.source (opA (s.m.op 0 0)) {}) (opA (s.m.op 0 0)) false 1 4, ∀ x ∈ l, x.tagBad = none ∧ x.squareBad = none := by decide +kernel

/-- The tag byte of the first segment of operand A does not agree with the tensor's tag. -/
theorem witness_ArrayTileIsFormed_mismatch : let s := (job [op 1 (aws 3 0 2 8)]).writeStore 0 ((tensorOf (ten 0 true 4 16)).tagAddr 0) [1]
    let la := operandLines s.mem 0 (s.m.source (opA (s.m.op 0 0)) {}) (opA (s.m.op 0 0)) false 1 4
    let lb := operandLines s.mem 0 (s.m.source (opB (s.m.op 0 0)) {}) (opB (s.m.op 0 0)) false 1 4
    ((issueOrder la lb 4 (passBlocks (s.m.op 0 0) .fa {})).find? (fun y => y.2.tagBad.isSome || y.2.squareBad.isSome)).map (fun y => (y.1, y.2.tagBad)) = some (true, some 4) := by
  decide +kernel

/-- A journal with one entry of operation 1 in a state. -/
def journaled (s : State) (st : JState) : State := on s (fun b => b.onCroft 0 (fun c => { c with journal := [{ op := 0, index := 1, tIssue := 0, state := st }] }))

theorem witness_ControlOperations : (∀ k ∈ [0x18, 0x19, 0x1A, 0x1F], let s := job [op k []]
      s.m.controlHead 0 k = .ready 0 ∧ badControl (s.m.op 0 0) = false ∧ (s.m.croft 0).quietBefore 0 = true ∧ (s.m.die (dieOf 0)).hold = none)
    ∧ (job [op 0x1A []]).m.waitTime ((job [op 0x1A []]).m.op 0 0) ≤ (job [op 0x1A []]).m.now ∧ (job [op 0x1A [(4, 1)]]).m.now < (job [op 0x1A [(4, 1)]]).m.waitTime ((job [op 0x1A [(4, 1)]]).m.op 0 0)
    ∧ (let s := on (job [op 0x1A [(4, 1)]]) (fun b => b.onCroft 0 (fun c => { c with waitUntil := some 1 }))
       (s.m.croft 0).waitUntil = some 1 ∧ (s.m.croft 0).todo = 0 :: [] ∧ opCode (s.m.op 0 0) = 0x1A ∧ s.m.waitTime (s.m.op 0 0) = 1 ∧ 1 ≤ (s.m.advanceTo 1).now ∧ (s.m.advanceTo 1).waitTime (s.m.op 0 0) = 1)
    ∧ ((job []).m.croft 191).commitAt + 200000 ≤ ((job []).m.advanceTo 200000).now
    ∧ (let s := journaled (job []) .issued
       (s.m.croft 0).spanOpen = false ∧ (∃ e ∈ (s.m.croft 0).journal, e.state ≠ .retained) ∧ (s.m.croft 0).forcing = false ∧ (s.m.croft 0).inFlight ≠ [] ∧ 0 < s.m.crofts.length) := by decide +kernel

/-- A write to a tensor that an uncommitted operation of croft 0 reads waits since time 0. -/
theorem witness_ControlOperations_hold :
    let s := on (twoParcels (job [])) (fun b => { b with
      tiers := { b.tiers with heldWrites := [{ address := 65536, bytes := [1], since := 0 }] } }.onCroft 0 (fun c =>
        { c with journal := [{ op := op 0x10 (mws 0 0 65536 0 true), index := 0, tIssue := 0 }] }))
    (s.on (·.advanceTo 10000)).holdsOn 0 = true := by decide +kernel

/-- A tile of operation 0. -/
def tile0 : Tile := { index := 0, attempt := {}, vanish := 0, clamp := false, setSat := false, setNonfin := false, prior := [], cells := [], counts := [] }
/-- The job with a tile in an array. -/
def tiled (ops : List (BitVec 512)) (a : Arr) : State := on (job ops) (fun b => b.onCroft 0 (fun c => c.onUnit a (fun x => { x with tile := some tile0 })))

theorem witness_TilesDrainAndRepeat : let s := tiled [op 1 (aws 0 0 2 8)] .fa
    (s.m.croft 0).stopped = false ∧ ((s.m.croft 0).unit .fa).tile = some tile0 ∧ opFlag (s.m.op 0 tile0.index) 7 = false
    ∧ tileOk (s.m.op 0 0) tile0 {} = true ∧ tileOk (s.m.op 0 0) tile0 { product := false } = false ∧ (s.m.splitOf 0 0).length = 1
    ∧ ((tiled [op (3 + 2 ^ 23) []] .ba).m.croft 0).stopped = false ∧ (((tiled [op (3 + 2 ^ 23) []] .ba).m.croft 0).unit .ba).tile = some tile0 ∧ opFlag ((tiled [op (3 + 2 ^ 23) []] .ba).m.op 0 0) 7 = true
    ∧ (((job []).m.croft 0).unit .ba).tile = none ∧ (((job []).m.croft 0).unit .fa).tile = none
    ∧ (on (job [op 1 []]) (fun b => b.onCroft 0 (fun c => { c with redo := [(0, { repeated := true, climbs := 1 })] }))).m.nextRedo 0 (fun a => a.repeated || a.cascade) = some (0, { repeated := true, climbs := 1 })
    ∧ (on (job [op 1 []]) (fun b => b.onCroft 0 (fun c => { c with redo := [(0, { spanReplay := true })] }))).m.nextRedo 0
        (fun a => a.spanReplay && !a.replay && !a.repeated && !a.cascade) = some (0, { spanReplay := true }) := by decide +kernel

/-! Witnesses: steps, storage, faults and resets -/

/-- The block of a state at a time. -/
def timed (s : State) (t : Nat) : Block := s.m.advanceTo t
/-- A job whose last boundary has aborted it, 100 us to go. -/
def abortedJob (reason : Nat) : State :=
  on (job []) (fun b => { b with dev := { b.dev with state := 5, bellDone := true, bellTa := 0 }, faults := { b.faults with oosPending := reason } })

theorem witness_StepBoundaries :
    (let b := timed (on (job []) (fun b => { b with job := { b.job with begun := false, tStart := 5 } })) 5
     b.jobRuns = true ∧ b.dev.bellDone = false ∧ b.dev.bellPending = false ∧ b.job.begun = false ∧ b.job.tStart ≤ b.now)
    ∧ (let b := timed (job []) 1000000
       b.jobRuns = true ∧ b.dev.bellDone = false ∧ b.dev.bellPending = false ∧ b.job.begun = true ∧ b.job.boundaryAt ≤ b.now ∧ b.stepDone = true ∧ b.job.stops = [])
    ∧ (let b := timed (on (job []) (fun b => { b with job := { b.job with stops := [0] } })) 1000000
       b.job.begun = true ∧ b.job.boundaryAt ≤ b.now ∧ b.stepDone = true ∧ ∃ x ∈ b.job.stops, x ≤ b.job.step)
    ∧ (timed (job []) 999999).now < (timed (job []) 999999).job.boundaryAt
    ∧ (let b := timed belled 1000
       b.jobRuns = true ∧ b.dev.bellPending = true ∧ b.dev.bellTa ≤ b.now ∧ ∃ r ∈ b.faults.bells, some r.ta = b.earliestTa)
    ∧ (∀ reason, reason < 2 → let b := timed (abortedJob reason) 100000
       b.dev.state = 5 ∧ b.dev.bellDone = true ∧ b.dev.bellTa + 100000 ≤ b.now ∧ b.faults.oosPending = reason)
    ∧ (timed (on (job []) (fun b => { b with tally := { b.tally with slotStep := some 3 } })) 0).tally.slotStep = some 3 := by decide +kernel

/-- A module with a tier change and the moves of croft 0 in its queues. -/
def storing : State := on (twoParcels (inState 2)) (fun b => { b with
  cache := { b.cache with flushes := [(0, 1)] },
  tiers := { b.tiers with pages := [{ page := 1, parcel := 0, tier := 1, frame := 0, migrating := some (2, 7) }, { page := 16, parcel := 1, tier := 2, frame := 3 }], retired := [3],
                          prefetch := [{ index := 0, croft := 0, op := 0 }], offload := [{ index := 1, croft := 0, op := 0 }],
                          reads := [{ croft := 0, index := 0, since := 0, attempts := 2 }, { croft := 1, index := 0, since := 0, attempts := 3 }] } })

theorem witness_StorageEvents : storing.m.cache.flushes.find? (fun f => f.1 == 0) = some (0, 1) ∧ (∃ e, storing.m.page 1 = some e ∧ e.migrating = some (2, 7))
    ∧ (∃ m, storing.m.nextMove storing.m.tiers.prefetch = some m ∧ storing.m.notBefore m.op ≤ storing.m.now) ∧ (∃ m, storing.m.nextMove storing.m.tiers.offload = some m ∧ storing.m.notBefore m.op ≤ storing.m.now)
    ∧ storing.m.dev.bellDone = false
    ∧ (let s := on (job [0]) (fun b => b.onCroft 0 (fun c => { c with moves := [{ index := 0, croft := 0, op := 0 }] }))
       (∃ m, (s.m.croft 0).moves.find? (fun m => m.index == 0) = some m ∧ m.pages = []) ∧ s.m.tiers.offload ++ s.m.tiers.prefetch = [])
    ∧ (job []).m.jobRuns = true ∧ storing.m.jobRuns = false
    ∧ (∃ e, storing.m.page 16 = some e ∧ e.tier = 2 ∧ storing.m.tiers.retired.contains e.frame = true ∧ e.migrating = none)
    ∧ (∃ r, (timed storing 50000).tiers.reads.find? (fun r => r.croft == 0 && r.since + 50000 ≤ (timed storing 50000).span) = some r ∧ r.attempts < 3)
    ∧ (∃ r, (timed storing 50000).tiers.reads.find? (fun r => r.croft == 1 && r.since + 50000 ≤ (timed storing 50000).span) = some r ∧ 3 ≤ r.attempts) := by
  refine ⟨?_, ⟨_, rfl, ?_⟩, ⟨_, rfl, ?_⟩, ⟨_, rfl, ?_⟩, ?_, ⟨⟨_, rfl, ?_⟩, ?_⟩, ?_, ?_, ⟨_, rfl, ?_⟩, ⟨_, rfl, ?_⟩, ⟨_, rfl, ?_⟩⟩ <;> decide +kernel

/-- The descriptor of a group of two members, this module rank 0. -/
def pairDesc : BitVec 512 := setFld (setFld (setFld (0 : BitVec 512) 511 460 65536) 261 248 2) 210 210 1
/-- A running job's group 3 of modules 0 and 1, whose records wait for module 1. -/
def paired (nodes : List Operand) : State :=
  (on (parcels (job [])) (fun b => { b with desc := { b.desc with groups := [{ index := 3, desc := pairDesc }] }, mill := { b.mill with scalarIssued := some 0, nodes := nodes } })).writeParcel 65540 [1]
/-- The operand of module 1 in that group. -/
def fromOne : Operand := { group := 3, slice := 0, mb := 0, part := 7, from_ := 1, step := 0, elems := [], info := 0 }

theorem witness_CellarScrubAndDeadlines :
    (timed (inState 2) 0).tiers.calibrating = [] ∧ (timed (inState 2) 0).tiers.retraining = []
    ∧ (timed (on (inState 2) (fun b => { b with tiers := { b.tiers with calibrating := [(0, 0)] } })) 399).span < 0 + 400 ∧ channelDie 0 ≠ channelDie 79
    ∧ (∃ x ∈ (timed (on (inState 2) (fun b => { b with tiers := { b.tiers with retraining := [(79, 0)] } })) 0).tiers.retraining, x.1 = 79)
    ∧ (let b := timed (on (inState 2) (fun b => { b with tiers := { b.tiers with corrected := [(9, 0), (9, 0)] } })) 86399999999999
       2 ≤ (b.tiers.corrected.filter (fun x => x.1 == 9 && decide (b.clk.own < x.2 + 86400000000000))).length)
    ∧ (∀ ns ∈ [[], [fromOne]], let s := paired ns
       s.m.group 3 = some pairDesc ∧ (s.hops 3 pairDesc 0 7).find? (fun h => !h.up && h.level == 1) = some ⟨1, 1, false⟩ ∧ s.m.millDeadline pairDesc 3 0 0 7 1 = some 0 ∧ 0 ≤ s.m.now)
    ∧ (paired []).m.mill.nodes.find? (fun o => o.is 3 0 0 7 1 && o.step == (paired []).m.job.step) = none
    ∧ (paired [fromOne]).m.mill.nodes.find? (fun o => o.is 3 0 0 7 1 && o.step == (paired [fromOne]).m.job.step) = some fromOne ∧ fromOne.taken = false := by
  refine ⟨?_, ?_, ?_, ?_, ?_, ?_, ?_, ?_, ?_⟩ <;> decide +kernel

/-- A class D error that has arrived alone. -/
def arrivedD : State := on (job []) (fun b => { b with faults := { b.faults with arrived := [{ cls := .d, code := 0x0A, at_ := 0 }] } })

theorem witness_Watchdogs_arrived : arrivedD.drainLog.m.faults.arrived = [{ cls := .d, code := 0x0A, at_ := 0 }] ∧ arrivedD.drainLog.m.faults.queue = [] ∧ arrivedD.drainLog.m.faults.reset = none
    ∧ arrivedD.drainLog.m.faults.handling = none ∧ ({ cls := .d, code := 0x0A, at_ := 0 } : ErrorRec).croftSide = false
    ∧ (let w : State := on (paired []) (fun b => { b with faults := { b.faults with watches := [{ producer := 1, since := 0 }] } })
       w.m.maySuspect 1 0 = false ∧ ∀ x ∈ w.m.faults.watches, ¬(x.producer = 1 ∧ x.since = 0 ∧ x.bound = true)) := by decide +kernel

theorem witness_Watchdogs :
    (let s := on (tiled [op 1 (aws 0 0 2 8)] .fa) (fun b => b.onCroft 0 (fun c => { c with beats := [(.fa, 0)] }))
     (s.on (·.advanceTo 20000)).working 0 .fa = some 0 ∧ (s.m.croft 0).stopped = false ∧ assocGet .fa (s.m.croft 0).beats = some 0 ∧ 0 + 20000 ≤ (timed s 20000).now ∧ (timed s 19999).now < 0 + 20000)
    ∧ (let s := on (job []) (fun b => b.onCroft 191 (fun c => { c with stalls := [{ unit := .lane, since := 0, tier := 2, cause := 0 }], lastFault := some 0 }))
       (∃ x, (s.m.croft 191).stalls.find? (fun x => x.unit == .lane && x.tier != 3) = some x ∧ x.since = 0) ∧ 0 + 10000000 ≤ (timed s 10000000).now ∧ (timed s 9999999).now < 0 + 10000000
       ∧ (s.m.croft 191).lastFault = some 0 ∧ 0 + 10000000000 ≤ (timed s 10000000000).span ∧ (timed s 9999999999).span < 0 + 10000000000 ∧ 191 < s.m.crofts.length)
    ∧ (let s := on (paired []) (fun b => { b with mill := { b.mill with waits := [{ group := 3, slice := 0, mb := 0, part := 7, from_ := 1, since := 0 }] } })
       s.waitSince 1 = some 0 ∧ s.m.jobRuns = true ∧ s.m.faults.watches = [] ∧ 0 + 5000000 ≤ (timed s 5000000).now ∧ (timed s 5000000).maySuspect 1 0 = true ∧ (timed s 4999999).now < 0 + 5000000
       ∧ 0 + 100000000 ≤ (timed s 100000000).now ∧ (timed s 99999999).now < 0 + 100000000) := by
  refine ⟨?_, ⟨⟨_, rfl, ?_⟩, ?_⟩, ?_⟩ <;> decide +kernel

/-- A class C error. -/
def errC : ErrorRec := { cls := .c, code := 0x35, at_ := 0 }
/-- The log FIFO with n entries. -/
def logged (n : Nat) : State := on (inState 2) (fun b => { b with faults := { b.faults with logFifo := List.replicate n errC } })

theorem witness_ClassCErrorsAreLogged : errC.cls = .c ∧ (logged 255).m.faults.logFifo.length < 256 ∧ 256 ≤ (logged 256).m.faults.logFifo.length
    ∧ (logged 255).m.count .errorsC ≤ 2 ^ 64 - 1 ∧ (logged 255).m.count (.life 7 0) ≤ 2 ^ 64 - 1 := by decide +kernel

theorem witness_TallyCountersStop : ({ counts := [((1, 0, .zeros), 2 ^ 64 - 1)] } : TallyBank).get 1 0 .zeros ≤ 2 ^ 64 - 1 := by decide +kernel

/-- A reset in progress since time 0. -/
def resetting (d : Domain) : State := on (job []) (fun b => { b with faults := { b.faults with reset := some { domain := d, since := 0, error := errC }, handling := some errC } })

theorem witness_FaultHandling : (inState 2).m.faults.logFifo = [] ∧ (inState 2).m.faults.arrived = [] ∧ (inState 2).m.faults.queue = []
    ∧ (∀ d ∈ [Domain.croft 0, .die 0, .compute], ∃ n, (∃ r, (resetting d).m.faults.reset = some r ∧ r.domain.timeout = some n ∧ (timed (resetting d) 0).span < r.since + n ∧ r.since + n ≤ (timed (resetting d) n).span))
    ∧ (∀ n ∈ (Domain.die 15).crofts, n < (job []).m.crofts.length) ∧ ((resetting (.croft 0)).m.croft 0).suspect = false
    ∧ (on (job [op 1 []]) (fun b => b.onCroft 0 (fun c => { c with redo := [(0, { replay := true })] }))).m.nextRedo 0 (fun a => a.replay && !a.repeated && !a.cascade) = some (0, { replay := true }) := by
  refine ⟨?_, ?_, ?_, ?_, ?_, ?_, ?_⟩ <;> (try decide +kernel)
  intro d h
  simp only [List.mem_cons, List.not_mem_nil, or_false] at h
  rcases h with rfl | rfl | rfl
  · exact ⟨_, _, rfl, rfl, by decide +kernel⟩
  · exact ⟨_, _, rfl, rfl, by decide +kernel⟩
  · exact ⟨_, _, rfl, rfl, by decide +kernel⟩

/-- A module reset is owed. -/
def owed (n : Nat) : State := on (inState n) (fun b => { b with boot := { b.boot with resetDueAt := some 0 } })
/-- The bytes of a record for the module after reset, its identity key all zeros, with a signature of zeros. -/
def recordBytes : List Byte := leBytes 256 State.reset.m.boot.recordBody.toNat ++ zeros 29792
/-- An image that has a header for such a module and a signature of zeros. -/
def imageBytes : List Byte :=
  leBytes 64 (putBits (putBits (putBits (putBits 0 447 416 29856) 383 383 1) 63 32 1) 31 0 0x4A484C53) ++ zeros 29792

theorem witness_ModuleResets : (owed 2).m.mayBoot = true ∧ (owed 2).m.resetOwed = true ∧ (inState 2).m.resetOwed = false ∧ (owed 0).m.dev.state = 0 ∧ (owed 0).m.boot.resetDueAt = some 0
    ∧ (owed 0).m.mayBoot = true ∧ recordHolds [] State.reset.m.boot.identity sense.stepping = false
    ∧ (on State.reset (fun b => { b with power := { b.power with standby := false } })).m.power.standby = false ∧ State.reset.m.dev.state = 1 ∧ State.reset.m.power.main = .on
    ∧ selfTestFails { passes with larderOk := false } = true ∧ selfTestFails passes = false ∧ State.reset.m.boot.heldOut = false ∧ oosReasonOf State.reset.m.faults.record = 0 := by
  refine ⟨?_, ?_, ?_, ?_, ?_, ?_, ?_, ?_, ?_, ?_, ?_, ?_, ?_, ?_⟩ <;> decide +kernel

/-- A module whose EEPROM and image region hold that record and that image, with a secret k. -/
def flashed (k : BitVec 256) : State := on State.reset (fun b => { b with boot := { b.boot with eepromRecord := recordBytes, flashImage := imageBytes, identity := some k } })

/-- The record and the image of a boot to INIT hold once the verifier accepts their signatures and the identity key is that of the record: nothing can be proved of either
(log 12), so both are named here. -/
theorem witness_ModuleResets_boot (k : BitVec 256) (hk : leAt (identityPublic k) 0 64 = 0) (hr : Config.slhVerify Config.recordKey (slice recordBytes 0 256) (slice recordBytes 256 29792) = true)
    (hi : Config.slhVerify (Config.imageKey 0) (slice imageBytes 0 64) (slice imageBytes 64 29792) = true) :
    recordHolds (flashed k).m.boot.eepromRecord (flashed k).m.boot.identity 1 = true
    ∧ imageHolds (flashed k).m.boot.flashImage (recordBodyOf (flashed k).m.boot.eepromRecord) (flashed k).m.boot.romVersion 1 = true
    ∧ (flashed k).m.boot.committing = false ∧ sense.railsOk = true ∧ sense.densityGib = fld (recordBodyOf (flashed k).m.boot.eepromRecord) 1296 1285 := by
  have hb : recordBodyOf recordBytes = State.reset.m.boot.recordBody := by decide +kernel
  have hl : imageLen imageBytes = 29856 := by decide +kernel
  have hh : imageHead imageBytes = BitVec.ofNat 512 (putBits (putBits (putBits (putBits 0 447 416 29856) 383 383 1) 63 32 1) 31 0 0x4A484C53) := by decide +kernel
  have e : (flashed k).m.boot.eepromRecord = recordBytes := rfl
  have f : (flashed k).m.boot.flashImage = imageBytes := rfl
  have g : (flashed k).m.boot.identity = some k := rfl
  have v : (flashed k).m.boot.romVersion = State.reset.m.boot.romVersion := rfl
  refine ⟨?_, ?_, rfl, by decide +kernel, by rw [e, hb]; decide +kernel⟩
  · rw [e, g]; unfold recordHolds; rw [hb]; simp only [Option.any_some, hk, hr]; decide +kernel
  · rw [e, f, v]; unfold imageHolds; rw [hb, hl, hh]
    have : fld (BitVec.ofNat 512 (putBits (putBits (putBits (putBits 0 447 416 29856) 383 383 1) 63 32 1) 31 0 0x4A484C53)) 65 64 = 0 := by decide +kernel
    simp only [this]
    show (_ && Config.slhVerify (Config.imageKey 0) (slice imageBytes 0 64) (slice imageBytes 64 29792)) = true
    rw [hi, Bool.and_true]; unfold imageSvn; rw [hh]; decide +kernel

/-! Witnesses: power, tests and what is observed -/

/-- Power with something changed. -/
def powerd (f : Power → Power) : State := on (inState 2) (fun b => { b with power := f b.power })

theorem witness_PowerDown : (inState 2).m.power.standby = true ∧ (inState 2).m.power.warnedAt = none ∧ (inState 2).m.powered = true ∧ (inState 2).m.power.downAt = none ∧ (inState 2).m.power.prsntOk = true
    ∧ (powerd (fun p => { p with downAt := some 50 })).m.power.downAt = some 50 ∧ 50 ≤ (timed (powerd (fun p => { p with downAt := some 50 })) 50).span
    ∧ (timed (powerd (fun p => { p with downAt := some 50 })) 49).span < 50 ∧ (powerd (fun p => { p with downAt := some 50 })).m.powered = true ∧ (Counter.life 0 0).standby = true
    ∧ (powerd (fun p => { p with main := .falling })).m.power.main = .falling
    ∧ (powerd (fun p => { p with inputShed := true })).m.power.inputShed = true ∧ (powerd (fun p => { p with inputShed := true })).m.power.perstLow = false
    ∧ (powerd (fun p => { p with perstLow := true })).m.power.perstLow = true ∧ (powerd (fun p => { p with perstLow := false })).m.mayBoot = true
    ∧ (powerd (fun p => { p with inputShed := true })).m.mayBoot = false := by decide +kernel

/-- POWER_CTRL with a field set. -/
def throttling (hi lo v : Nat) : State := on (inState 2) (fun b => { b with desc := { b.desc with power := setFld (setFld b.desc.power 1 1 1) hi lo v } })

theorem witness_ThrottlesAndCap : flag (inState 2).m.desc.power 1 = false ∧ flag (throttling 1 1 1).m.desc.power 1 = true ∧ 1500 < fld (throttling 95 80 1501).m.desc.power 95 80
    ∧ fld (throttling 95 80 1500).m.desc.power 95 80 ≤ 1500 ∧ (inState 2).m.power.main = .on ∧ 97 * powerLimit (inState 2).m.desc.power < 100 * 65535
    ∧ 100 * 0 ≤ 97 * powerLimit (inState 2).m.desc.power ∧ fld (inState 2).m.desc.power 95 80 ≤ 3000 ∧ fld (inState 2).m.desc.power 79 64 ≤ 256
    ∧ (warm 300).optics = [] ∧ tooHot (warm 300) = false ∧ tooHot (warm 1150) = true ∧ 1000 ≤ hottest ({ warm 900 with junctions := [1000] }).junctions ∧ tooHot { warm 900 with junctions := [1000] } = false
    ∧ 1200 ≤ ({ warm 900 with stage := 1200 }).stage ∧ tooHot { warm 900 with stage := 1200 } = false ∧ ({ warm 900 with stage := 1170 }).stage ≤ 1170
    ∧ (throttling 1 1 1).m.periodPast (throttling 1 1 1).m.power.stepAt 100000 = true ∧ (inState 2).m.periodPast (inState 2).m.power.comparedAt 10000 = true
    ∧ (let s := powerd (fun p => { p with comparedAt := some 0, stepAt := some 0 })
       (timed s 9999).periodPast (some 0) 10000 = false ∧ (timed s 10000).periodPast (some 0) 10000 = true ∧ (timed s 99999).periodPast (some 0) 100000 = false
       ∧ (timed s 100000).periodPast (some 0) 100000 = true)
    ∧ (∃ p ∈ ({ warm 900 with packages := [950] }).packages, 950 ≤ p) ∧ tooHot { warm 900 with packages := [950] } = false ∧ (∀ p ∈ (warm 920).packages, p ≤ 920)
    ∧ (inState 2).m.power.downAt = none := by decide +kernel

/-- An excursion of a source since time 0. -/
def excursion (src : MonSource) : State := on (inState 2) (fun b => { b with safety := { b.safety with excursions := [(src, 0)] } })

theorem witness_SelfTestsMonitorsAndLog : (inState 2).m.power.main = .on ∧ 191 < (inState 2).m.crofts.length ∧ ((inState 2).m.croft 191).deferring = false ∧ (timed (inState 2) 955000).slotTime 191 = true ∧ (timed (inState 2) 954999).slotTime 191 = false
    ∧ (timed (inState 2) 997500).slotTime 207 = true ∧ ((on (inState 2) (fun b => b.onCroft 191 (fun c => { c with stopped := true }))).m.croft 191).deferring = true ∧ (timed (inState 2) 1000000).clk.own % 1000000 = 0
    ∧ (3 : Nat) ≠ 2 ∧ (inState 2).m.safety.excursions = [] ∧ 15 < (inState 2).m.dies.length
    ∧ (∀ src ∈ [MonSource.computeDie 15 false, .computeDie 15 true, .other 0, .other 24], ((excursion src).m.safety.excursions.find? (fun e => e.1 == src)) = some (src, 0)
        ∧ (timed (excursion src) 9999).span < 0 + 10000 ∧ 0 + 10000 ≤ (timed (excursion src) 10000).span)
    ∧ fld (on (inState 2) (fun b => { b with desc := { b.desc with trace := setFld b.desc.trace 383 352 0 } })).m.desc.trace 383 352 = 0
    ∧ fld (inState 2).m.desc.trace 407 400 = 0 ∧ (on (inState 2) (fun b => { b with safety := { b.safety with exportSeq := 1 } })).m.safety.exportSeq ≠ 0
    ∧ (inState 2).m.power.standby = true ∧ (timed (inState 2) 0).life.savedSpan + 600000000000 ≤ (timed (inState 2) 600000000000).span := by decide +kernel

/-- An image of SNAP_ID 7 since time 0, and its page. -/
def imaging (i : Image) (bear : Bear) : State :=
  on (parcels (job [])) (fun b => { b with snap := { b.snap with image := some i }, desc := { b.desc with snap := setFld b.desc.snap 175 144 16 },
                                           tiers := { b.tiers with pages := [{ page := 1, parcel := 0, tier := 1, frame := 0, bear := bear }] } })
/-- That image. -/
def image7 : Image := { snapId := 7, barrier := 0, section_ := [], jobPart := 0, dest := 0, slot := 0 }

theorem record_length (s : State) (p : Nat) : (s.pageRecord p).length ≤ 1048576 - 128 → image7.length + (s.pageRecord p).length + 64 ≤ 16 * 65536 := by
  intro h; have : image7.length = 64 := rfl; omega

/-- A packet to PARTNER's image slot, with a payload, and the state in which it waits. -/
def imagePkt (pl : List Byte) : Pkt := { head := setFld (setFld 0 163 158 1) 207 194 0x3FFF, payload := pl }
def drainingImage (pl : List Byte) : State :=
  on (imaging image7 .copying) (fun b => { b with fab := { b.fab with e2e := [], backlog := [{ pkt := imagePkt pl, edge := none, port := none, io := 0, since := 0 }] } })

theorem image_head : let h : BitVec 256 := setFld (setFld 0 163 158 1) 207 194 0x3FFF
    fld h 163 158 = 1 ∧ fld h 207 194 = 0x3FFF ∧ fld h 147 96 = 0 := by decide +kernel

theorem image_desc : fld (imaging image7 .copying).m.desc.snap 111 98 = 0x3FFF ∧ fld (imaging image7 .copying).m.desc.snap 383 332 = 0
    ∧ fld (imaging image7 .copying).m.desc.snap 175 144 = 16 := by decide +kernel

theorem on_fab_desc (s : State) (f : Block → Fab) : (on s (fun b => { b with fab := f b })).m.desc = s.m.desc := rfl

theorem draining_write (pl : List Byte) : (drainingImage pl).m.imageWrite (imagePkt pl) = true := by
  obtain ⟨a, b, c⟩ := image_desc
  obtain ⟨d, e, f⟩ := image_head
  have hd : (imagePkt pl).head = setFld (setFld 0 163 158 1) 207 194 0x3FFF := rfl
  unfold Block.imageWrite Pkt.typ Pkt.dstModule Pkt.address Pkt.fld drainingImage
  rw [on_fab_desc, hd, a, b, c, d, e, f]
  rfl

theorem draining_writes (s : State) (p : Pkt) (h : s.m.imageWrite p = true) (he : s.m.fab.e2e = []) (hb : s.m.fab.backlog.map (·.pkt) = [p]) :
    s.m.imageWrites = [p] := by simp [Block.imageWrites, he, hb, h]

theorem on_fab_fab (s : State) (f : Block → Fab) : (on s (fun b => { b with fab := f b })).m.fab = f s.m := rfl

theorem copy_out_full (pl : List Byte) (h : pl.length = 2 ^ 28) : (drainingImage pl).m.copyOutFull = true := by
  have e : (drainingImage pl).m.imageWrites = [imagePkt pl] := by
    apply draining_writes _ _ (draining_write pl) <;> unfold drainingImage <;> rw [on_fab_fab] <;> rfl
  simp [Block.copyOutFull, e, imagePkt, h]

theorem witness_fullBuffer : ∃ pl, (drainingImage pl).m.copyOutFull = true := ⟨List.replicate (2 ^ 28) 0, copy_out_full _ List.length_replicate⟩

theorem witness_BearImages : (imaging image7 .protected_).m.snap.image = some image7 ∧ (imaging image7 .protected_).nextCopy = some 1
    ∧ (∃ e, (imaging image7 .copying).m.page 1 = some e ∧ e.bear = .copying) ∧ (imaging image7 .copying).preBarrierWaits 1 = false ∧ (imaging image7 .copying).m.copyOutFull = false ∧ fld (imaging image7 .copying).m.desc.snap 175 144 = 16
    ∧ (let s := imaging { image7 with sealed_ := true } .copied
       s.m.snap.image = some { image7 with sealed_ := true } ∧ s.m.imageAcked = true ∧ 0 + 2000000 ≤ (timed s 2000000).now ∧ (timed s 1999999).now < 0 + 2000000)
    ∧ (let s := waiting (inState 3) [waitOf (.restore 7 0 0 0 0 0 1 0)]
       (timed s 100000000).path.waits.find? (fun w => match w.wait with
        | .restore _ _ _ _ _ _ _ since => decide (since + 100000000 ≤ (timed s 100000000).span)
        | _ => false) = some (waitOf (.restore 7 0 0 0 0 0 1 0))) := by
  refine ⟨?_, ?_, ⟨_, rfl, ?_⟩, ?_, ?_, ?_, ?_, ?_⟩ <;> decide +kernel

theorem witness_RingsAndRegisters : (inState 2).m.power.main = .on ∧ (timed (inState 2) 1000).now / Nat.max (inState 2).m.dev.pollNs 1 ≠ (inState 2).m.dev.lastPoll / Nat.max (inState 2).m.dev.pollNs 1
    ∧ (timed (inState 2) 999).now / Nat.max (inState 2).m.dev.pollNs 1 = (inState 2).m.dev.lastPoll / Nat.max (inState 2).m.dev.pollNs 1
    ∧ (∃ c, ((taken1 (inState 2)).m.ring 1).cmds.find? (fun c => c.tag == 9 && c.needsRead) = some c) ∧ (inState 2).m.rings.length = 4
    ∧ (250#64).toNat % 2 ^ 32 = 250 ∧ (50000#64).toNat % 2 ^ 32 = 50000 ∧ (249#64).toNat % 2 ^ 32 < 250 ∧ 50000 < (50001#64).toNat % 2 ^ 32
    ∧ 0xDFF8 < 0xE000 ∧ 0xDFF8 % 8 = 0 ∧ (inState 2).m.dev.state ≠ 0 ∧ ((ringed (inState 2)).m.ring 0).state ≠ 0
    ∧ (powerd (fun p => { p with main := .off })).m.power.main ≠ .on ∧ (powerd (fun p => { p with main := .off })).m.power.main ≠ .island := by
  refine ⟨?_, ?_, ?_, ⟨_, rfl⟩, ?_, ?_, ?_, ?_, ?_, ?_, ?_, ?_, ?_, ?_, ?_⟩ <;> decide +kernel

theorem witness_ManagementRequests : (inState 2).m.served .i3c = true ∧ (inState 2).m.dev.state ≠ 0 ∧ (0x08 : Byte) ≠ 0 ∧ (0x08 : Byte) ≠ 0xFF ∧ (6 : Nat) ∉ (inState 2).m.pldmTypes
    ∧ (5 : Nat) ∈ (inState 0).m.pldmTypes ∧ (powerd (fun p => { p with standby := false })).m.served .i3c = false ∧ (inState 2).m.power.standby = true := by decide +kernel

/-- The module with a PLDM session in a state. -/
def pldm (n : Nat) (p : PldmState) : State := on (inState n) (fun b => { b with boot := { b.boot with session := .pldm, pldm := p, pldmSize := 1024 } })

theorem witness_PldmUpdate : (inState 3).m.served .i3c = true ∧ (inState 3).m.updateState = false ∧ (inState 2).m.updateState = true ∧ (inState 2).m.boot.session = .closed ∧ staging.m.boot.session = .ring
    ∧ (∀ p ∈ [PldmState.learn, .ready, .download, .verify, .apply, .activate], (pldm 0 p).m.served .i3c = true ∧ (pldm 0 p).m.updateState = true ∧ (pldm 0 p).m.boot.session = .pldm ∧ (pldm 0 p).m.boot.pldm = p
        ∧ (pldm 0 p).m.boot.staged.wf = true ∧ (pldm 0 p).m.dev.state = 0 ∧ p ≠ .idle)
    ∧ 33554432 ≤ 33554432 ∧ (zeros 1024).length = 1024 ∧ (pldm 0 .verify).m.stagedOk = false := by decide +kernel

/-- A staged image passes once the verifier accepts its signature, under the record of the module after reset. -/
theorem witness_PldmUpdate_image (h : Config.slhVerify (Config.imageKey 0) (slice imageBytes 0 64) (slice imageBytes 64 29792) = true) : State.reset.m.imageOk imageBytes = true := by
  have hl : imageLen imageBytes = 29856 := by decide +kernel
  have hh : imageHead imageBytes = BitVec.ofNat 512 (putBits (putBits (putBits (putBits 0 447 416 29856) 383 383 1) 63 32 1) 31 0 0x4A484C53) := by decide +kernel
  have hk : fld (BitVec.ofNat 512 (putBits (putBits (putBits (putBits 0 447 416 29856) 383 383 1) 63 32 1) 31 0 0x4A484C53)) 65 64 = 0 := by decide +kernel
  unfold Block.imageOk imageHolds
  rw [hl, hh]
  simp only [hk]
  show (_ && (_ && Config.slhVerify (Config.imageKey 0) (slice imageBytes 0 64) (slice imageBytes 64 29792))) = true
  rw [h, Bool.and_true]; unfold imageSvn; rw [hh]; decide +kernel

/-! Witnesses of clauses that the theorems above leave out -/

/-- Croft 0 and croft 1 each run one half of a contraction of 256. -/
def split : State :=
  on (job []) (fun b => { b with
    job := { b.job with almanac := some { alm [] with streams := [[op 1 (aws 1 1 2 8)], [op 1 ((5, 4 * 2 ^ 8) :: (7, 4 * 2 ^ 8) :: aws 1 1 2 8)]] } } }.onCroft 0
      (fun c => { c with fa := { c.fa with tile := some tile0 } }))

theorem witness_TilesDrainAndRepeat_split : (split.m.splitOf 0 0) = [(0, 0), (1, 0)] ∧ ((split.m.croft 0).unit .fa).tile = some tile0 ∧ (split.m.croft 0).stopped = false
    ∧ opFlag (split.m.op 0 0) 7 = false ∧ tileOk (split.m.op 0 0) tile0 {} = true := by decide +kernel

/-- A lane run of croft 0 at END whose output is a cache tensor, its row for slot 0 at position 16, of the second page. -/
def caching (l : LaneRun) : State :=
  on (lanes [(3, 8), (4, 0xFFFF), (6, 0xFFFF), (8, 7), (10, 0xFFFF)] (0x1F * 2 ^ 56) l) (fun b => { b with
    job := { b.job with almanac := b.job.almanac.map (fun a => { a with tensors := a.tensors ++ [setFld (setFld (setFld (setFld (0 : BitVec 256) 132 128 5) 127 96 256) 95 64 8) 51 0 65536] }) },
    desc := { b.desc with cache := setFld (setFld (setFld (setFld (0 : BitVec 512) 511 460 65536) 200 200 1) 213 206 2) 267 256 1, seqs := [(0, setFld (setFld (setFld seqReset 127 96 17) 95 80 1) 43 40 1)] } })

theorem witness_LaneSequencing_cache : ∀ st ∈ [[], [({ mode := 0, row := 0, col := 0, value := 0 } : Stored)]],
    let s := caching { laneRun with stored := st }
    let o := s.m.op 0 0
    let tout := (s.m.tensor (opOut o).tensor).getD {}
    s.m.nextSlot 0 = some ({ laneRun with stored := st }, BitVec.ofNat 64 (0x1F * 2 ^ 56)) ∧ opRows o ≤ 1 ∧ s.m.isCache tout = true ∧ s.m.isUpdate o = false
    ∧ (((s.on (fun b => (b.onBank 0 0 (fun k => k.release [])).setLane 0 none)).storeCache 0 { laneRun with stored := st } o tout).2 = if st.isEmpty then [] else [0]) := by decide +kernel

theorem witness_CopyInWrites_failed : (∀ f, ({ failed := some (131008, 2) } : Access).failed = some f → f.2 < 3) ∧ (131008 ≤ 131071 ∧ 131071 < 131008 + 64) := by
  refine ⟨?_, by decide⟩
  intro f h; simp only [Option.some.injEq] at h; subst h; decide

theorem witness_RestoreReadsImage_insecure : (2 : Nat) = 2 ∧ (on loaded (fun b => { b with dev := { b.dev with ideState := 2 } })).m.dev.ideState = 2 ∧ loaded.m.dev.ideState ≠ 2 := by decide +kernel

theorem witness_Fences_more : (∃ w ∈ (on (inState 2) (fun b => { b with tiers := { b.tiers with heldWrites := [{ address := 0, bytes := [1], since := 0 }] } })).m.tiers.heldWrites, w.owner = none)
    ∧ (let s := buffered (paired []) [e2e 1 0]
       (s.m.group 3 = some pairDesc ∧ ∀ e ∈ s.m.fab.e2e, s.inGroup pairDesc e.flow.dstModule = true) ∧ s.m.fab.backlog = [] ∧ s.m.path.waits = []) := by
  refine ⟨⟨_, List.mem_cons_self, rfl⟩, ⟨?_, ?_⟩, ?_, ?_⟩ <;> decide +kernel

theorem witness_SelfCheckRuns_file : let s := parcels (inState 2)
    (s.checkBad 0xFFFF 0xFF = none ∧ (0 : Nat) % 65536 ≠ 0xFFFF ∧ 0 / 2 ^ 24 % 2 = 0)
    ∧ (waitOf (.selfCheck 0 0xFF 64 0 0 { run := 0, failed := 0, entries := [] })).wait = .selfCheck 0 0xFF 64 0 0 { run := 0, failed := 0, entries := [] } := by decide +kernel

theorem witness_TableLoads_ports : ∀ i, i < 18 → noPort (leAt (zeros 72) (4 * i) 4 % 32) = false := by decide +kernel

theorem witness_FlitsAreTaken_more : let s := ported 0 { linkState := 2, substPending := [1] }
    s.m.power.main = .on ∧ s.m.ports.length = 18 ∧ (s.m.port 0).linkState ≠ 4 ∧ (s.m.port 0).linkState ≠ 5 ∧ (s.m.port 0).isUp = true ∧ 1 ∈ (s.m.port 0).substPending
    ∧ ((ported 0 { linkState := 1 }).m.port 0).isUp = false ∧ s.m.jobRuns = false ∧ s.m.peerOk 0 9 0 = true
    ∧ (on peered (fun b => { b with ports := b.ports.set 0 { linkState := 2 } })).m.peerOk 0 9 1 = false := by decide +kernel

theorem witness_LinksFailAndTrain_more : let s := ported 0 { linkState := 2, phy := { lanes := [0, 1, 4, 3], spareLane := 2, spareOk := true } }
    (s.m.port 0).phy.lanes.findIdx? (· == (s.m.port 0).phy.spareLane) = none ∧ (s.m.port 0).phy.lanes.findIdx? (· == 4) = some 2 ∧ (s.m.port 0).phy.spareOk = true
    ∧ (let s := on (ported 7 { linkState := 2, subst := true }) (fun b => { b with ports := b.ports.set 17 { linkState := 2, standsFor := 7 } })
       (s.m.port 7).subst = true ∧ (s.m.port 17).standsFor = 7) := by decide +kernel

/-- Pages on their way out of the cellar and elsewhere, a channel retraining, and a host read of PARCEL_MIGRATE three times failed. -/
def storing2 : State := on storing (fun b => { b with
  tiers := { b.tiers with
    pages := [{ page := 1, parcel := 0, tier := 1, frame := 0, migrating := some (3, 7) }, { page := 2, parcel := 0, tier := 2, frame := 0, migrating := some (1, 7) }]
    retraining := [(5, 0)]
    reads := [{ croft := 192, index := 1, since := 0, attempts := 3 }]
    tried := [(16, 5)] } })

theorem witness_StorageEvents_more : let s := storing2
    (∃ e, s.m.page 1 = some e ∧ e.migrating = some (3, 7) ∧ e.tier ≠ 2) ∧ (3 : Nat) ≠ 2 ∧ (∃ e, s.m.page 2 = some e ∧ e.migrating = some (1, 7) ∧ e.tier = 2) ∧ s.m.waitingChannels ≠ []
    ∧ storing.m.waitingChannels = [] ∧ (∃ r, (timed s 50000).tiers.reads.find? (fun r => r.croft == 192 && r.since + 50000 ≤ (timed s 50000).span) = some r ∧ 3 ≤ r.attempts)
    ∧ (timed s 10000000004).clk.own < (assocGet 16 (timed s 0).tiers.tried).getD 0 + 10000000000
    ∧ (assocGet 16 (timed s 0).tiers.tried).getD 0 + 10000000000 ≤ (timed s 10000000005).clk.own := by
  refine ⟨⟨_, rfl, ?_⟩, ?_, ⟨_, rfl, ?_⟩, ?_, ?_, ⟨_, rfl, ?_⟩, ?_, ?_⟩ <;> decide +kernel

/-- A COPY from a parcel in the cellar. -/
def cellarMove (retrains : List (Nat × Nat)) : State :=
  on (job [op 0x10 (mws 0 0 65536 0 true)]) (fun b => ({ b with tiers := { b.tiers with pages := [{ page := 1, parcel := 0, tier := 2, frame := 0 }], retraining := retrains } } : Block).onCroft 0
    (fun c => { c with moves := [{ index := 0, croft := 0, op := b.op 0 0 }] }))

theorem witness_StorageEvents_cellar : ∀ l ∈ [[], [(5, 0)]], let s := cellarMove l
    ((s.m.croft 0).moves.find? (fun m => m.index == 0)).map (fun m => (m.pages, s.waitsOnTier 0 m.op)) = some ([], !l.isEmpty) ∧ s.m.dev.ideState ≠ 2 := by decide +kernel

/-- A flush of page 0 of slot 0 from page 1 into the pool, which begins at page 2; there a write is held, or its page migrates, or neither. -/
def flushing (held : List HeldWrite) (away : Option (Nat × Nat)) : State := on (parcels (job [])) (fun b => { b with
  desc := { b.desc with cache := setFld (setFld (setFld (setFld (setFld (setFld (setFld (0 : BitVec 512) 511 460 0x20000) 459 408 0x10000) 355 304 0x18000) 255 236 16) 221 214 1) 213 206 1) 202 202 1 },
  cache := { b.cache with flushes := [(0, 0)] },
  tiers := { b.tiers with heldWrites := held, pages := [{ page := 1, parcel := 0, tier := 1, frame := 0 }, { page := 2, parcel := 0, tier := 1, frame := 1, migrating := away }] } })

/-- Is a write into the flushed page held? -/
def flushHeld (s : State) : Bool := s.m.tiers.heldWrites.any (fun w => meets (false, 0x20000, 2304) (false, w.address, w.bytes.length))

theorem witness_StorageEvents_flush : (∀ s ∈ [flushing [] none, flushing [] (some (2, 5))], flushHeld s = false ∧ s.m.cache.flushes.find? (fun f => f.1 == 0) = some (0, 0)
      ∧ (s.m.cacheD.pool, 2 * s.m.cacheD.layers * s.m.cacheD.pageSize 0 * s.m.cacheD.rowBytes) = (0x20000, 2304))
    ∧ flushHeld (flushing [{ address := 0x208FF, bytes := [1], since := 0 }] none) = true
    ∧ flushHeld ((flushing [] none).devWrite 0x20000 (zeros 2304)) = false ∧ flushHeld ((flushing [] (some (2, 5))).devWrite 0x20000 (zeros 2304)) = true := by decide +kernel

theorem witness_StorageEvents_pages : storing.m.dev.ideState ≠ 2 ∧ storing.m.insecureAccess [(false, 65536, 65536)] [] = none
    ∧ (let s := on storing (fun b => { b with dev := { b.dev with ideState := 2 },
                                              tiers := { b.tiers with pages := [{ page := 1, parcel := 0, tier := 3, frame := 0, head0 := 1, migrating := some (1, 7) }] } })
       s.m.insecureAccess [(false, 65536, 65536)] [] ≠ none) := by decide +kernel

theorem witness_CellarScrub_more : (0 : Nat) < 65536 ∧ (1 : Nat) ≠ 0 ∧ 2 ≤ ([(7, 0), (7, 1)].filter (fun (x : Nat × Nat) => x.1 == 7 && decide (0 < x.2 + 86400000000000))).length := by decide

theorem witness_FaultHandling_crossing : let s := on (resetting (.croft 0)) (fun b => { b with mill := { b.mill with scalarIssued := some 0 } })
    s.m.fab.crossing = [] ∧ s.m.mill.inner = [] ∧ s.m.faults.compare = [] ∧ s.m.mill.scalarIssued ≠ none ∧ (s.m.croft 0).suspect = false ∧ 0 < s.m.crofts.length := by decide +kernel

theorem witness_RingsAndRegisters_more : ((inState 2).m.ring 3).state = 0 ∧ ((inState 2).m.ring (inState 2).m.dev.eventRing).state = 0 ∧ (inState 2).m.dev.msixTable.length = 64
    ∧ (on (inState 2) (fun b => { b with dev := { b.dev with ideState := 2 } })).m.dev.ideState = 2 ∧ (inState 2).m.dev.ideState ≠ 2 := by decide +kernel

theorem witness_PldmUpdate_mailed : let s := on (inState 2) (fun b => { b with path := { b.path with mailbox := [.nop h0] } })
    s.m.served .i3c = true ∧ s.m.updateState = true ∧ s.m.path.applying = false ∧ s.m.path.mailbox ≠ [] ∧ (inState 2).m.path.mailbox = [] := by decide +kernel

theorem witness_ControlOperations_last : (job [op 0x18 []]).m.flushFirst 0 (((job [op 0x18 []]).m.croft 0).todo.drop 1) = false
    ∧ (let s := journaled (job []) .issued
       (∀ w ∈ s.m.tiers.heldWrites, w.owner ≠ some (0, 1)) ∧ (∃ e ∈ (s.m.croft 0).inFlight, e.index = 1))
    ∧ ((on (job []) (fun b => b.onCroft 191 (fun c => { c with forcing := true }))).m.croft 191).forcing = true
    ∧ (let s := job [op (0x18 + 2 ^ 31) []]
       s.m.controlHead 0 0x18 = .ready 0 ∧ badControl (s.m.op 0 0) = true) := by decide +kernel

/-- An operation of each queue that breaks a rule of the check at issue, by its flags. -/
theorem witness_OperationsIssue_rejected :
    (let s := job [op (8 + 2 ^ 31) lws]
     s.head 0 .lane [8] = .ready 0 ∧ badLane s.m 0 (s.m.op 0 0) = true)
    ∧ (let s := job [op (0x0C + 2 ^ 31) []]
       s.head 0 .stile [0x0C] = .ready 0 ∧ badStile s.m (s.m.op 0 0) = true)
    ∧ (let s := job [op (0x10 + 2 ^ 31) []]
       s.head 0 .move [0x10] = .ready 0 ∧ moveKind (s.m.op 0 0) = 0 ∧ badMove s.m (s.m.op 0 0) = true) := by decide +kernel
/-! Witnesses of the clauses on what a command finds -/

theorem witness_HostReads_copies : (parcels (inState 2)).m.copyHeld 65536 131072 false = false ∧ (parcels (inState 2)).m.copyHeld 65536 131072 true = false
    ∧ (∀ x k, ({ failed := some (65536, 2) } : Access).failed = some (x, k) → k < 3) := by
  refine ⟨by decide +kernel, by decide +kernel, ?_⟩
  intro x k h; simp only [Option.some.injEq, Prod.mk.injEq] at h; omega

theorem suspects_fit (s : State) (h : ∀ c, (s.m.croft c).suspect = false) : SuspectsFit s := fun c hc => by simp [h c] at hc

theorem no_suspects (c : Nat) : ((inState 3).m.croft c).suspect = false := by
  have h : ∀ x ∈ (inState 3).m.crofts, x.suspect = false := by decide +kernel
  unfold Block.croft
  cases e : (inState 3).m.crofts[c]? with
  | none => simp
  | some x => simpa using h x (List.mem_of_getElem? e)

theorem witness_SuspectsFit : SuspectsFit (inState 3) ∧ (inState 3).m.snap.image = none := ⟨suspects_fit _ no_suspects, rfl⟩

/-- A croft whose spare is free, suspected alone. -/
theorem witness_SuspectsFit_one : let s := on (inState 3) (fun b => b.onCroft 5 (fun c => { c with suspect := true }))
    (s.m.croft 5).suspect = true ∧ s.m.spareFree (dieOf 5) = true ∧ ∀ d, d < 192 → (s.m.croft d).suspect = true → d = 5 := by decide +kernel

/-- A lane switch on port 0: of this end, or of the peer's asking. -/
def switching (mine acked : Bool) : State :=
  ported 0 { linkState := 2, phy := { spareOk := true, spareLane := 4 }, substPending := [1], switch := some { lane := 1, since := 0, due := 16, mine := mine, acked := acked } }

theorem witness_FlitsAreTaken_switch : (∀ mine acked, (switching mine acked).m.ports.length = 18
      ∧ ((switching mine acked).m.port 0).switch = some { lane := 1, since := 0, due := 16, mine := mine, acked := acked }
      ∧ ((switching mine acked).m.port 0).phy.lanes.length = 4 ∧ (1 : Nat) < 4 ∧ 1 ∈ ((switching mine acked).m.port 0).substPending)
    ∧ ((switching true true).m.port 0).sent.length < 16 ∧ (switching true true).m.span < 0 + 2000 ∧ (switching false false).m.count (.flitsRx 0) < 16
    ∧ 0 + 2000 ≤ (on (switching true true) (·.advanceTo 2000)).m.span
    ∧ 16 ≤ (on (switching false false) (·.bump (.flitsRx 0) 16)).m.count (.flitsRx 0) := by
  refine ⟨?_, ?_, ?_, ?_, ?_, ?_⟩ <;> decide +kernel

theorem witness_LinksFailAndTrain_dead : ((ported 0 { linkState := 1, dead := true }).m.port 0).dead = true ∧ ((ported 0 { linkState := 1 }).m.port 0).dead = false
    ∧ (inState 2).m.power.main = .on ∧ (ported 0 { linkState := 1, dead := true }).m.ports.length = 18 ∧ ((ported 0 { linkState := 1, dead := true }).m.port 0).subst = false := by decide +kernel

theorem witness_FabricTime_pps : let s := clocked (inState 2) { role := 1, ppsAt := some 0 }
    s.m.clk.ppsAt = some 0 ∧ 0 + 1500000000 ≤ (s.m.advanceTo 1500000000).span ∧ s.m.clk.refRate = 0 ∧ (job []).m.dev.bellPassed = false := by decide +kernel

/-- The job of one FA_MATMUL on tensor 0, whose PATCH companion holds the square of its first block; the layer under RESCALE_REPLAY or not. -/
def patchedJob (guard : BitVec 64) : State :=
  on ((job [op 1 (aws 0 0 2 8)]).writeParcel 65536 [1]) (fun b => { b with
    desc := { b.desc with guard := [guard] }
    job := { b.job with almanac := b.job.almanac.map (fun a => { a with companions := [setFld (setFld (setFld (0 : BitVec 128) 127 76 65536) 65 64 2) 31 16 4] }) } })

/-- That operation has issued. -/
def patchedNoted (guard : BitVec 64) : State := on (on (patchedJob guard) (fun b => (b.endStall 0 .fa).journalIssue 0 0)) (fun b => b.notePrior 0 0)

theorem witness_OperationsIssue_patched : (patchedJob 0).head 0 .fa [1] = .ready 0 ∧ badArray (patchedJob 0).m (patchedJob 0).mem 0 ((patchedJob 0).m.op 0 0) = false
    ∧ (patchedNoted 0).patched ((patchedJob 0).m.op 0 0) true = some 4 ∧ (patchedNoted 0).m.pinned (opLayer ((patchedJob 0).m.op 0 0)) = false
    ∧ ((patchedNoted 0).m.inSpan ((patchedJob 0).m.op 0 0) && !(patchedNoted 0).m.spanSpent 0 0) = false := by
  refine ⟨?_, ?_, ?_, ?_, ?_⟩ <;> decide +kernel

theorem witness_OperationsIssue_patched_span : (patchedJob 0x10).head 0 .fa [1] = .ready 0 ∧ badArray (patchedJob 0x10).m (patchedJob 0x10).mem 0 ((patchedJob 0x10).m.op 0 0) = false
    ∧ (patchedNoted 0x10).patched ((patchedJob 0x10).m.op 0 0) true = some 4 ∧ (patchedNoted 0x10).m.pinned (opLayer ((patchedJob 0x10).m.op 0 0)) = false
    ∧ ((patchedNoted 0x10).m.inSpan ((patchedJob 0x10).m.op 0 0) && !(patchedNoted 0x10).m.spanSpent 0 0) = true := by
  refine ⟨?_, ?_, ?_, ?_, ?_⟩ <;> decide +kernel

/-- Each operation that no unit runs, of a SCHED other than the step's. -/
theorem witness_ControlOperations_skip : ∀ k ∈ [0x18, 0x19, 0x1A, 0x1F], let s := job [op (k + 2 * 2 ^ 25) []]
    s.m.controlHead 0 k = .skip 0 := by decide +kernel

theorem witness_LaneTensorLoads_weight : let s := lanes ((3, 1) :: lws.tail) (0x13 * 2 ^ 56 + 1) laneRun
    ∀ n, n < 256 → laneRun.active s.m (s.m.op 0 0) n = true → (s.masterWeight 0 (s.m.op 0 0) ((opOut (s.m.op 0 0)).row + laneRun.row) ((opOut (s.m.op 0 0)).col + 256 * laneRun.group + n)).2.1 = false := by
  decide +kernel

theorem witness_StorageEvents_reads : (let s := flushing [] none
       let r := s.flushRanges 0 0
       s.m.channelHeld [r.1, r.2] = false ∧ s.m.insecureAccess [r.1] [r.2] = none)
    ∧ (let s := on (flushing [] none) (fun b => { b with tiers := { b.tiers with pages := [{ page := 1, parcel := 0, tier := 2, frame := 0 }, { page := 2, parcel := 0, tier := 2, frame := 1 }], retraining := (List.range 80).map (fun n => (n, 0)) } })
       let r := s.flushRanges 0 0
       s.m.channelHeld [r.1, r.2] = true) := by decide +kernel

theorem witness_FaultHandling_more : (inState 2).m.faults.untraced = [] ∧ (resetting (.croft 0)).m.faults.logFifo = [] ∧ (resetting (.croft 0)).m.faults.untraced = []
    ∧ (resetting (.croft 0)).m.faults.arrived = [] ∧ (resetting (.croft 0)).m.faults.queue = [] ∧ (∃ r, (timed (resetting (.croft 0)) 0).faults.reset = some r ∧ r.domain ≠ .module) := by
  refine ⟨?_, ?_, ?_, ?_, ?_, _, rfl, ?_⟩ <;> decide +kernel

theorem witness_ModuleResets_log : State.reset.m.life.before = none
    ∧ (let b := (on State.reset (fun b => { b with life := { b.life with before := some b.life.saved } })).m.advanceTo 200000000
       b.life.before ≠ none ∧ b.life.savedSpan + 200000000 ≤ b.span) ∧ (inState 2).m.snap.image = none := by decide +kernel

theorem witness_SelfTests_spare : (inState 2).m.spareFree 0 = true ∧ (inState 2).m.jobRuns = false ∧ (job []).m.jobRuns = true
    ∧ (∀ s ∈ [inState 2, job []], let t := on s (fun b => { b with dies := b.dies.set 0 { (b.die 0) with remap := setFld (b.die 0).remap 51 50 1 } })
       t.m.spareFree 0 = false ∧ t.m.power.main = .on ∧ (t.m.croft 0).deferring = false ∧ (timed t 0).slotTime 0 = true) := by decide +kernel

theorem witness_BearImages_trailed : let s := imaging { image7 with sealed_ := true, trailed := true } .copied
    s.m.snap.image = some { image7 with sealed_ := true, trailed := true } ∧ s.m.imageAcked = true ∧ image7.trailed = false ∧ s.m.dev.ideState ≠ 2 := by decide +kernel

theorem witness_RestoreReadsImage_pages : ∃ p, (parcels loaded).m.parcelAt 65536 = some p ∧ (parcels loaded).m.excludedIds.contains p.id = false := ⟨_, rfl, by decide +kernel⟩

theorem witness_ManagementRequests_frame : (inState 2).m.served (.sgmii 0x88B5 (inState 2).m.macAddress) = true ∧ (inState 2).m.served (.sgmii 0x0800 0) = false := by decide +kernel

theorem witness_PldmUpdate_applied : ∀ p ∈ [PldmState.learn, .ready, .download, .verify, .apply, .activate], ∀ committing, let s := on (pldm 2 p) (fun b => { b with
      path := { b.path with applying := true }, boot := { b.boot with committing := committing } })
    s.m.served .i3c = true ∧ s.m.updateState = true ∧ s.m.path.applying = true ∧ s.m.boot.session = .pldm ∧ s.m.boot.pldm = p ∧ s.m.boot.staged.wf = true ∧ s.m.boot.committing = committing := by decide +kernel

theorem witness_FirmwareStaging_commit : let s := on (waiting staging [waitOf (.fwCommit 2 1)]) (fun b => { b with boot := { b.boot with committing := true } })
    s.m.path.waits = [waitOf (.fwCommit 2 1)] ∧ s.m.boot.committing = true ∧ s.m.dev.state = 2 ∧ (waiting staging [waitOf (.fwCommit 2 1)]).m.boot.committing = false := by decide +kernel

end Sys2Proof.Tests
end

/-! Every command answers (O6): no branch of an arm of exec is a fault or a refusal. -/
namespace Sys2Proof.Machine

/-- The outcome is a next state. -/
def Answers (o : Host.Outcome State Fault Refusal) : Prop := ∃ t, o = .next t

theorem answers_next (t : State) : Answers (.next t) := ⟨t, rfl⟩

theorem answers_ite {c : Prop} [Decidable c] {a b : Host.Outcome State Fault Refusal} (ha : Answers a) (hb : Answers b) : Answers (if c then a else b) := by
  split
  · exact ha
  · exact hb

/-- A condition turns the command away, or it goes on. -/
theorem answers_guard {c : Prop} [Decidable c] {t : State} {o : Host.Outcome State Fault Refusal} (h : Answers o) : Answers (if c then .next t else o) :=
  answers_ite (answers_next t) h

theorem answers_either {c : Prop} [Decidable c] (t u : State) : Answers (if c then .next t else .next u) := answers_guard (answers_next u)

/-! The arms with more than one look-up or more than one condition -/

theorem execScrub_answers (t tier frame : Nat) (found : ScrubResult) (pass : Bool) (s : State) : Answers (execScrub t tier frame found pass s) := by
  unfold execScrub
  extract_lets
  split
  · exact answers_next _
  · exact answers_next _
  · refine answers_guard (answers_guard ?_)
    split <;> exact answers_next _

theorem execMillDeadline_answers (t group slice mb part level : Nat) (adderOk : Bool) (s : State) :
    Answers (execMillDeadline t group slice mb part level adderOk s) := by
  unfold execMillDeadline
  extract_lets
  split
  · exact answers_next _
  · split
    · refine answers_guard ?_
      split
      · exact answers_either _ _
      · exact answers_next _
    · exact answers_next _

theorem execEndProgram_answers (croft : Nat) (s : State) : Answers (execEndProgram croft s) := by
  unfold execEndProgram
  split
  · exact answers_next _
  · refine answers_guard (answers_ite ?_ (answers_guard (answers_either _ _)))
    split <;> exact answers_next _

theorem execMoveTilesWritten_answers (t croft opIndex : Nat) (s : State) : Answers (execMoveTilesWritten t croft opIndex s) := by
  unfold execMoveTilesWritten
  extract_lets
  split
  · refine answers_guard ?_
    split <;> exact answers_next _
  · exact answers_next _

theorem execPageMigrationSwitch_answers (t page tries : Nat) (s : State) : Answers (execPageMigrationSwitch t page tries s) := by
  unfold execPageMigrationSwitch
  extract_lets
  split
  · split
    · exact answers_next _
    · exact answers_either _ _
  · exact answers_next _

theorem execResetTimeout_answers (t : Nat) (s : State) : Answers (execResetTimeout t s) := by
  unfold execResetTimeout
  extract_lets
  split
  · exact answers_next _
  · split
    · exact answers_next _
    · exact answers_either _ _

theorem execVectorTimeout_answers (t vectorId croft : Nat) (s : State) : Answers (execVectorTimeout t vectorId croft s) := by
  unfold execVectorTimeout
  extract_lets
  split
  · exact answers_next _
  · split <;> exact answers_next _

theorem execLaneLossOfLock_answers (t port : Nat) (lanes : List Nat) (s : State) : Answers (execLaneLossOfLock t port lanes s) := by
  refine answers_guard (answers_guard ?_)
  split <;> exact answers_next _

/-! All arms, by the branches they have -/

theorem exec_answers (i : Instr) (s : State) : Answers (exec i s) := by
  cases i
  -- Conditions alone.
  case ringPoll | forcedCommit | bellTa | abortStopLimit | linkIdleTimeout | laneCorrectionLimit | timeLost | bellLineTest | lockstepMismatch | logExport | standbyPowerUp
      | powerFailWarning | inputReturn | prsntNBreak | perstNAssert | perstNRelease | thermalSensorRead | ideIntegrityFailure =>
    exact answers_either _ _
  case telemetrySample => exact answers_guard (answers_either _ _)
  case startupSelfTest => exact answers_guard (answers_guard (answers_either _ _))
  case stepBoundary => exact answers_guard (answers_ite (answers_either _ _) (answers_guard (answers_either _ _)))
  case selfTestSlot => exact answers_guard (answers_guard (answers_guard (answers_guard (answers_either _ _))))
  -- One look-up, at the time the command carries or on a croft.
  case repeatWider | spanReplay | tallySlotTrailer | fenceGroupTimeout | replay | restoreTwinTimeout | powerDownStart | orderingReadComplete =>
    dsimp -zeta only [exec, execRepeatWider, execSpanReplay, execTallySlotTrailer, execFenceGroupTimeout, execReplay, execRestoreTwinTimeout, execPowerDownStart,
      execOrderingReadComplete]
    extract_lets
    split <;> exact answers_next _
  case almanacNop =>
    dsimp -zeta only [exec, execAlmanacNop]
    split <;> exact answers_next _
  -- A look-up that finds nothing; else a condition.
  case tileDrain | storeMaster | draw | phaseEnd =>
    dsimp -zeta only [exec, execTileDrain, execStoreMaster, execDraw, execPhaseEnd]
    split
    · exact answers_next _
    · exact answers_either _ _
  case payloadReadDone | squirrelMoveStart | croftWatchdog | localStallLimit | remoteWatch | remoteBound | imageTrailer | imageRegionWriteDone =>
    dsimp -zeta only [exec, execPayloadReadDone, execSquirrelMoveStart, execCroftWatchdog, execLocalStallLimit, execRemoteWatch, execRemoteBound, execImageTrailer,
      execImageRegionWriteDone]
    extract_lets
    split
    · exact answers_next _
    · exact answers_either _ _
  case cacheFlushDone | completionTimeout | e2eRetransmit | resetComplete =>
    dsimp -zeta only [exec, execCacheFlushDone, execCompletionTimeout, execE2eRetransmit, execResetComplete]
    extract_lets
    split
    · exact answers_next _
    · exact answers_guard (answers_either _ _)
  -- The head of a queue: ready, and conditions; or not.
  case fenceCroft | waitTime =>
    dsimp -zeta only [exec, execFenceCroft, execWaitTime]
    split
    · exact answers_either _ _
    · exact answers_next _
    · exact answers_next _
  case commit =>
    dsimp -zeta only [exec, execCommit]
    split
    · exact answers_guard (answers_either _ _)
    · exact answers_next _
    · exact answers_next _
  case laneRun =>
    dsimp -zeta only [exec, execLaneRun]
    split
    · exact answers_guard (answers_guard (answers_either _ _))
    · exact answers_next _
  case waitTimeExpiry =>
    dsimp -zeta only [exec, execWaitTimeExpiry]
    extract_lets
    split
    · exact answers_either _ _
    · exact answers_next _
  case pageCopied =>
    dsimp -zeta only [exec, execPageCopied]
    extract_lets
    split
    · exact answers_guard (answers_either _ _)
    · exact answers_next _
  -- A condition, and then a look-up.
  case sliceExport | bearBackgroundCopy =>
    dsimp -zeta only [exec, execSliceExport, execBearBackgroundCopy]
    refine answers_guard ?_
    split <;> exact answers_next _
  case monitorReturn | monitorTrip =>
    dsimp -zeta only [exec, execMonitorReturn, execMonitorTrip]
    extract_lets
    split
    · exact answers_next _
    · refine answers_guard ?_
      split <;> exact answers_next _
  -- The arms above.
  case scrub => exact execScrub_answers ..
  case millDeadline => exact execMillDeadline_answers ..
  case endProgram => exact execEndProgram_answers ..
  case moveTilesWritten => exact execMoveTilesWritten_answers ..
  case pageMigrationSwitch => exact execPageMigrationSwitch_answers ..
  case resetTimeout => exact execResetTimeout_answers ..
  case vectorTimeout => exact execVectorTimeout_answers ..
  case laneLossOfLock => exact execLaneLossOfLock_answers ..
  -- Every other arm has one outcome, whatever the state.
  all_goals exact answers_next _

/-- Settles O6: no arm of exec has a branch that faults or refuses. -/
theorem everyCommandRuns : Obligations.EveryCommandRuns := exec_answers

end Sys2Proof.Machine

/-! Polls, payload reads and register writes (O58). -/
namespace Sys2Proof.Machine

/-! Bit fields -/

/-- A field of a number cut to n bits is the number's own, where it lies below bit n. -/
theorem bitsOf_mod_two_pow {hi n : Nat} (h : hi < n) (v lo : Nat) : bitsOf (v % 2 ^ n) hi lo = bitsOf v hi lo := by
  unfold bitsOf
  apply Nat.eq_of_testBit_eq
  intro i
  simp only [Nat.testBit_mod_two_pow, Nat.testBit_shiftRight]
  by_cases hi' : i < hi + 1 - lo
  · have : lo + i < n := by omega
    simp [this]
  · simp [hi']

/-- What a field of a number reads after it was written (R10). -/
theorem bitsOf_putBits {hi lo : Nat} (h : lo ≤ hi) (v x : Nat) : bitsOf (putBits v hi lo x) hi lo = x % 2 ^ (hi + 1 - lo) := by
  obtain ⟨w, rfl⟩ : ∃ w, hi = lo + w := ⟨hi - lo, by omega⟩
  have hw : lo + w + 1 - lo = w + 1 := by omega
  have hp : putBits v (lo + w) lo x = 2 ^ lo * (2 ^ (w + 1) * (v >>> (lo + w + 1)) + x % 2 ^ (w + 1)) + v % 2 ^ lo := by
    unfold putBits
    rw [hw, Nat.shiftLeft_eq, Nat.shiftLeft_eq, Nat.mul_add, ← Nat.mul_assoc, ← Nat.pow_add, ← Nat.add_assoc, Nat.mul_comm (v >>> _), Nat.mul_comm (x % _)]
  rw [bitsOf, hp, hw, Nat.shiftRight_eq_div_pow, Nat.mul_add_div (Nat.two_pow_pos lo), Nat.div_eq_of_lt (Nat.mod_lt _ (Nat.two_pow_pos lo)), Nat.add_zero,
    Nat.mul_add_mod, Nat.mod_mod]

/-- What a field of a register reads after it was written. -/
theorem fld_setFld {n hi lo : Nat} (h : lo ≤ hi) (hn : hi < n) (v : BitVec n) (x : Nat) : fld (setFld v hi lo x) hi lo = x % 2 ^ (hi + 1 - lo) := by
  rw [fld, setFld, BitVec.toNat_ofNat, bitsOf_mod_two_pow hn, bitsOf_putBits h]

/-- A field of one bit. -/
theorem bitsOf_bit {n : Nat} (v : BitVec n) (i : Nat) : (bitsOf v.toNat i i == 1) = v.getLsbD i := by
  rw [BitVec.getLsbD, Nat.testBit_eq_decide_div_mod_eq, bitsOf, Nat.shiftRight_eq_div_pow, Nat.add_sub_cancel_left, Nat.pow_one]
  rfl

/-! Rings -/

theorem modAt_eq_modify {α : Type} (i : Nat) (f : α → α) (l : List α) : modAt i f l = l.modify i f := by
  induction l generalizing i with
  | nil => cases i <;> rfl
  | cons a as ih =>
    cases i with
    | zero => rfl
    | succ j => exact congrArg (a :: ·) (ih j)

theorem Block.ring_onRing (b : Block) (n k : Nat) (f : Ring → Ring) :
    (b.onRing n f).ring k = if n = k ∧ k < b.rings.length then f (b.ring k) else b.ring k := by
  unfold Block.ring
  rw [Block.onRing_rings, modAt_eq_modify, List.getElem?_modify]
  by_cases hk : k < b.rings.length
  · by_cases hn : n = k <;> simp [hk, hn]
  · simp [hk]

theorem Block.ring_onRing_self (b : Block) {n : Nat} (f : Ring → Ring) (h : n < b.rings.length) : (b.onRing n f).ring n = f (b.ring n) := by
  rw [Block.ring_onRing, if_pos ⟨rfl, h⟩]

theorem Block.ring_onRing_ne (b : Block) {n k : Nat} (f : Ring → Ring) (h : k ≠ n) : (b.onRing n f).ring k = b.ring k := by
  rw [Block.ring_onRing, if_neg (fun e => h e.1.symm)]

@[simp] theorem Ring.settle_en (r : Ring) : r.settle.en = r.en := by unfold Ring.settle; split <;> rfl
@[simp] theorem Ring.settle_irqEn (r : Ring) : r.settle.irqEn = r.irqEn := by unfold Ring.settle; split <;> rfl
@[simp] theorem Ring.settle_base (r : Ring) : r.settle.base = r.base := by unfold Ring.settle; split <;> rfl

theorem Ring.writeCfg_en (r : Ring) (v : W64) : (r.writeCfg v.toNat).en = v.getLsbD 0 := (Ring.settle_en _).trans (bitsOf_bit v 0)
theorem Ring.writeCfg_irqEn (r : Ring) (v : W64) : (r.writeCfg v.toNat).irqEn = v.getLsbD 1 := (Ring.settle_irqEn _).trans (bitsOf_bit v 1)
theorem Ring.writeCfg_base (r : Ring) (v : Nat) : (r.writeCfg v).base = r.base := Ring.settle_base _

/-! Commands that start (R448) -/

@[simp] theorem Block.mail_ring (b : Block) (cs : List Instr) (k : Nat) : (b.mail cs).ring k = b.ring k := rfl

/-- Commands are at most marked as started: each command of a ring has the tag of one that stood there before, and waits for its payload only if that one did. -/
def SameReads (b c : Block) : Prop := ∀ k, ∀ x ∈ (c.ring k).cmds, ∃ y ∈ (b.ring k).cmds, x.tag = y.tag ∧ x.needsRead = y.needsRead

theorem SameReads.refl (b : Block) : SameReads b b := fun _ x hx => ⟨x, hx, rfl, rfl⟩

theorem SameReads.trans {a b c : Block} (h : SameReads a b) (k : SameReads b c) : SameReads a c := by
  intro n x hx
  obtain ⟨y, hy, hxt, hxr⟩ := k n x hx
  obtain ⟨z, hz, hyt, hyr⟩ := h n y hy
  exact ⟨z, hz, hxt.trans hyt, hxr.trans hyr⟩

theorem Block.pumpRing_sameReads (b : Block) (n : Nat) : SameReads b (b.pumpRing n) := by
  intro k x hx
  rw [Block.pumpRing, Block.mail_ring, Block.ring_onRing] at hx
  split at hx
  · obtain ⟨y, hy, rfl⟩ := List.mem_map.mp hx
    refine ⟨y, hy, ?_⟩
    split <;> exact ⟨rfl, rfl⟩
  · exact ⟨x, hx, rfl, rfl⟩

theorem Block.pump_sameReads (b : Block) : SameReads b b.pump :=
  List.foldlRecOn (List.range 4) _ (SameReads.refl b) (fun c hc n _ => hc.trans (c.pumpRing_sameReads n))

/-! Writes to BAR0 (R13, R454 to R456, R568) -/

theorem Block.powered_iff (b : Block) : b.powered = true ↔ b.power.main = .on ∨ b.power.main = .island := by
  simp [Block.powered]

/-- The guard with which the model turns away what needs power. -/
theorem Block.guard_eq_not_powered (b : Block) : (b.power.main != .on && b.power.main != .island) = !b.powered := (Bool.not_or _ _).symm

theorem Block.bar0Write_unpowered {b : Block} (h : b.powered = false) (off bytes v : Nat) : b.bar0Write off bytes v = b := by
  simp [Block.bar0Write, Block.guard_eq_not_powered, h]

/-- Below the MSI-X table, a write of another size than 8 bytes or out of alignment is refused. -/
theorem Block.bar0Write_misaligned {b : Block} (hp : b.powered = true) {off bytes : Nat} (ho : off < 0xE000) (h : bytes ≠ 8 ∨ off % 8 ≠ 0) (v : Nat) :
    b.bar0Write off bytes v = b.refuseMmio := by
  have hmsix : ¬ 0xE000 ≤ off := by omega
  simp [Block.bar0Write, Block.guard_eq_not_powered, hp, hmsix, h]

/-- An aligned write of 8 bytes below the MSI-X table goes to the register of its offset. -/
theorem Block.bar0Write_register {b : Block} (hp : b.powered = true) {off : Nat} (ho : off < 0xE000) (ha : off % 8 = 0) (v : Nat) :
    b.bar0Write off 8 v =
      if b.dev.state == 0 && !inRecovery off then b
      else if off == 0x40 then { b with dev := { b.dev with mmioRefused := b.dev.mmioRefused && bitsOf v 7 7 == 0 } }
      else if off == 0x70 then b.writePoll v
      else if off == 0x78 then b.writeEvent v
      else if 0x80 ≤ off && off < 0x100 then b.writeRing ((off - 0x80) / 0x20) ((off - 0x80) % 0x20) v
      else b := by
  have hmsix : ¬ 0xE000 ≤ off := by omega
  simp [Block.bar0Write, Block.guard_eq_not_powered, hp, hmsix, ha]

theorem Block.bar0Write_readOnly {b : Block} (hp : b.powered = true) {off : Nat} (ho : off < 0xE000) (ha : off % 8 = 0) (h40 : off ≠ 0x40) (h70 : off ≠ 0x70)
    (h78 : off ≠ 0x78) (hr : off < 0x80 ∨ 0x100 ≤ off) (v : Nat) : b.bar0Write off 8 v = b := by
  have hring : ¬ (0x80 ≤ off ∧ off < 0x100) := by omega
  simp [Block.bar0Write_register hp ho ha, h40, h70, h78, hring]

theorem Block.bar0Write_refusedBit {b : Block} (hp : b.powered = true) : b.bar0Write 0x40 8 0x80 = { b with dev := { b.dev with mmioRefused := false } } := by
  simp [Block.bar0Write_register hp, inRecovery, bitsOf]

theorem Block.bar0Write_poll {b : Block} (hp : b.powered = true) (v : Nat) : b.bar0Write 0x70 8 v = b.writePoll v := by
  simp [Block.bar0Write_register hp, inRecovery]

theorem Block.bar0Write_event {b : Block} (hp : b.powered = true) (hd : b.dev.state ≠ 0) (v : Nat) : b.bar0Write 0x78 8 v = b.writeEvent v := by
  simp [Block.bar0Write_register hp, hd]

/-- The four words of ring n stand at 0x80 + 0x20 n (R420); the recovery loader presents those of ring 0 (R568). -/
theorem Block.bar0Write_ring {b : Block} (hp : b.powered = true) {off n k : Nat} (ho : off = 0x80 + 0x20 * n + 8 * k) (hn : n < 4) (hk : k < 4)
    (hd : b.dev.state ≠ 0 ∨ n = 0) (v : Nat) : b.bar0Write off 8 v = b.writeRing n (8 * k) v := by
  have hlo : 0x80 ≤ off := by omega
  have hhi : off < 0x100 := by omega
  have hshown : (b.dev.state == 0 && !inRecovery off) = false := by
    rcases hd with hd | rfl
    · simp [hd]
    · have : off < 0xA0 := by omega
      simp [inRecovery, hlo, this]
  have hring : (off - 0x80) / 0x20 = n := by omega
  have hword : (off - 0x80) % 0x20 = 8 * k := by omega
  rw [Block.bar0Write_register hp (by omega) (by omega), hshown, hring, hword]
  simp [hlo, hhi, show off ≠ 0x40 by omega, show off ≠ 0x70 by omega, show off ≠ 0x78 by omega]

theorem Block.bar0Write_msix {b : Block} (hp : b.powered = true) {i : Nat} (hi : i < 64) (v : Nat) : b.bar0Write (0xE000 + 16 * i) 8 v = b.writeMsix (16 * i) 8 v := by
  have hend : 0xE000 + 16 * i < 0xE400 := by omega
  have halign : (0xE000 + 16 * i) % 8 = 0 := by omega
  simp [Block.bar0Write, Block.guard_eq_not_powered, hp, hend, halign]

theorem Block.writeRing_running {b : Block} {n : Nat} (h : (b.ring n).state ≠ 0) {sub : Nat} (hs : sub ≠ 0x18) (v : Nat) : b.writeRing n sub v = b.refuseMmio := by
  simp [Block.writeRing, hs, h]

theorem Block.writeRing_base {b : Block} {n : Nat} (h : (b.ring n).state = 0) (v : Nat) :
    b.writeRing n 0x00 v = b.onRing n (fun r => { r with base := v / 2 ^ 18 * 2 ^ 18 }) := by simp [Block.writeRing, h]

theorem Block.writeRing_cmplBase {b : Block} {n : Nat} (h : (b.ring n).state = 0) (v : Nat) :
    b.writeRing n 0x08 v = b.onRing n (fun r => { r with cmplBase := v / 2 ^ 17 * 2 ^ 17 }) := by simp [Block.writeRing, h]

theorem Block.writeRing_ctrlBase {b : Block} {n : Nat} (h : (b.ring n).state = 0) (v : Nat) :
    b.writeRing n 0x10 v = b.onRing n (fun r => { r with ctrlBase := v / 2 ^ 6 * 2 ^ 6 }) := by simp [Block.writeRing, h]

/-- A field that starts at bit 0. -/
theorem bitsOf_low (v hi : Nat) : bitsOf v hi 0 = v % 2 ^ (hi + 1) := rfl

theorem Block.writePoll_eq (b : Block) (v : Nat) :
    b.writePoll v = if v % 2 ^ 32 < 250 ∨ 50000 < v % 2 ^ 32 then b.refuseMmio else { b with dev := { b.dev with pollNs := v % 2 ^ 32, lastPoll := b.now } } := by
  simp only [Block.writePoll, Bool.or_eq_true, decide_eq_true_eq]
  rfl

theorem Block.writeEvent_stopped {b : Block} (h : (b.ring b.dev.eventRing).state = 0) (v : Nat) :
    b.writeEvent v = { b with dev := { b.dev with eventVector := bitsOf v 15 10, eventIrq := bitsOf v 9 9 == 1, eventEn := bitsOf v 8 8 == 1, eventRing := bitsOf v 1 0 } } := by
  simp [Block.writeEvent, h]

theorem Block.writeMsix_table (b : Block) (off bytes v : Nat) :
    (b.writeMsix off bytes v).dev.msixTable = b.dev.msixTable.modify (off / 16) (fun e => setFld e (off % 16 * 8 + 8 * bytes - 1) (off % 16 * 8) v) := by
  rw [← modAt_eq_modify]
  dsimp only [Block.writeMsix]
  split <;> rfl

/-- The low word of an MSI-X table entry written whole reads back. -/
theorem Block.writeMsix_low {b : Block} {i : Nat} (hi : i < b.dev.msixTable.length) (v : W64) :
    ((b.writeMsix (16 * i) 8 v.toNat).dev.msixTable[i]?).map (fun e => fld e 63 0) = some v.toNat := by
  have hplace : 16 * i / 16 = i := by omega
  have hlow : 16 * i % 16 * 8 = 0 := by omega
  rw [Block.writeMsix_table, hplace, hlow, List.getElem?_modify_eq, List.getElem?_eq_getElem hi]
  exact congrArg some ((fld_setFld (by omega) (by omega) _ _).trans (Nat.mod_eq_of_lt v.isLt))

/-! The rows -/

/-- A change that leaves the block as it is leaves the state as it is. -/
theorem State.on_eq_self {u : State} {f : Block → Block} (h : f u.m = u.m) : u.on f = u := by rw [State.on, h]

/-- Changes of the block that agree on it give the same state. -/
theorem State.on_congr {u : State} {f g : Block → Block} (h : f u.m = g u.m) : u.on f = u.on g := by rw [State.on, h, State.on]

theorem exec_registerWrite (t off bytes : Nat) (v : W64) (s : State) :
    exec (.registerWrite t off bytes v) s = .next ((s.on (·.advanceTo t)).on (·.bar0Write off bytes v.toNat)) := rfl

theorem exec_registerWrite_of_eq {t off bytes : Nat} {v : W64} {s : State} {f : Block → Block}
    (h : (s.m.advanceTo t).bar0Write off bytes v.toNat = f (s.m.advanceTo t)) : exec (.registerWrite t off bytes v) s = .next ((s.on (·.advanceTo t)).on f) := by
  rw [exec_registerWrite, State.on_congr h]

theorem exec_registerWrite_of_self {t off bytes : Nat} {v : W64} {s : State} (h : (s.m.advanceTo t).bar0Write off bytes v.toNat = s.m.advanceTo t) :
    exec (.registerWrite t off bytes v) s = .next (s.on (·.advanceTo t)) := by
  rw [exec_registerWrite, State.on_eq_self h]

/-- The state w has the memories of s and the rings and device registers of the block b, but for ring n, which is r. -/
def OnlyRing (s : State) (b : Block) (n : Nat) (r : Ring) (w : State) : Prop := w.mem = s.mem ∧ w.m.dev = b.dev ∧ (∀ k, k ≠ n → w.m.ring k = b.ring k) ∧ w.m.ring n = r

theorem runs_registerWrite_onRing {t off n : Nat} {v : W64} {s : State} {f : Ring → Ring} (h : (s.m.advanceTo t).bar0Write off 8 v.toNat = (s.m.advanceTo t).onRing n f)
    (hn : n < (s.m.advanceTo t).rings.length) :
    Runs (.registerWrite t off 8 v) s (OnlyRing s (s.m.advanceTo t) n (f ((s.m.advanceTo t).ring n))) :=
  ⟨_, exec_registerWrite_of_eq (f := (·.onRing n f)) h, rfl, rfl, fun _ hk => Block.ring_onRing_ne _ f hk, Block.ring_onRing_self _ f hn⟩

/-- RING_CFG of ring 0 written: EN and the interrupt enable are taken, the base stays. -/
theorem runs_ringEnWrite {t : Nat} {v : W64} {s : State} (hp : (s.m.advanceTo t).powered = true) (hl : 0 < (s.m.advanceTo t).rings.length) :
    Runs (.ringEnWrite t 0 v) s (fun w => w.mem = s.mem ∧ (w.m.ring 0).en = v.getLsbD 0 ∧ (w.m.ring 0).irqEn = v.getLsbD 1
      ∧ (w.m.ring 0).base = ((s.m.advanceTo t).ring 0).base ∧ w.m.dev = (s.m.advanceTo t).dev) := by
  have hcfg : (s.m.advanceTo t).bar0Write 0x98 8 v.toNat = (s.m.advanceTo t).onRing 0 (·.writeCfg v.toNat) :=
    Block.bar0Write_ring hp (n := 0) (k := 3) rfl (by omega) (by omega) (.inr rfl) _
  obtain ⟨w, hw, hmem, hdev, -, hring⟩ := runs_registerWrite_onRing hcfg hl
  exact ⟨w, hw, hmem, hring ▸ Ring.writeCfg_en _ v, hring ▸ Ring.writeCfg_irqEn _ v, hring ▸ Ring.writeCfg_base _ _, hdev⟩

/-- POLL_CTRL written (R423, R455). -/
theorem runs_pollCtrlWrite {t : Nat} {v : W64} {s : State} (hp : (s.m.advanceTo t).powered = true) :
    Runs (.pollCtrlWrite t v) s (fun w => w.mem = s.mem
      ∧ (250 ≤ v.toNat % 2 ^ 32 → v.toNat % 2 ^ 32 ≤ 50000 → w.m.dev.pollNs = v.toNat % 2 ^ 32)
      ∧ ((v.toNat % 2 ^ 32 < 250 ∨ 50000 < v.toNat % 2 ^ 32) → w.m = (s.m.advanceTo t).refuseMmio)) := by
  have hrun : exec (.pollCtrlWrite t v) s = .next ((s.on (·.advanceTo t)).on (·.writePoll v.toNat)) := exec_registerWrite_of_eq (Block.bar0Write_poll hp _)
  refine ⟨_, hrun, rfl, fun hlo hhi => ?_, fun hout => ?_⟩
  · rw [State.on_m, Block.writePoll_eq, if_neg (by omega)]
  · rw [State.on_m, Block.writePoll_eq, if_pos hout]
    rfl

/-- EVENT_CTRL written while the ring that receives events is stopped (R456). -/
theorem runs_eventCtrlWrite {t : Nat} {v : W64} {s : State} (hp : (s.m.advanceTo t).powered = true) (hd : (s.m.advanceTo t).dev.state ≠ 0)
    (hst : ((s.m.advanceTo t).ring (s.m.advanceTo t).dev.eventRing).state = 0) :
    Runs (.registerWrite t 0x78 8 v) s (fun w => w.mem = s.mem ∧ w.m.dev.eventRing = v.toNat % 4 ∧ w.m.dev.eventEn = v.getLsbD 8 ∧ w.m.dev.eventIrq = v.getLsbD 9
      ∧ w.m.dev.eventVector = v.toNat / 2 ^ 10 % 64) := by
  refine ⟨_, exec_registerWrite_of_eq (f := (·.writeEvent v.toNat)) (Block.bar0Write_event hp hd _), rfl, ?_⟩
  rw [State.on_m, State.on_m, Block.writeEvent_stopped hst]
  exact ⟨rfl, bitsOf_bit v 8, bitsOf_bit v 9, congrArg (· % 64) (Nat.shiftRight_eq_div_pow _ 10)⟩

theorem exec_ringPoll_due {t : Nat} {s : State} (hp : (s.m.advanceTo t).powered = true)
    (hd : (s.m.advanceTo t).now / Nat.max (s.m.advanceTo t).dev.pollNs 1 ≠ (s.m.advanceTo t).dev.lastPoll / Nat.max (s.m.advanceTo t).dev.pollNs 1) (failed : List Nat) :
    exec (.ringPoll t failed) s = .next ((s.on (·.advanceTo t)).poll ((s.m.advanceTo t).unreadable failed)) :=
  if_neg (by rw [State.on_m, Block.guard_eq_not_powered, hp]; simpa using hd)

theorem exec_ringPoll_early {t : Nat} {s : State}
    (hd : (s.m.advanceTo t).now / Nat.max (s.m.advanceTo t).dev.pollNs 1 = (s.m.advanceTo t).dev.lastPoll / Nat.max (s.m.advanceTo t).dev.pollNs 1) (failed : List Nat) :
    exec (.ringPoll t failed) s = .next (s.on (·.advanceTo t)) :=
  if_pos (by rw [State.on_m, hd]; simp)

theorem Block.unreadable_eq (b : Block) (failed : List Nat) : b.unreadable failed = if b.dev.ideState = 2 then [0, 1, 2, 3] else failed := by
  simp [Block.unreadable, List.range, List.range.loop]

/-- A ring whose commands of a tag have their payload (R426). -/
def Ring.takePayload (tag : BitVec 16) (bytes : List Byte) (r : Ring) : Ring :=
  { r with cmds := r.cmds.map (fun (x : Taken) => if x.tag == tag then { x with needsRead := false, payload := bytes } else x) }

/-- The row of a command that waits for its payload (R306, R426, R453). -/
theorem exec_payloadReadDone_of_find {t ring : Nat} {tag : BitVec 16} {s : State} {c : Taken}
    (hc : ((s.m.advanceTo t).ring ring).cmds.find? (fun c => c.tag == tag && c.needsRead) = some c) (tries : Nat) :
    exec (.payloadReadDone t ring tag tries) s =
      if tries < 3 && (s.m.advanceTo t).dev.ideState != 2 then
        .next ((s.on (·.advanceTo t)).on (fun b =>
          ((b.bump .retries tries).onRing ring (·.takePayload tag (s.mem.host.readBytes (Packet.ptrAddr c.slots) (Packet.payloadLen c.slots)))).pump))
      else .next ((((s.on (·.advanceTo t)).on (·.bump .retries 2)).complete ring { tag := tag, opcode := c.opcode, status := 8, noIrq := c.noIrq, tDone := 0 }).on (·.pump)) := by
  dsimp only [exec, execPayloadReadDone, State.on_m]
  rw [hc]
  rfl

/-- The commands of a tag whose payload has come wait for none. -/
theorem Block.needsRead_of_takePayload {b : Block} {ring : Nat} {tag : BitVec 16} {bytes : List Byte} {x : Taken}
    (hx : x ∈ ((b.onRing ring (·.takePayload tag bytes)).pump.ring ring).cmds) (ht : x.tag = tag) : x.needsRead = false := by
  obtain ⟨y, hy, htag, hread⟩ := Block.pump_sameReads _ ring x hx
  rw [Block.ring_onRing] at hy
  by_cases hring : ring < b.rings.length
  · rw [if_pos ⟨rfl, hring⟩] at hy
    obtain ⟨z, -, rfl⟩ := List.mem_map.mp hy
    by_cases hz : z.tag = tag
    · simpa [hz] using hread
    · exact absurd (by simpa [hz, ht] using htag.symm) hz
  · rw [if_neg (fun h => hring h.2), Block.ring, List.getElem?_eq_none (by omega)] at hy
    exact absurd hy List.not_mem_nil

theorem exec_payloadReadDone_failed {t ring : Nat} {tag : BitVec 16} {s : State} {c : Taken}
    (hc : ((s.m.advanceTo t).ring ring).cmds.find? (fun c => c.tag == tag && c.needsRead) = some c) {tries : Nat} (h : 3 ≤ tries ∨ (s.m.advanceTo t).dev.ideState = 2) :
    exec (.payloadReadDone t ring tag tries) s =
      .next ((((s.on (·.advanceTo t)).on (·.bump .retries 2)).complete ring { tag := tag, opcode := c.opcode, status := 8, noIrq := c.noIrq, tDone := 0 }).on (·.pump)) := by
  rw [exec_payloadReadDone_of_find hc, if_neg]
  rcases h with h | h
  · simp [Nat.not_lt.mpr h]
  · rw [h]
    simp

theorem runs_payloadReadDone {t ring : Nat} {tag : BitVec 16} {s : State} {c : Taken}
    (hc : ((s.m.advanceTo t).ring ring).cmds.find? (fun c => c.tag == tag && c.needsRead) = some c) {tries : Nat} (h : tries < 3) (hide : (s.m.advanceTo t).dev.ideState ≠ 2) :
    Runs (.payloadReadDone t ring tag tries) s (fun v => v.mem = s.mem ∧ ∀ x ∈ (v.m.ring ring).cmds, x.tag = tag → x.needsRead = false) :=
  ⟨_, (exec_payloadReadDone_of_find hc tries).trans (if_pos (by rw [Bool.and_eq_true]; exact ⟨decide_eq_true h, bne_iff_ne.mpr hide⟩)), rfl,
    fun _ hx ht => Block.needsRead_of_takePayload hx ht⟩

/-- The bases of a stopped ring, each cut to its alignment (R420). -/
theorem runs_ringBaseWrites {t n : Nat} {v : W64} {s : State} (hp : (s.m.advanceTo t).powered = true) (hn : n < 4) (hl : (s.m.advanceTo t).rings.length = 4)
    (hd : (s.m.advanceTo t).dev.state ≠ 0) (hst : ((s.m.advanceTo t).ring n).state = 0) :
    Runs (.registerWrite t (0x80 + 0x20 * n) 8 v) s (OnlyRing s (s.m.advanceTo t) n { (s.m.advanceTo t).ring n with base := v.toNat / 2 ^ 18 * 2 ^ 18 })
    ∧ Runs (.registerWrite t (0x88 + 0x20 * n) 8 v) s (OnlyRing s (s.m.advanceTo t) n { (s.m.advanceTo t).ring n with cmplBase := v.toNat / 2 ^ 17 * 2 ^ 17 })
    ∧ Runs (.registerWrite t (0x90 + 0x20 * n) 8 v) s (OnlyRing s (s.m.advanceTo t) n { (s.m.advanceTo t).ring n with ctrlBase := v.toNat / 2 ^ 6 * 2 ^ 6 }) := by
  have hword {off k : Nat} (ho : off = 0x80 + 0x20 * n + 8 * k) (hk : k < 4) : (s.m.advanceTo t).bar0Write off 8 v.toNat = (s.m.advanceTo t).writeRing n (8 * k) v.toNat :=
    Block.bar0Write_ring hp ho hn hk (.inl hd) _
  have hlen : n < (s.m.advanceTo t).rings.length := hl ▸ hn
  refine ⟨?_, ?_, ?_⟩
  · exact runs_registerWrite_onRing ((hword (k := 0) rfl (by omega)).trans (Block.writeRing_base hst _)) hlen
  · exact runs_registerWrite_onRing ((hword (k := 1) (by omega) (by omega)).trans (Block.writeRing_cmplBase hst _)) hlen
  · exact runs_registerWrite_onRing ((hword (k := 2) (by omega) (by omega)).trans (Block.writeRing_ctrlBase hst _)) hlen

/-- Settles O58, by what the row of each clause does once the clock has moved on. -/
theorem ringsAndRegisters : Obligations.RingsAndRegisters := by
  unfold Obligations.RingsAndRegisters
  intro s t u
  refine ⟨?poll, fun failed hd => exec_ringPoll_early hd failed, fun ring tag c hc => ⟨fun _ h => exec_payloadReadDone_failed hc h, fun _ h hide => runs_payloadReadDone hc h hide⟩,
    fun hp => ?powered, ?unpowered⟩
  case poll =>
    intro failed hp hd
    rw [← Block.unreadable_eq]
    exact exec_ringPoll_due (u.m.powered_iff.mpr hp) hd failed
  case powered =>
    have hpow : u.m.powered = true := u.m.powered_iff.mpr hp
    refine ⟨fun _ hl => runs_ringEnWrite hpow (hl ▸ Nat.zero_lt_succ 3), fun _ => runs_pollCtrlWrite hpow, ⟨_, rfl, rfl, Block.bar0Write_refusedBit hpow⟩, ?misaligned, ?readOnly,
      ?running, fun _ _ hn hl hd hst => runs_ringBaseWrites hpow hn hl hd hst, fun _ hd hst => runs_eventCtrlWrite hpow hd hst, ?msix⟩
    case misaligned => exact fun _ _ _ ho h => exec_registerWrite_of_eq (Block.bar0Write_misaligned hpow ho h _)
    case readOnly => exact fun _ _ ho ha h40 h70 h78 hr => exec_registerWrite_of_self (Block.bar0Write_readOnly hpow ho ha h40 h70 h78 hr _)
    case running =>
      intro n sub v hn hs hd hst
      exact exec_registerWrite_of_eq ((Block.bar0Write_ring hpow rfl hn (by omega) (.inl hd) _).trans (Block.writeRing_running hst (by omega) _))
    case msix =>
      intro i v hi hl
      exact ⟨_, exec_registerWrite_of_eq (f := (·.writeMsix (16 * i) 8 v.toNat)) (Block.bar0Write_msix hpow hi _), rfl, Block.writeMsix_low (hl ▸ hi) v⟩
  case unpowered =>
    intro off n v hon his
    have hpow : u.m.powered = false := Bool.eq_false_iff.mpr (fun h => (u.m.powered_iff.mp h).elim hon his)
    exact exec_registerWrite_of_self (Block.bar0Write_unpowered hpow _ _ _)

end Sys2Proof.Machine

/-! KF32 arithmetic (O41). -/
namespace Sys2Proof.Machine

/-! The one NaN (R56) -/

/-- A code is a NaN where its magnitude is neither finite nor infinity (R53, R54). -/
theorem decodeFloat_eq_nan_iff (f : FloatFmt) (code : Nat) :
    decodeFloat f code = .nan ↔ f.maxCode < code % 2 ^ (f.width - 1) ∧ f.infCode ≠ some (code % 2 ^ (f.width - 1)) := by
  unfold decodeFloat
  by_cases hfin : code % 2 ^ (f.width - 1) ≤ f.maxCode
  · simp [hfin, Nat.not_lt.mpr hfin]
  · by_cases hinf : f.infCode = some (code % 2 ^ (f.width - 1))
    · simp [hfin, hinf]
    · simp [hfin, hinf, Nat.lt_of_not_le hfin]

/-- A code up to that of infinity, with a sign, is no NaN. -/
theorem f32_signCode_ne_nan {c : Nat} (h : c ≤ 0x7F800000) (neg : Bool) : f32 (BitVec.ofNat 32 (signCode kf32 neg c)) ≠ .nan := by
  have hmag : (BitVec.ofNat 32 (signCode kf32 neg c)).toNat % 2 ^ 31 = c := by
    cases neg <;> simp [signCode, kf32] <;> omega
  rw [f32, Ne, decodeFloat_eq_nan_iff, show kf32.width - 1 = 31 from rfl, hmag]
  rintro ⟨hfin, hinf⟩
  have hgap : c ≠ 0x7F800000 := fun e => hinf (congrArg some e.symm)
  have : 0x7F7FFFFF < c := hfin
  omega

theorem toF32_inf (neg : Bool) : toF32 (.inf neg) = BitVec.ofNat 32 (signCode kf32 neg 0x7F800000) := by cases neg <;> rfl

/-- Rounding makes no NaN. -/
theorem isNan_toF32 (x : Ext) : isNan (toF32 x) = true ↔ x = .nan := by
  rw [isNan, beq_iff_eq]
  cases x with
  | nan => exact iff_of_true rfl rfl
  | inf neg => exact iff_of_false (toF32_inf neg ▸ f32_signCode_ne_nan (Nat.le_refl _) neg) (by simp)
  | fin neg m e =>
    refine iff_of_false (f32_signCode_ne_nan ?_ neg) (by simp)
    split
    · exact Nat.le_refl _
    · have : magCode kf32 .rne m e ≤ 0x7F7FFFFF := Nat.le_of_not_lt ‹_›
      omega

/-- A result that is NaN is the one code of R56. -/
theorem toF32_of_isNan {x : Ext} (h : isNan (toF32 x) = true) : toF32 x = 0x7FC00000#32 := by
  rw [(isNan_toF32 x).mp h]
  rfl

/-! Exact operations -/

theorem addExt_comm (x y : Ext) : addExt x y = addExt y x := by
  cases x with
  | nan => cases y <;> rfl
  | inf a =>
    cases y with
    | nan => rfl
    | inf b => cases a <;> cases b <;> rfl
    | fin b n f => rfl
  | fin a m e =>
    cases y with
    | nan => rfl
    | inf b => rfl
    | fin b n f => simp only [addExt, Int.min_comm f e, Int.add_comm (signInt b _), Bool.and_comm b a]

theorem mulExt_comm (x y : Ext) : mulExt x y = mulExt y x := by
  cases x with
  | nan => cases y <;> rfl
  | inf a =>
    cases y with
    | nan => rfl
    | inf b => simp only [mulExt, Bool.xor_comm]
    | fin b n f => simp only [mulExt, bne_comm]
  | fin a m e =>
    cases y with
    | nan => rfl
    | inf b => simp only [mulExt, bne_comm]
    | fin b n f => simp only [mulExt, bne_comm, Nat.mul_comm n m, Int.add_comm f e]

@[simp] theorem addExt_nan_left (y : Ext) : addExt .nan y = .nan := rfl
@[simp] theorem mulExt_nan_left (y : Ext) : mulExt .nan y = .nan := rfl
@[simp] theorem divExt_nan_left (y : Ext) : divExt .nan y = .nan := rfl

theorem f32_of_isNan {a : F32} (h : isNan a = true) : f32 a = .nan := eq_of_beq h

/-! The sign bit -/

theorem f32Neg_f32Neg (a : F32) : f32Neg (f32Neg a) = a := by
  rw [f32Neg, f32Neg, BitVec.xor_assoc, BitVec.xor_self, BitVec.xor_zero]

/-- The absolute value clears the one bit that negation inverts. -/
theorem f32Abs_f32Neg (a : F32) : f32Abs (f32Neg a) = f32Abs a := by
  have hbits : (0x80000000#32) &&& 0x7FFFFFFF#32 = 0#32 := by decide
  ext i hi
  have hi' := congrArg (fun v : F32 => v[i]) hbits
  simp only [BitVec.getElem_and, BitVec.getElem_zero] at hi'
  simp only [f32Abs, f32Neg, BitVec.getElem_and, BitVec.getElem_xor]
  rw [Bool.and_xor_distrib_right, hi', Bool.xor_false]

/-- Settles O41: the exact sum and product do not depend on the order, rounding makes no NaN but the one code, and the sign bit is a bit of its own. -/
theorem kf32Arithmetic : Obligations.KF32Arithmetic := by
  unfold Obligations.KF32Arithmetic
  intro a b c
  refine ⟨congrArg toF32 (addExt_comm _ _), congrArg toF32 (mulExt_comm _ _), ?fma, toF32_of_isNan, toF32_of_isNan, toF32_of_isNan, toF32_of_isNan, fun ha => ?operand,
    f32Neg_f32Neg a, f32Abs_f32Neg a⟩
  case fma => rw [f32Fma, f32Fma, mulExt_comm]
  case operand => simp only [f32Add, f32Mul, f32Div, isNan_toF32, f32_of_isNan ha, addExt_nan_left, mulExt_nan_left, divExt_nan_left, and_self]

end Sys2Proof.Machine

/-! Lane runs: crofts, registers, reductions and draws (O36). -/
namespace Sys2Proof.Machine

/-! Crofts -/

theorem Block.croft_onCroft_self {b : Block} {c : Nat} (h : c < b.crofts.length) (f : Croft → Croft) : (b.onCroft c f).croft c = f (b.croft c) := by
  rw [Block.croft, Block.croft, Block.onCroft_crofts, modAt_eq_modify, List.getElem?_modify_eq, List.getElem?_eq_getElem h]
  rfl

/-- A croft that runs a lane program is one of the module's: any other is an empty one. -/
theorem Block.lt_of_lane {b : Block} {c : Nat} {l : LaneRun} (h : (b.croft c).lane = some l) : c < b.crofts.length := by
  refine Nat.lt_of_not_le fun hc => ?_
  rw [Block.croft, List.getElem?_eq_none hc] at h
  cases h

theorem Block.lane_setLane {b : Block} {c : Nat} (h : c < b.crofts.length) (l : Option LaneRun) : ((b.setLane c l).croft c).lane = l := by
  rw [Block.setLane, Block.croft_onCroft_self h]

theorem Block.lane_of_nextSlot {b : Block} {c : Nat} {l : LaneRun} {ins : W64} (h : b.nextSlot c = some (l, ins)) : (b.croft c).lane = some l := by
  unfold Block.nextSlot at h
  split at h
  case h_1 l' hl =>
    split at h
    · cases h
    · obtain ⟨i, -, hi⟩ := Option.map_eq_some_iff.mp h
      cases hi
      exact hl
  case h_2 => cases h

theorem Block.runOp_of_nextSlot {b : Block} {c : Nat} {l : LaneRun} {ins : W64} (h : b.nextSlot c = some (l, ins)) : b.runOp c = b.op c l.index := by
  rw [Block.runOp, Block.lane_of_nextSlot h]

/-! The registers that an instruction leaves -/

/-- The registers of every lane, its DST as f gives it. -/
def LaneRun.withDst (l : LaneRun) (ins : W64) (f : Nat → F32) : List (List F32) := ((List.range 256).zip l.regs).map (fun x => x.2.set (fld ins 55 50) (f x.1))

theorem LaneRun.withDst_getElem? {l : LaneRun} {n : Nat} {rs : List F32} (hn : n < 256) (h : l.regs[n]? = some rs) (ins : W64) (f : Nat → F32) :
    (l.withDst ins f)[n]? = some (rs.set (fld ins 55 50) (f n)) := by
  have hzip : ((List.range 256).zip l.regs)[n]? = some (n, rs) := List.getElem?_zip_eq_some.mpr ⟨List.getElem?_range hn, h⟩
  rw [LaneRun.withDst, List.getElem?_map, hzip]
  rfl

section
variable {s : State} {c : Nat} {l : LaneRun} {ins : W64}

theorem State.laneOp_eq (h : s.m.nextSlot c = some (l, ins)) {lop : Nat} (hop : lopOf ins = lop) (f : LaneRun → W64 → Nat → F32) :
    s.laneOp c lop f = s.on (fun b => b.setLane c (some { l with regs := l.withDst ins (f l ins), pc := l.pc + 1 })) := by
  simp [State.laneOp, h, hop, LaneRun.withDst]

theorem laneWrites_of_withDst {i : Instr} {f : Nat → F32}
    (hrun : exec i s = .next (s.on (fun b => b.setLane c (some { l with regs := l.withDst ins f, pc := l.pc + 1 })))) : LaneWrites i s c l ins f :=
  ⟨_, hrun, fun _ _ hn hrs => LaneRun.withDst_getElem? hn hrs ins f⟩

/-- An instruction that counts as well: DST as f gives it and the next slot; the memories and the values that the run has stored stay. -/
theorem runs_of_withDst (h : s.m.nextSlot c = some (l, ins)) {i : Instr} {f : Nat → F32} {k : Counts}
    (hrun : exec i s = .next (s.on (fun b => b.setLane c (some { l with regs := l.withDst ins f, counts := k, pc := l.pc + 1 })))) :
    Runs i s (fun t => t.mem = s.mem ∧ t.pending = s.pending ∧ ∃ l', (t.m.croft c).lane = some l' ∧ l'.pc = l.pc + 1 ∧ l'.stored = l.stored
      ∧ ∀ n rs, n < 256 → l.regs[n]? = some rs → l'.regs[n]? = some (rs.set (fld ins 55 50) (f n))) :=
  have hc := Block.lt_of_lane (Block.lane_of_nextSlot h)
  ⟨_, hrun, rfl, rfl, _, Block.lane_setLane hc _, rfl, rfl, fun _ _ hn hrs => LaneRun.withDst_getElem? hn hrs ins f⟩

/-! Reductions (R169) -/

theorem laneWrites_laneReduce (h : s.m.nextSlot c = some (l, ins)) {i : Instr} {lop : Nat} (hop : lopOf ins = lop) {f : F32 → F32 → F32} {absent : F32}
    (hrun : exec i s = .next (s.laneReduce c lop f absent)) :
    LaneWrites i s c l ins (fun n => if l.active s.m (s.m.op c l.index) n then
      pairwise f absent ((List.range 256).map (fun k => if l.active s.m (s.m.op c l.index) k then l.reg k (fld ins 49 44) else absent)) else l.reg n (fld ins 55 50)) := by
  apply laneWrites_of_withDst
  rw [hrun]
  simp [State.laneReduce, h, hop, State.laneOp_eq h hop, srcA]

/-! Draws (R77, R78) -/

/-- The stream a DRAW reads. -/
def drawStream (op : BitVec 512) (ins : W64) : Nat := (opStream op + lopImm ins) % 2 ^ 32

/-- The draw of a lane: by the logical index of its element of input slot 0, or a free value where none is named (log 8). -/
def Block.laneDraw (b : Block) (op : BitVec 512) (l : LaneRun) (ins : W64) (n : Nat) : Nat :=
  if (b.tensor (opA op).tensor).isSome then draw b.job.key (drawStream op ins) b.job.step (b.logicalIndex op l n)
  else (Config.freeWord (b.tiers.openCtr + n)).toNat % 65536

theorem Block.laneDraw_of_named {b : Block} {op : BitVec 512} (h : (b.tensor (opA op).tensor).isSome = true) (l : LaneRun) (ins : W64) (n : Nat) :
    b.laneDraw op l ins n = draw b.job.key (drawStream op ins) b.job.step (b.logicalIndex op l n) := if_pos h

/-- The value of a DRAW on a lane. -/
def Block.drawn (b : Block) (op : BitVec 512) (l : LaneRun) (ins : W64) (n : Nat) : F32 :=
  if l.active b op n then toF32 (.fin false (b.laneDraw op l ins n) (-16)) else 0

/-- A run after a DRAW: the draws in DST, the next slot, the draws of the active lanes counted under their stream. -/
def LaneRun.drew (l : LaneRun) (b : Block) (op : BitVec 512) (ins : W64) : LaneRun :=
  { l with regs := l.withDst ins (b.drawn op l ins), pc := l.pc + 1,
           counts := addCount l.counts (drawStream op ins, 0, TallyCtr.draws) ((List.range 256).filter (fun n => l.active b op n)).length }

/-- 256 of the values that the spec leaves free taken (log 8). -/
def Block.takeFree (b : Block) : Block := { b with tiers := { b.tiers with openCtr := b.tiers.openCtr + 256 } }

/-- A change of the run just set. -/
theorem State.on_setLane_map (s : State) (c : Nat) (l : LaneRun) (f : LaneRun → LaneRun) :
    (s.on (fun b => b.setLane c (some l))).on (fun b => b.onCroft c (fun x => { x with lane := x.lane.map f })) = s.on (fun b => b.setLane c (some (f l))) := by
  simp only [State.on, Block.setLane, Block.onCroft, modAt_eq_modify, List.modify_modify_eq]
  rfl

theorem exec_draw (h : s.m.nextSlot c = some (l, ins)) (hop : lopOf ins = 0x15) :
    exec (.draw c) s = .next (if (s.m.tensor (opA (s.m.op c l.index)).tensor).isSome then s.on (fun b => b.setLane c (some (l.drew s.m (s.m.op c l.index) ins)))
      else (s.on (fun b => b.setLane c (some (l.drew s.m (s.m.op c l.index) ins)))).on Block.takeFree) := by
  simp only [exec, execDraw, h, hop, bne_self_eq_false, Bool.false_eq_true, if_false, State.laneOp_eq h hop, State.on_setLane_map]
  rfl

theorem runs_draw_named (h : s.m.nextSlot c = some (l, ins)) (hop : lopOf ins = 0x15) (hnamed : (s.m.tensor (opA (s.m.op c l.index)).tensor).isSome = true) :
    Runs (.draw c) s (fun t => t.mem = s.mem ∧ t.pending = s.pending ∧ ∃ l', (t.m.croft c).lane = some l' ∧ l'.pc = l.pc + 1 ∧ l'.stored = l.stored
      ∧ ∀ n rs, n < 256 → l.regs[n]? = some rs → l'.regs[n]? = some (rs.set (fld ins 55 50) (s.m.drawn (s.m.op c l.index) l ins n))) :=
  runs_of_withDst h ((exec_draw h hop).trans (congrArg _ (if_pos hnamed)))

theorem runs_draw_free (h : s.m.nextSlot c = some (l, ins)) (hop : lopOf ins = 0x15) (hfree : (s.m.tensor (opA (s.m.op c l.index)).tensor).isSome = false) :
    Runs (.draw c) s (fun t => t.mem = s.mem ∧ t.m.tiers.openCtr = s.m.tiers.openCtr + 256 ∧ ∃ l', (t.m.croft c).lane = some l' ∧ l'.pc = l.pc + 1) :=
  have hc := Block.lt_of_lane (Block.lane_of_nextSlot h)
  ⟨_, (exec_draw h hop).trans (congrArg _ (if_neg (Bool.eq_false_iff.mp hfree))), rfl, rfl, _, Block.lane_setLane hc _, rfl⟩

end

/-- Settles O36, by the row of each of the three instructions. -/
theorem laneReductionsAndDraw : Obligations.LaneReductionsAndDraw := by
  unfold Obligations.LaneReductionsAndDraw
  intro s c l ins h
  refine ⟨fun hop => laneWrites_laneReduce h hop rfl, fun hop => laneWrites_laneReduce h hop rfl, fun hop hnamed => ?named, fun hop => runs_draw_free h hop⟩
  case named => simpa only [Block.drawn, Block.laneDraw_of_named hnamed, drawStream] using runs_draw_named h hop hnamed

end Sys2Proof.Machine

/-! Loads of a lane run (O38). -/
namespace Sys2Proof.Machine

/-- What a LOAD gives a lane: the value f reads where the lane takes part, else +0 and no count (R166). -/
def loadedAt (who : Nat → Bool) (f : Nat → F32 × Counts × Bool) (n : Nat) : F32 × Counts × Bool := if who n then f n else (0, [], false)

theorem loadedAt_value (who : Nat → Bool) (f : Nat → F32 × Counts × Bool) (n : Nat) : (loadedAt who f n).1 = if who n then (f n).1 else 0 := apply_ite Prod.fst ..

theorem loadedAt_bad {who : Nat → Bool} {f : Nat → F32 × Counts × Bool} {n : Nat} : (loadedAt who f n).2.2 = true ↔ who n = true ∧ (f n).2.2 = true := by
  unfold loadedAt
  split <;> simp [*]

/-- The counts of a run, those of a load merged in. -/
def LaneRun.loadCounts (l : LaneRun) (got : Nat → F32 × Counts × Bool) : Counts := (List.range 256).foldl (fun k n => mergeCounts k (got n).2.1) l.counts

/-- A load that counts nothing leaves the counts. -/
theorem LaneRun.loadCounts_of_empty {l : LaneRun} {got : Nat → F32 × Counts × Bool} (h : ∀ n, n < 256 → (got n).2.1 = []) : l.loadCounts got = l.counts :=
  List.foldlRecOn (motive := (· = l.counts)) (List.range 256) _ rfl (fun k hk n hn => by rw [h n (List.mem_range.mp hn), hk]; rfl)

section
variable {s : State} {c : Nat} {l : LaneRun} {ins : W64} {p : W64 → Bool} {f : LaneRun → W64 → Nat → F32 × Counts × Bool} {tag : Nat} {reads : List Range}
  {who : LaneRun → W64 → Nat → Bool}

/-- A load: the mismatch where a lane that takes part met one, else its values in DST, its counts, and the next slot. -/
theorem State.laneLoad_eq (h : s.m.nextSlot c = some (l, ins)) (hop : lopOf ins = 0x13) (hp : p ins = true) :
    s.laneLoad c p f tag reads who =
      if (List.range 256).any (fun n => (loadedAt (who l ins) (f l ins) n).2.2) then (s.on (fun b => b.setLane c none)).mismatch c l.index tag false reads
      else s.on (fun b => b.setLane c (some { l with
        regs := l.withDst ins (fun n => (loadedAt (who l ins) (f l ins) n).1), counts := l.loadCounts (loadedAt (who l ins) (f l ins)), pc := l.pc + 1 })) := by
  simp only [State.laneLoad, h, hop, hp, bne_self_eq_false, Bool.not_true, Bool.or_self, Bool.false_eq_true, if_false, List.any_map, List.foldl_map, List.zip_map_left,
    List.map_map]
  rfl

theorem State.laneLoad_of_bad (h : s.m.nextSlot c = some (l, ins)) (hop : lopOf ins = 0x13) (hp : p ins = true)
    (hbad : ∃ n, n < 256 ∧ who l ins n = true ∧ (f l ins n).2.2 = true) :
    s.laneLoad c p f tag reads who = (s.on (fun b => b.setLane c none)).mismatch c l.index tag false reads := by
  obtain ⟨n, hn, hwho, hf⟩ := hbad
  rw [State.laneLoad_eq h hop hp, if_pos (List.any_eq_true.mpr ⟨n, List.mem_range.mpr hn, loadedAt_bad.mpr ⟨hwho, hf⟩⟩)]

theorem State.laneLoad_of_ok (h : s.m.nextSlot c = some (l, ins)) (hop : lopOf ins = 0x13) (hp : p ins = true)
    (hok : ∀ n, n < 256 → who l ins n = true → (f l ins n).2.2 = false) :
    s.laneLoad c p f tag reads who = s.on (fun b => b.setLane c (some { l with
      regs := l.withDst ins (fun n => if who l ins n then (f l ins n).1 else 0), counts := l.loadCounts (loadedAt (who l ins) (f l ins)), pc := l.pc + 1 })) := by
  have hany : ¬ (List.range 256).any (fun n => (loadedAt (who l ins) (f l ins) n).2.2) = true := by
    intro hbad
    obtain ⟨n, hn, hb⟩ := List.any_eq_true.mp hbad
    obtain ⟨hwho, hf⟩ := loadedAt_bad.mp hb
    exact Bool.eq_false_iff.mp (hok n (List.mem_range.mp hn) hwho) hf
  simp only [State.laneLoad_eq h hop hp, if_neg hany, loadedAt_value]

/-! An input slot (R170) -/

theorem exec_load (h : s.m.nextSlot c = some (l, ins)) :
    exec (.load c) s = .next (s.laneLoad c (fun i => lopImm i == 0) (fun k i n => s.slotElem c (s.m.op c l.index) k (lopMode i) n)
      (s.m.slotTensor (s.m.op c l.index) (lopMode ins)).tag (s.m.slotReads (s.m.op c l.index) (lopMode ins))
      (fun k i n => k.loads s.m (s.m.op c l.index) (lopMode i) n)) := by
  simp only [exec, execLoad, h, Block.runOp_of_nextSlot h]

theorem runs_load (h : s.m.nextSlot c = some (l, ins)) (hop : lopOf ins = 0x13) (himm : lopImm ins = 0)
    (hok : ∀ n, n < 256 → (s.slotElem c (s.m.op c l.index) l (lopMode ins) n).2.2 = false) :
    Runs (.load c) s (fun t => t.mem = s.mem ∧ t.pending = s.pending ∧ ∃ l', (t.m.croft c).lane = some l' ∧ l'.pc = l.pc + 1 ∧ l'.stored = l.stored
      ∧ ∀ n rs, n < 256 → l.regs[n]? = some rs → l'.regs[n]? = some (rs.set (fld ins 55 50)
          (if l.loads s.m (s.m.op c l.index) (lopMode ins) n then (s.slotElem c (s.m.op c l.index) l (lopMode ins) n).1 else 0))) :=
  runs_of_withDst h ((exec_load h).trans (congrArg _ (State.laneLoad_of_ok h hop (beq_iff_eq.mpr himm) (fun n hn _ => hok n hn))))

theorem exec_load_of_bad (h : s.m.nextSlot c = some (l, ins)) (hop : lopOf ins = 0x13) (himm : lopImm ins = 0)
    (hbad : ∃ n, n < 256 ∧ l.loads s.m (s.m.op c l.index) (lopMode ins) n = true ∧ (s.slotElem c (s.m.op c l.index) l (lopMode ins) n).2.2 = true) :
    exec (.load c) s = .next ((s.on (fun b => b.setLane c none)).mismatch c l.index (s.m.slotTensor (s.m.op c l.index) (lopMode ins)).tag false
      (s.m.slotReads (s.m.op c l.index) (lopMode ins))) :=
  (exec_load h).trans (congrArg _ (State.laneLoad_of_bad h hop (beq_iff_eq.mpr himm) hbad))

/-- A slot that is no cache's and gives no attention is read from its tensor (R170). -/
theorem State.slotElem_of_tensor {op : BitVec 512} {k : Nat} (hcache : s.m.isCache (s.m.slotTensor op k) = false) (hattends : s.m.attends op k = none) (n : Nat) :
    s.slotElem c op l k n = loadElem s.mem c (s.m.slotTensor op k) (layerExp (s.m.layer (opLayer op))) ((s.m.slotRef op k).row + l.row)
      ((s.m.slotRef op k).col + (256 * l.group + n)) (256 * l.group + n == 0 || ((s.m.slotRef op k).col + (256 * l.group + n)) % 128 == 0) := by
  simp only [State.slotElem, hattends, hcache, Bool.false_eq_true, if_false]

/-! The master weight (R207, R209) -/

/-- A master weight whose code is not the one never produced is loaded and counts nothing. -/
theorem laneWrites_loadMasterWeight (h : s.m.nextSlot c = some (l, ins)) (hop : lopOf ins = 0x13) (himm : lopImm ins = 1)
    (hmade : ∀ n, n < 256 → l.active s.m (s.m.op c l.index) n = true →
      (s.masterWeight c (s.m.op c l.index) ((opOut (s.m.op c l.index)).row + l.row) ((opOut (s.m.op c l.index)).col + 256 * l.group + n)).2.1 = false) :
    LaneWrites (.loadMasterWeight c) s c l ins (fun n => if l.active s.m (s.m.op c l.index) n then
      asF32 ((Ext.ofInt (s.masterWeight c (s.m.op c l.index) ((opOut (s.m.op c l.index)).row + l.row) ((opOut (s.m.op c l.index)).col + 256 * l.group + n)).1).scale
        (layerExp (s.m.layer (opLayer (s.m.op c l.index))))) else 0) := by
  apply laneWrites_of_withDst
  simp only [exec, execLoadMasterWeight, Block.runOp_of_nextSlot h]
  rw [State.laneLoad_of_ok (p := fun i => lopImm i == 1) h hop (beq_iff_eq.mpr himm) (fun _ _ _ => rfl), LaneRun.loadCounts_of_empty]
  intro n hn
  unfold loadedAt
  split
  case isTrue hactive => simp [hmade n hn hactive]
  case isFalse => rfl

end

/-- Settles O38, by what a load leaves where no lane met a mismatch, and where one did. -/
theorem laneTensorLoads : Obligations.LaneTensorLoads := by
  unfold Obligations.LaneTensorLoads
  intro s c l ins h hop _
  exact ⟨runs_load h hop, exec_load_of_bad h hop, laneWrites_loadMasterWeight h hop,
    fun k n hcache hattends => ⟨⟨rfl, rfl⟩, _, State.slotElem_of_tensor hcache hattends n⟩⟩

end Sys2Proof.Machine

/-! What an array operation leaves in its array (O43). -/
namespace Sys2Proof.Machine

/-! Crofts and their arrays -/

theorem Block.croft_onCroft_ne {b : Block} {c n : Nat} (h : n ≠ c) (f : Croft → Croft) : (b.onCroft c f).croft n = b.croft n := by
  rw [Block.croft, Block.croft, Block.onCroft_crofts, modAt_eq_modify, List.getElem?_modify_ne _ _ h.symm]

@[simp] theorem Croft.unit_onUnit (k : Croft) (u : Arr) (f : ArrayUnit → ArrayUnit) : (k.onUnit u f).unit u = f (k.unit u) := by cases u <;> rfl
@[simp] theorem Croft.onUnit_journal (k : Croft) (u : Arr) (f : ArrayUnit → ArrayUnit) : (k.onUnit u f).journal = k.journal := by cases u <;> rfl

/-- The note of a split's anchors in an entry of the journal leaves what an entry is of, its state and its attempt. -/
theorem journal_noteAnchors {α : Type} {p : JEntry → Bool} {g : JEntry → JEntry} {key : JEntry → α} (hg : ∀ e, key (g e) = key e) (whole : Bool) (js : List JEntry) :
    (if whole then js.map (fun e => if p e then g e else e) else js).map key = js.map key := by
  cases whole with
  | false => rfl
  | true =>
    rw [if_pos rfl, List.map_map]
    refine List.map_congr_left fun e _ => ?_
    rw [Function.comp_apply, apply_ite key, hg, ite_self]

/-! The operands of an attempt -/

/-- A block that the comparisons at the array find at fault (R150, R161). -/
def Blk.bad (x : Blk) : Bool := x.tagBad.isSome || x.squareBad.isSome

theorem Blk.bad_of_agree {x : Blk} (h : x.tagBad = none ∧ x.squareBad = none) : x.bad = false := by rw [Blk.bad, h.1, h.2]; rfl

/-- The blocks that a pass takes of an operand are blocks of its lines. -/
theorem mem_of_pass {ls : List (List Blk)} {first per : Nat} {isA : Bool} {y : Bool × Blk}
    (h : y ∈ (ls.map (fun l => (l.drop first).take per)).flatten.map (fun x => (isA, x))) : ∃ l ∈ ls, y.2 ∈ l := by
  obtain ⟨x, hx, rfl⟩ := List.mem_map.mp h
  obtain ⟨part, hpart, hxp⟩ := List.mem_flatten.mp hx
  obtain ⟨l, hl, rfl⟩ := List.mem_map.mp hpart
  exact ⟨l, hl, List.mem_of_mem_drop (List.mem_of_mem_take hxp)⟩

/-- The array takes the blocks of its two operands and no others. -/
theorem mem_of_issueOrder {la lb : List (List Blk)} {blocks per : Nat} {y : Bool × Blk} (h : y ∈ issueOrder la lb blocks per) : ∃ l ∈ la ++ lb, y.2 ∈ l := by
  obtain ⟨pass, hpass, hy⟩ := List.mem_flatten.mp h
  obtain ⟨p, -, rfl⟩ := List.mem_map.mp hpass
  rcases List.mem_append.mp hy with hb | ha
  · obtain ⟨l, hl, hx⟩ := mem_of_pass hb
    exact ⟨l, List.mem_append_right _ hl, hx⟩
  · obtain ⟨l, hl, hx⟩ := mem_of_pass ha
    exact ⟨l, List.mem_append_left _ hl, hx⟩

section
variable (s : State) (c i : Nat) (a : Attempt)

/-- The array that an attempt runs on. -/
def State.arrayOf : Arr := arrOf ((unitAt (s.m.op c i) a).getD .ba)

/-- The lines of operand A in an attempt (R83, R156). -/
def State.linesA : List (List Blk) :=
  let op := s.m.op c i
  operandLines s.mem c (s.m.source (opA op) a) (opA op) (opFlag op 0) (opRows op) (opBlocks op)
/-- The lines of operand B in an attempt (R83, R156). -/
def State.linesB : List (List Blk) :=
  let op := s.m.op c i
  operandLines s.mem c (s.m.source (opB op) a) (opB op) (opFlag op 1) (opCols op) (opBlocks op)

/-- The first block at fault in the order in which the array takes them, true for operand A (R150, R153). -/
def State.firstBad : Option (Bool × Blk) :=
  (issueOrder (s.linesA c i a) (s.linesB c i a) (opBlocks (s.m.op c i)) (passBlocks (s.m.op c i) (s.arrayOf c i a) a)).find? (·.2.bad)

/-- Are the anchors of the operation's tile computed over the whole contraction of its split (R95): a part in ANCHOR_MODE WHOLE. -/
def State.onWhole : Bool := (s.m.splitOf c i).length != 1 && bitsOf (opAcc (s.m.op c i)) 7 6 == 0

/-- The barrels that an attempt forms (R95, R102, R154). -/
def State.formedBarrels : List (List Barrel) :=
  let op := s.m.op c i
  let whole := s.onWhole c i
  (accumulateTile (s.arrayOf c i a == .fa) (opCode op == 3) (opAcc op) a.extra (s.m.startOf c i)
    ((((s.m.croft c).entry i).bind (fun e => assocGet (a.rung, a.extra) e.anchors)).getD []) (s.linesA c i a) (s.linesB c i a)
    (if whole then s.wholeLines (s.m.splitOf c i) a true else s.linesA c i a)
    (if whole then s.wholeLines (s.m.splitOf c i) a false else s.linesB c i a)).barrels

end

/-- A change of a croft that puts a tile into an array and leaves the journal's entries but for what they note. -/
structure PutsTile (u : Arr) (x : Tile) (f : Croft → Croft) : Prop where
  tile (k : Croft) : ((f k).unit u).tile = some x
  journal (k : Croft) : (f k).journal.map (fun e => (e.index, e.state, e.attempt)) = k.journal.map (fun e => (e.index, e.state, e.attempt))

section
variable {s : State} {c i : Nat} {a : Attempt}

theorem State.firstBad_eq_none (h : ∀ l ∈ s.linesA c i a ++ s.linesB c i a, ∀ x ∈ l, x.tagBad = none ∧ x.squareBad = none) : s.firstBad c i a = none := by
  refine List.find?_eq_none.mpr fun y hy hbad => ?_
  obtain ⟨l, hl, hx⟩ := mem_of_issueOrder hy
  exact Bool.false_ne_true ((Blk.bad_of_agree (h l hl y.2 hx)).symm.trans hbad)

/-! The two ends of an attempt (R150, R154) -/

theorem State.runArray_of_tagBad {isA : Bool} {x : Blk} {tag : Nat} (h : s.firstBad c i a = some (isA, x)) (htag : x.tagBad = some tag) :
    s.runArray c i a = s.mismatch c i tag false (s.m.sourceReads (s.m.op c i) isA a) := by
  simp only [State.runArray]
  split
  case h_1 isA' x' hfind =>
    cases h.symm.trans hfind
    rw [htag]
  case h_2 hfind => cases h.symm.trans hfind

theorem State.runArray_of_squareBad {isA : Bool} {x : Blk} {tag : Nat} (h : s.firstBad c i a = some (isA, x)) (htag : x.tagBad = none)
    (hsquare : x.squareBad = some tag) : s.runArray c i a = s.mismatch c i tag true (s.m.sourceReads (s.m.op c i) isA a) := by
  simp only [State.runArray]
  split
  case h_1 isA' x' hfind =>
    cases h.symm.trans hfind
    rw [htag, hsquare]
    rfl
  case h_2 hfind => cases h.symm.trans hfind

/-- With no block at fault an attempt changes its own croft alone, and what it puts there is its tile. -/
theorem State.runArray_of_agree (h : s.firstBad c i a = none) : ∃ f x, s.runArray c i a = s.on (·.onCroft c f) ∧ PutsTile (s.arrayOf c i a) x f
    ∧ x.index = i ∧ x.attempt = a ∧ x.prior = s.m.startOf c i ∧ x.cells = s.formedBarrels c i a := by
  simp only [State.runArray]
  split
  case h_1 hfind => cases h.symm.trans hfind
  case h_2 =>
    refine ⟨_, _, State.on_congr rfl, ⟨fun k => congrArg ArrayUnit.tile (Croft.unit_onUnit ..), fun k => ?_⟩, rfl, rfl, rfl, rfl⟩
    rw [Croft.onUnit_journal]
    refine journal_noteAnchors ?_ _ _
    exact fun _ => rfl

end

/-- Settles O43, by what an attempt does with no block at fault and at the first that is. -/
theorem arrayTileIsFormed : Obligations.ArrayTileIsFormed := by
  unfold Obligations.ArrayTileIsFormed
  intro s c i a hc
  refine ⟨fun hagree => ?_, fun isA x hfirst => ⟨fun tag => State.runArray_of_tagBad hfirst, fun tag => State.runArray_of_squareBad hfirst⟩⟩
  obtain ⟨f, x, hrun, hputs, hindex, hattempt, hprior, hcells⟩ := State.runArray_of_agree (State.firstBad_eq_none hagree)
  rw [hrun]
  rw [State.on_m, Block.croft_onCroft_self hc]
  exact ⟨rfl, rfl, rfl, fun n hn => Block.croft_onCroft_ne hn f, hputs.journal _, x, hputs.tile _, hindex, hattempt, hprior, hcells⟩

end Sys2Proof.Machine

/-! What becomes of a tile, and what runs again (O45). -/
namespace Sys2Proof.Machine

section
variable {s : State} {c : Nat} {t : Tile} {k : TileChecks}

/-! A finished tile (R100, R105, R106) -/

theorem tileOk_of_reported {op : BitVec 512} (h : k.product = false ∨ k.run = false) : tileOk op t k = false := by
  rcases h with h | h <;> simp [tileOk, h]

theorem State.finishTile_of_fails (h : tileOk (s.m.op c t.index) t k = false) : s.finishTile c t k
    = (s.on (fun b => b.clearTile c t.index)).stopCroft c t.index { cls := .t, code := 0x21, at_ := 0, croftSide := true, cause := 1 } := by
  rw [State.finishTile, h]
  rfl

theorem State.finishTile_of_whole (h : tileOk (s.m.op c t.index) t k = true) (hids : (s.m.splitOf c t.index).length = 1) :
    s.finishTile c t k = s.judge c t [{ croft := c, tile := t }] := by
  obtain ⟨id, hid⟩ := List.length_eq_one_iff.mp hids
  rw [State.finishTile, h, hid]
  rfl

theorem State.finishTile_of_part (h : tileOk (s.m.op c t.index) t k = true) (hids : (s.m.splitOf c t.index).length ≠ 1) :
    s.finishTile c t k = s.partDone c t (s.m.splitOf c t.index) := by
  unfold State.finishTile
  rw [h, if_neg (by decide)]
  split
  case h_1 _ hid => exact absurd (congrArg List.length hid) hids
  case h_2 => rfl

/-! The rows of the arrays (R113, R164) -/

theorem exec_tileDrain {arr : Arr} (htile : ((s.m.croft c).unit arr).tile = some t) (hruns : (s.m.croft c).stopped = false) :
    exec (.tileDrain c arr k) s
      = if opFlag (s.m.op c t.index) 7 && tileOk (s.m.op c t.index) t k then .next s else .next (s.judged k.adders (s.finishTile c t k)) := by
  simp only [exec, execTileDrain, htile, hruns, Bool.false_or]

/-- A tile of no KQ_OUT operation, or one that fails a comparison, is finished by its TILE_DRAIN (R106, R113). -/
theorem exec_tileDrain_finishes {arr : Arr} (htile : ((s.m.croft c).unit arr).tile = some t) (hruns : (s.m.croft c).stopped = false)
    (h : opFlag (s.m.op c t.index) 7 = false ∨ tileOk (s.m.op c t.index) t k = false) :
    exec (.tileDrain c arr k) s = .next (s.judged k.adders (s.finishTile c t k)) := by
  rw [exec_tileDrain htile hruns, if_neg]
  rcases h with h | h <;> simp [h]

theorem exec_sliceExport_tile {ok : Bool} (hruns : (s.m.croft c).stopped = false) (htile : ((s.m.croft c).unit .ba).tile = some t) (hkq : opFlag (s.m.op c t.index) 7 = true) :
    exec (.sliceExport c ok) s = .next (s.judged ok (s.finishTile c t {})) := by
  simp [exec, execSliceExport, hruns, htile, hkq, Option.filter_some]

theorem exec_sliceExport_empty {ok : Bool} (hruns : (s.m.croft c).stopped = false) (hba : ((s.m.croft c).unit .ba).tile = none)
    (hfa : ((s.m.croft c).unit .fa).tile = none) : exec (.sliceExport c ok) s = .next (s.judged ok (s.runExports c)) := by
  simp [exec, execSliceExport, hruns, hba, hfa]

/-! Repeats and replays (R246, R255) -/

@[simp] theorem Block.resumes_dev (b : Block) (n : Nat) : (b.resumes n).dev = b.dev := by
  unfold Block.resumes
  split
  · exact Block.bump_dev ..
  · rfl

@[simp] theorem Block.takeRedo_dev (b : Block) (n : Nat) (x : Nat × Attempt) : (b.takeRedo n x).dev = b.dev := by
  unfold Block.takeRedo
  dsimp only
  split
  · exact Block.resumes_dev ..
  · rfl

/-- Accesses that meet no error come to nothing while the link is not insecure (R306, R453). -/
theorem State.accessed_of_clean (i : Nat) (h : s.m.dev.ideState ≠ 2) : s.accessed c i {} = (s, true) := by
  have hnone : ∀ reads writes, s.m.insecureAccess reads writes = none := fun _ _ => if_neg (by simpa using h)
  have hclean : s.on (fun b => b.correctedAt []) = s := State.on_eq_self rfl
  simp only [State.accessed, List.filter_nil, hclean, Option.isSome_none, Bool.false_eq_true, if_false, hnone]

theorem exec_repeatWider {i : Nat} {a : Attempt} (hnext : s.m.nextRedo c (fun a => a.repeated || a.cascade) = some (i, a)) (hide : s.m.dev.ideState ≠ 2) :
    exec (.repeatWider { croft := c }) s = .next ((s.on (fun b => (b.takeRedo c (i, a)).notePrior c i)).runArray c i a) := by
  have hdev : (s.on (fun b => (b.takeRedo c (i, a)).notePrior c i)).m.dev.ideState ≠ 2 := by
    simpa [Block.notePrior] using hide
  simp only [exec, execRepeatWider, hnext, State.accessed_of_clean i hdev, if_true]

theorem exec_spanReplay {i : Nat} {a : Attempt} (hnext : s.m.nextRedo c (fun a => a.spanReplay && !a.replay && !a.repeated && !a.cascade) = some (i, a)) :
    ∃ u : State, u.mem = s.mem ∧ u.pending = s.pending ∧ exec (.spanReplay { croft := c }) s = .next (u.reissue c i a {}) := by
  simp only [exec, execSpanReplay, hnext]
  exact ⟨_, State.on_mem .., State.on_pending .., rfl⟩

end

/-- Settles O45, by what a finished tile comes to and by the row that finishes it. -/
theorem tilesDrainAndRepeat : Obligations.TilesDrainAndRepeat := by
  unfold Obligations.TilesDrainAndRepeat
  intro s c ok hruns
  refine ⟨fun arr t k htile => ⟨fun hfails => ?_, fun hok hkq hids => ?_, fun hok hkq hids => ?_, fun hok hkq => ?_, tileOk_of_reported⟩,
    fun _ => exec_sliceExport_tile hruns, exec_sliceExport_empty hruns, fun _ _ => exec_repeatWider, fun _ _ => exec_spanReplay⟩
  · rw [exec_tileDrain_finishes htile hruns (.inr hfails), State.finishTile_of_fails hfails]
  · rw [exec_tileDrain_finishes htile hruns (.inl hkq), State.finishTile_of_whole hok hids]
  · rw [exec_tileDrain_finishes htile hruns (.inl hkq), State.finishTile_of_part hok hids]
  · rw [exec_tileDrain htile hruns, hok, hkq]
    rfl

end Sys2Proof.Machine

/-! What the lanes keep for the end of their run (O39). -/
namespace Sys2Proof.Machine

/-- A kept value replaces the one kept before for its position, and no other (R170). -/
theorem mem_keepStored {x : Stored} {mode row col : Nat} {v : F32} {st : List Stored} :
    x ∈ keepStored mode row col v st ↔ x = { mode := mode, row := row, col := col, value := v } ∨ x ∈ st ∧ ¬ (x.mode = mode ∧ x.row = row ∧ x.col = col) := by
  simp only [keepStored, List.mem_append, List.mem_filter, List.mem_singleton, Bool.not_eq_true', Bool.eq_false_iff, ne_eq, Bool.and_eq_true, beq_iff_eq, and_assoc]
  exact or_comm

/-- The values kept once each of the first k lanes n that `who` names has stored f n for its own column, the n-th from `base` on. -/
@[irreducible] def keepLanes (mode row base : Nat) (who : Nat → Bool) (f : Nat → F32) (k : Nat) (st : List Stored) : List Stored :=
  (List.range k).foldl (fun st n => if who n then keepStored mode row (base + n) (f n) st else st) st

section
variable {mode row base : Nat} {who : Nat → Bool} {f : Nat → F32} {st : List Stored}

theorem keepLanes_succ (k : Nat) :
    keepLanes mode row base who f (k + 1) st =
      if who k then keepStored mode row (base + k) (f k) (keepLanes mode row base who f k st) else keepLanes mode row base who f k st := by
  simp only [keepLanes, List.range_succ, List.foldl_append, List.foldl_cons, List.foldl_nil]

/-- The lanes have a column each: all their values are kept, and of the earlier ones those whose position no lane has stored to. -/
theorem mem_keepLanes {x : Stored} {k : Nat} :
    x ∈ keepLanes mode row base who f k st ↔
      (∃ n, n < k ∧ who n = true ∧ x = { mode := mode, row := row, col := base + n, value := f n })
      ∨ x ∈ st ∧ ∀ n, n < k → who n = true → ¬ (x.mode = mode ∧ x.row = row ∧ x.col = base + n) := by
  induction k with
  | zero => simp [keepLanes]
  | succ k ih =>
    have hother : (∃ n, n < k ∧ who n = true ∧ x = { mode := mode, row := row, col := base + n, value := f n }) → ¬ (x.mode = mode ∧ x.row = row ∧ x.col = base + k) := by
      rintro ⟨n, hn, -, rfl⟩ ⟨-, -, hcol⟩
      exact Nat.ne_of_lt hn (Nat.add_left_cancel hcol)
    rw [keepLanes_succ, Nat.exists_lt_succ_right, Nat.forall_lt_succ_right]
    by_cases hk : who k = true
    · rw [if_pos hk, mem_keepStored, ih, or_and_right, and_iff_left_of_imp hother, and_assoc, or_left_comm, ← or_assoc]
      simp only [hk, true_and, forall_const]
    · rw [if_neg hk, ih]
      simp only [hk, Bool.false_eq_true, false_and, or_false, false_imp_iff, and_true]

end

section
variable {s : State} {c : Nat} {l : LaneRun} {ins : W64}

/-- A run after a store of its lanes: their values kept, the next slot. -/
def LaneRun.storing (l : LaneRun) (mode : Nat) (who : Nat → Bool) (f : Nat → F32) : LaneRun :=
  { l with stored := keepLanes mode l.row (256 * l.group) who f 256 l.stored, pc := l.pc + 1 }

theorem LaneRun.storing_stored (mode : Nat) (who : Nat → Bool) (f : Nat → F32) :
    (l.storing mode who f).stored = keepLanes mode l.row (256 * l.group) who f 256 l.stored := rfl

theorem LaneRun.mem_storing_of_lane {mode n : Nat} {who : Nat → Bool} (hn : n < 256) (hw : who n = true) (f : Nat → F32) :
    ({ mode := mode, row := l.row, col := 256 * l.group + n, value := f n } : Stored) ∈ (l.storing mode who f).stored := by
  rw [LaneRun.storing_stored, mem_keepLanes]
  exact .inl ⟨n, hn, hw, rfl⟩

theorem LaneRun.mem_storing_of_other {mode : Nat} {x : Stored} (hx : x ∈ l.stored) (hpos : x.mode ≠ mode ∨ x.row ≠ l.row) (who : Nat → Bool) (f : Nat → F32) :
    x ∈ (l.storing mode who f).stored := by
  rw [LaneRun.storing_stored, mem_keepLanes]
  exact .inr ⟨hx, fun _ _ _ ⟨hm, hr, _⟩ => hpos.elim (· hm) (· hr)⟩

theorem State.laneStore_eq (h : s.m.nextSlot c = some (l, ins)) (hop : lopOf ins = 0x14) {mode : Nat} (hmode : lopMode ins = mode) :
    s.laneStore c mode = s.on (fun b => b.setLane c (some (l.storing mode (l.stores s.m (s.m.op c l.index)) (srcA l ins)))) := by
  simp [State.laneStore, h, hop, hmode, LaneRun.storing, keepLanes]

/-- A STORE that waits for the end of the run: the values of the lanes that store, beside those kept for other positions. -/
theorem runs_laneStore (h : s.m.nextSlot c = some (l, ins)) (hop : lopOf ins = 0x14) {mode : Nat} (hmode : lopMode ins = mode) {i : Instr}
    (hrun : exec i s = .next (s.laneStore c mode)) :
    Runs i s (fun t => t.mem = s.mem ∧ t.pending = s.pending ∧ ∃ l', (t.m.croft c).lane = some l' ∧ l'.pc = l.pc + 1 ∧ l'.regs = l.regs
      ∧ (∀ n, n < 256 → l.stores s.m (s.m.op c l.index) n = true →
          ({ mode := mode, row := l.row, col := 256 * l.group + n, value := l.reg n (fld ins 49 44) } : Stored) ∈ l'.stored)
      ∧ (∀ x ∈ l.stored, (x.mode ≠ mode ∨ x.row ≠ l.row) → x ∈ l'.stored)) := by
  have hc := Block.lt_of_lane (Block.lane_of_nextSlot h)
  exact ⟨_, hrun.trans (congrArg _ (State.laneStore_eq h hop hmode)), rfl, rfl, _, Block.lane_setLane hc _, rfl, rfl,
    fun n hn hw => LaneRun.mem_storing_of_lane hn hw _, fun x hx hpos => LaneRun.mem_storing_of_other hx hpos _ _⟩

/-! The master weight (R209) -/

/-- What STORE MODE 1 computes for a lane: a new weight where it is active. -/
def State.newWeight (s : State) (c : Nat) (l : LaneRun) (ins : W64) (n : Nat) : Option (Int × F32 × Counts × LayerCounts) :=
  if l.active s.m (s.m.op c l.index) n then some (s.masterStore c (s.m.op c l.index) l ins n) else none

/-- A lane's new weight, if it has one, kept for its position and counted. -/
def LaneRun.keepNew (l : LaneRun) (x : Nat × Option (Int × F32 × Counts × LayerCounts)) : LaneRun :=
  match x.2 with
  | some (y, _, c, k) => { l with stored := keepStored 1 l.row (256 * l.group + x.1) (BitVec.ofInt 32 y) l.stored, counts := mergeCounts l.counts c, layer := l.layer.add k }
  | none => l

/-- The registers of a lane, DST with the value of its new weight, if it has one. -/
def setNew (ins : W64) (x : Option (Int × F32 × Counts × LayerCounts) × List F32) : List F32 :=
  match x.1 with
  | some (_, v, _, _) => x.2.set (fld ins 55 50) v
  | none => x.2

/-- The registers of every lane after STORE MODE 1. -/
def State.newRegs (s : State) (c : Nat) (l : LaneRun) (ins : W64) : List (List F32) := (((List.range 256).map (s.newWeight c l ins)).zip l.regs).map (setNew ins)

theorem State.newRegs_getElem? {n : Nat} {rs : List F32} (hn : n < 256) (h : l.regs[n]? = some rs) :
    (s.newRegs c l ins)[n]? = some (setNew ins (s.newWeight c l ins n, rs)) := by
  have hnew : ((List.range 256).map (s.newWeight c l ins))[n]? = some (s.newWeight c l ins n) := by
    rw [List.getElem?_map, List.getElem?_range hn]
    rfl
  have hzip : (((List.range 256).map (s.newWeight c l ins)).zip l.regs)[n]? = some (s.newWeight c l ins n, rs) := List.getElem?_zip_eq_some.mpr ⟨hnew, h⟩
  rw [State.newRegs, List.getElem?_map, hzip]
  rfl

/-- Of a run, new weights change what it keeps and what it counts. -/
theorem LaneRun.foldl_keepNew (l : LaneRun) (who : Nat → Bool) (g : Nat → Int × F32 × Counts × LayerCounts) (k : Nat) :
    ∃ counts layer, (List.range k).foldl (fun l n => l.keepNew (n, if who n then some (g n) else none)) l =
      { l with stored := keepLanes 1 l.row (256 * l.group) who (fun n => BitVec.ofInt 32 (g n).1) k l.stored, counts := counts, layer := layer } := by
  induction k with
  | zero => exact ⟨l.counts, l.layer, by simp [keepLanes]⟩
  | succ k ih =>
    obtain ⟨counts, layer, hk⟩ := ih
    rw [List.range_succ, List.foldl_append, hk, keepLanes_succ]
    by_cases hw : who k = true
    · exact ⟨mergeCounts counts (g k).2.2.1, layer.add (g k).2.2.2, by simp only [List.foldl_cons, List.foldl_nil, if_pos hw, LaneRun.keepNew]⟩
    · exact ⟨counts, layer, by simp only [List.foldl_cons, List.foldl_nil, if_neg hw, LaneRun.keepNew]⟩

theorem exec_storeMaster (h : s.m.nextSlot c = some (l, ins)) (hop : lopOf ins = 0x14) (hmode : lopMode ins = 1) :
    exec (.storeMaster c) s = .next (s.on (fun b => b.setLane c (some
      { ((List.range 256).zip ((List.range 256).map (s.newWeight c l ins))).foldl LaneRun.keepNew l with
        regs := s.newRegs c l ins, pc := l.pc + 1 }))) := by
  simp only [exec, execStoreMaster, h, hop, hmode, bne_self_eq_false, Bool.or_self, Bool.false_eq_true, if_false]
  rfl

/-- STORE MODE 1: a lane that is active keeps its new weight and takes the value in DST; the rest of the run counts them. -/
theorem exec_storeMaster_storing (h : s.m.nextSlot c = some (l, ins)) (hop : lopOf ins = 0x14) (hmode : lopMode ins = 1) :
    ∃ counts layer, exec (.storeMaster c) s = .next (s.on (fun b => b.setLane c (some
      { l.storing 1 (l.active s.m (s.m.op c l.index)) (fun n => BitVec.ofInt 32 (s.masterStore c (s.m.op c l.index) l ins n).1) with
        regs := s.newRegs c l ins, counts := counts, layer := layer }))) := by
  obtain ⟨counts, layer, hfold⟩ := l.foldl_keepNew (l.active s.m (s.m.op c l.index)) (s.masterStore c (s.m.op c l.index) l ins) 256
  refine ⟨counts, layer, (exec_storeMaster h hop hmode).trans ?_⟩
  simp only [← List.map_prod_left_eq_zip, List.foldl_map, State.newWeight, hfold, LaneRun.storing]

end

/-- Settles O39, by what the lanes that take part keep. -/
theorem laneStoresWait : Obligations.LaneStoresWait := by
  unfold Obligations.LaneStoresWait
  intro s c l ins h hop
  refine ⟨fun hm => runs_laneStore h hop hm rfl, fun hm => runs_laneStore h hop hm rfl, fun hm => runs_laneStore h hop hm rfl, fun hm => runs_laneStore h hop hm rfl,
    fun hm => runs_laneStore h hop hm rfl, fun hm => ?master⟩
  case master =>
    have hc := Block.lt_of_lane (Block.lane_of_nextSlot h)
    obtain ⟨counts, layer, hrun⟩ := exec_storeMaster_storing h hop hm
    refine ⟨_, hrun, rfl, rfl, _, Block.lane_setLane hc _, rfl, fun n rs hn _ hrs => ⟨fun hact => ⟨?_, ?_⟩, fun hact => ?_⟩⟩
    · rw [State.newRegs_getElem? hn hrs, State.newWeight, if_pos hact]
      rfl
    · exact LaneRun.mem_storing_of_lane hn hact _
    · rw [State.newRegs_getElem? hn hrs, State.newWeight, hact]
      rfl

end Sys2Proof.Machine

/-! Tables and groups that the host loads (O12). -/
namespace Sys2Proof.Machine

/-! Commands that the device state accepts (R432) -/

theorem Block.refusal_of_accepts {s : State} {op : Nat} (h : Accepts s op) : s.m.refusal op = none := if_pos h

theorem State.host_of_accepts {s : State} {op : Nat} (h : Accepts s op) (k : Hdr) (f : State → State) : s.host k op f = f s := by
  simp only [State.host, Block.refusal_of_accepts h]

/-! Croft tables (R128, R165) -/

section
variable {s : State} {h : Hdr} {pl : List Byte} {c : Nat}

theorem exec_drainTableLoad (hacc : Accepts s 0x18) (hc : c < 192) (hruns : (s.m.croft c).runsTable = false) (hcheck : s.m.checkCrofts.contains c = false) :
    exec (.drainTableLoad h c pl) s
      = .next ((s.on (fun b => b.onCroft c (fun x => { x with drainTable := (List.range 256).map (fun i => drainEntry (leAt pl (16 * i) 16)) }))).finish h 0x18 0) := by
  have hlast : ¬ 191 < c := by omega
  simp only [exec, execDrainTableLoad, State.host_of_accepts hacc, hruns, hcheck, Bool.or_self, Bool.false_eq_true, if_false, if_neg hlast]

/-- CROFT of LANE_PROG_LOAD names one croft, or all of them (R445). -/
theorem progTargets_eq {ts : List Nat} (h : c = 0xFF ∧ ts = List.range 192 ∨ c < 192 ∧ ts = [c]) :
    (if c == 0xFF then List.range 192 else [c]) = ts ∧ (191 < c && c != 0xFF) = false := by
  rcases h with ⟨rfl, rfl⟩ | ⟨hc, rfl⟩
  · exact ⟨rfl, rfl⟩
  · have hall : c ≠ 0xFF := by omega
    have hlast : ¬ 191 < c := by omega
    simp [hall, hlast]

theorem exec_laneProgLoad {ts : List Nat} (hacc : Accepts s 0x19) (hts : c = 0xFF ∧ ts = List.range 192 ∨ c < 192 ∧ ts = [c])
    (hfree : ∀ n ∈ ts, (s.m.croft n).lane = none ∧ (∀ e ∈ (s.m.croft n).inFlight, opCode e.op ≠ 8) ∧ s.m.checkCrofts.contains n = false)
    (hok : imageBad ((List.range 64).map (fun i => BitVec.ofNat 64 (leAt pl (8 * i) 8)))
      (((List.range 2048).map (fun i => leAt pl (512 + 8 * i) 8)).map (BitVec.ofNat 64)) = none) :
    exec (.laneProgLoad h c pl) s
      = .next ((s.on (fun b => ts.foldl (fun b n => b.onCroft n (fun x => { x with
          progTable := (List.range 64).map (fun i => BitVec.ofNat 64 (leAt pl (8 * i) 8))
          progStore := ((List.range 2048).map (fun i => leAt pl (512 + 8 * i) 8)).map (fun v => BitVec.ofNat 64 (putBits v 23 16 0)) })) b)).finish h 0x19 0) := by
  obtain ⟨htargets, hcroft⟩ := progTargets_eq hts
  have hidle : ts.any (fun n => (s.m.croft n).lane.isSome || (s.m.croft n).inFlight.any (fun e => opCode e.op == 8) || s.m.checkCrofts.contains n) = false := by
    refine List.any_eq_false.mpr fun n hn => ?_
    obtain ⟨hlane, hflight, hcheck⟩ := hfree n hn
    simpa [hlane] using ⟨hflight, by simpa using hcheck⟩
  simp only [exec, execLaneProgLoad, State.host_of_accepts hacc, htargets, hidle, hcroft, hok, Bool.false_eq_true, if_false]
  rfl

/-! Fabric tables (R320, R321) -/

/-- The expected-peer table of a payload, reserved bits 0 (R320). -/
def portTable (pl : List Byte) : List (BitVec 32) := (List.range 18).map (fun i => BitVec.ofNat 32 (putBits (leAt pl (4 * i) 4) 30 19 0))

/-- Entry i of the routing tables of a payload, which begin at byte `off` (R321). -/
def routeEntry (pl : List Byte) (off i : Nat) : Nat := leAt pl (off + 2 * i) 2

/-- n routing entries of a payload from entry `first` on, reserved bits 0. -/
def routeTable (pl : List Byte) (off first n : Nat) : List (BitVec 16) := (List.range n).map (fun i => BitVec.ofNat 16 (putBits (routeEntry pl off (first + i)) 14 10 0))

theorem portTable_getElem? (pl : List Byte) {i : Nat} (hi : i < 18) : (portTable pl)[i]? = some (BitVec.ofNat 32 (putBits (leAt pl (4 * i) 4) 30 19 0)) := by
  simp [portTable, hi]

theorem routeTable_getElem? (pl : List Byte) (off first : Nat) {n i : Nat} (hi : i < n) :
    (routeTable pl off first n)[i]? = some (BitVec.ofNat 16 (putBits (routeEntry pl off (first + i)) 14 10 0)) := by
  simp [routeTable, hi]

/-- A run of the 104 routing entries of a payload. -/
theorem routeTable_of_slice (pl : List Byte) (off : Nat) {first n : Nat} (h : first + n ≤ 104) :
    ((((List.range 104).map (routeEntry pl off)).drop first).take n).map (fun e => BitVec.ofNat 16 (putBits e 14 10 0)) = routeTable pl off first n := by
  refine List.ext_getElem ?_ fun i _ _ => ?_
  · simp only [routeTable, List.length_map, List.length_take, List.length_drop, List.length_range]
    omega
  · simp [routeTable]

/-- Where the routing tables of a payload begin: behind the peer table, if that comes too (R439). -/
def routesAt (peers : Bool) : Nat := if peers then 72 else 0

/-- The fabric with the tables that a FABRIC_TABLE_LOAD brings. -/
def Fab.loadTables (f : Fab) (peers routes : Bool) (pl : List Byte) : Fab :=
  { f with
    peers := if peers then portTable pl else f.peers
    hamletRoute := if routes then routeTable pl (routesAt peers) 0 8 else f.hamletRoute
    villageRoute := if routes then routeTable pl (routesAt peers) 8 16 else f.villageRoute
    hallRoute := if routes then routeTable pl (routesAt peers) 24 80 else f.hallRoute }

/-- A FABRIC_TABLE_LOAD of which no port entry and no routing entry is refused (R320, R321). -/
theorem exec_fabricTableLoad {peers routes : Bool} (hacc : Accepts s 0x1A) (hjob : s.m.jobRuns = false)
    (hports : peers = true → ∀ i, i < 18 → noPort (leAt pl (4 * i) 4 % 32) = false)
    (hroutes : routes = true → ∀ i, i < 104 → s.m.routeBad (routeEntry pl (routesAt peers) i) = false) :
    exec (.fabricTableLoad h peers routes pl) s = .next ((s.on (fun b => { b with fab := b.fab.loadTables peers routes pl })).finish h 0x1A 0) := by
  have hport : (List.range (if peers then 18 else 0)).find? (fun i => noPort (leAt pl (4 * i) 4 % 32)) = none := by
    refine List.find?_eq_none.mpr fun i hi => ?_
    cases peers with
    | false => simp at hi
    | true => simp [hports rfl i (List.mem_range.mp hi)]
  simp only [exec, execFabricTableLoad, State.host_of_accepts hacc, hjob, Bool.false_eq_true, if_false, hport]
  cases routes with
  | false => cases peers <;> rfl
  | true =>
    have hbytes : (List.range 104).map (fun i => leAt pl ((if peers then 72 else 0) + 2 * i) 2) = (List.range 104).map (routeEntry pl (routesAt peers)) := rfl
    have hroute : ((List.range 104).zip ((List.range 104).map (routeEntry pl (routesAt peers)))).find? (fun x => s.m.routeBad x.2) = none := by
      refine List.find?_eq_none.mpr fun x hx => ?_
      obtain ⟨i, hi, he⟩ := List.mem_map.mp (List.of_mem_zip hx).2
      simp [← he, hroutes rfl i (List.mem_range.mp hi)]
    have hlen : ((List.range 104).map (routeEntry pl (routesAt peers))).length = 104 := by rw [List.length_map, List.length_range]
    have hslice {first n : Nat} (h : first + n ≤ 104) := routeTable_of_slice pl (routesAt peers) h
    simp only [if_true, hbytes, hlen, hroute, hslice (show 0 + 8 ≤ 104 by omega), hslice (show 8 + 16 ≤ 104 by omega), hslice (show 24 + 80 ≤ 104 by omega)]
    cases peers <;> rfl

/-! Groups (R359, R362) -/

/-- The groups with the descriptor of group g replaced. -/
def setGroup (g : Nat) (d : BitVec 512) (gs : List Group) : List Group := gs.filter (·.index != g) ++ [{ index := g, desc := d }]

theorem find?_setGroup_self (g : Nat) (d : BitVec 512) (gs : List Group) : (setGroup g d gs).find? (fun x => x.index == g) = some { index := g, desc := d } := by
  have hgone : (gs.filter (·.index != g)).find? (fun x => x.index == g) = none := by simp
  simp [setGroup, List.find?_append, hgone]

theorem find?_setGroup_ne {g k : Nat} (h : k ≠ g) (d : BitVec 512) (gs : List Group) :
    (setGroup g d gs).find? (fun x => x.index == k) = gs.find? (fun x => x.index == k) := by
  have hsame : (fun x : Group => decide ((x.index != g) = true ∧ (x.index == k) = true)) = fun x => x.index == k := by
    funext x
    by_cases hx : x.index = k <;> simp [hx, h]
  have hnew : [({ index := g, desc := d } : Group)].find? (fun x => x.index == k) = none := by simp [h.symm]
  rw [setGroup, List.find?_append, List.find?_filter, hsame, hnew, Option.or_none]

theorem exec_groupLoad {g : Nat} (hacc : Accepts s 0x1B) (hjob : s.m.jobRuns = false) (hg : g ≤ 0x3FF) (hok : s.groupBad (putBits (leAt pl 0 64) 209 0 0) = []) :
    exec (.groupLoad h g pl) s
      = .next ((s.on (fun b => { b with desc := { b.desc with groups := setGroup g (BitVec.ofNat 512 (putBits (leAt pl 0 64) 209 0 0)) b.desc.groups } })).finish h 0x1B 0) := by
  simp only [exec, execGroupLoad, State.host_of_accepts hacc, hjob, Bool.false_eq_true, if_false, if_neg (Nat.not_lt.mpr hg), hok]
  rfl

end

/-- Settles O12, by what each load leaves in its tables. -/
theorem tableLoads : Obligations.TableLoads := by
  unfold Obligations.TableLoads
  intro s h pl
  refine ⟨fun c => exec_drainTableLoad, fun c ts => exec_laneProgLoad, fun peers routes hacc hjob hports hroutes => ?fabric, fun g hacc hjob hg hok => ?group⟩
  case fabric =>
    refine ⟨s.on (fun b => { b with fab := b.fab.loadTables peers routes pl }),
      ⟨rfl, rfl, rfl, rfl, rfl, fun i hi hp => ?_, fun hp => ?_, fun hr => ⟨fun i hi => ?_, fun i hi => ?_, fun i hi => ?_⟩, fun hr => ?_⟩,
      exec_fabricTableLoad hacc hjob hports hroutes⟩
    · exact (congrArg (·[i]?) (if_pos hp)).trans (portTable_getElem? pl hi)
    · exact if_neg (Bool.eq_false_iff.mp hp)
    · exact (congrArg (·[i]?) (if_pos hr)).trans ((routeTable_getElem? pl (routesAt peers) 0 hi).trans (by rw [Nat.zero_add]; rfl))
    · exact (congrArg (·[i]?) (if_pos hr)).trans (routeTable_getElem? pl (routesAt peers) 8 hi)
    · exact (congrArg (·[i]?) (if_pos hr)).trans (routeTable_getElem? pl (routesAt peers) 24 hi)
    · exact ⟨if_neg (Bool.eq_false_iff.mp hr), if_neg (Bool.eq_false_iff.mp hr), if_neg (Bool.eq_false_iff.mp hr)⟩
  case group =>
    exact ⟨s.on (fun b => { b with desc := { b.desc with groups := setGroup g (BitVec.ofNat 512 (putBits (leAt pl 0 64) 209 0 0)) b.desc.groups } }),
      ⟨rfl, rfl, rfl, find?_setGroup_self .., fun k hk => find?_setGroup_ne hk ..⟩, exec_groupLoad hacc hjob hg hok⟩

end Sys2Proof.Machine

/-! Register instructions and scalar loads of a lane run (O35, O37). -/
namespace Sys2Proof.Machine

section
variable {s : State} {c : Nat} {l : LaneRun} {ins : W64} {i : Instr}

theorem exec_laneNop (h : s.m.nextSlot c = some (l, ins)) (hop : lopOf ins = 0) :
    exec (.laneNop c) s = .next (s.on (fun b => b.setLane c (some { l with pc := l.pc + 1 }))) := by
  simp only [exec, execLaneNop, h, hop, beq_self_eq_true, if_true]

theorem laneWrites_laneOp (h : s.m.nextSlot c = some (l, ins)) {lop : Nat} (hop : lopOf ins = lop) {f : LaneRun → W64 → Nat → F32}
    (hrun : exec i s = .next (s.laneOp c lop f)) {g : Nat → F32} (hf : f l ins = g) : LaneWrites i s c l ins g :=
  laneWrites_of_withDst (hrun.trans (congrArg _ ((State.laneOp_eq h hop f).trans (by rw [hf]))))

/-- A load of a scalar gives it to every active lane, +0 to the others, and counts nothing (R207). -/
theorem laneWrites_scalarLoad (h : s.m.nextSlot c = some (l, ins)) (hop : lopOf ins = 0x13) {p : W64 → Bool} {f : LaneRun → W64 → Nat → F32 × Counts × Bool}
    (hrun : exec i s = .next (s.laneLoad c p f)) (hp : p ins = true) {x : F32} (hf : ∀ n, f l ins n = (x, [], false)) :
    LaneWrites i s c l ins (fun n => if l.active s.m (s.m.op c l.index) n then x else 0) := by
  apply laneWrites_of_withDst
  rw [hrun, State.laneLoad_of_ok h hop hp (fun n _ _ => by rw [hf]), LaneRun.loadCounts_of_empty]
  · simp only [hf]
  · intro n _
    rw [loadedAt, hf]
    split <;> rfl

end

/-- Settles O35: each row but NOP is one result per lane, written to DST. -/
theorem laneRegisterInstructions : Obligations.LaneRegisterInstructions := by
  unfold Obligations.LaneRegisterInstructions
  intro s c l ins h
  refine ⟨exec_laneNop h, ?results⟩
  case results => and_intros <;> exact fun hop => laneWrites_laneOp h hop rfl rfl

/-- Settles O37, by a load that gives one value to every active lane. -/
theorem laneConstantLoads : Obligations.LaneConstantLoads := by
  unfold Obligations.LaneConstantLoads
  intro s c l ins h hop _
  refine ⟨fun himm => ?clip, fun himm => ?lr, fun hlow hhigh => ?hyp, fun himm => ?step⟩
  case hyp => exact laneWrites_scalarLoad h hop rfl (by simp [hlow, hhigh]) (fun n => by rw [Block.runOp_of_nextSlot h])
  case lr => exact laneWrites_scalarLoad h hop rfl (by simp [himm]) (fun n => by rw [Block.runOp_of_nextSlot h])
  all_goals exact laneWrites_scalarLoad h hop rfl (by simp [himm]) (fun n => rfl)

end Sys2Proof.Machine

/-! Phases, rows and the end of a lane run (O40). -/
namespace Sys2Proof.Machine

/-! What a block says of its job's tables -/

theorem Block.tensor_congr {a b : Block} (h : a.job = b.job) (i : Nat) : a.tensor i = b.tensor i := by rw [Block.tensor, Block.tensor, h]

theorem Block.isUpdate_congr {a b : Block} (h : a.job = b.job) (op : BitVec 512) : a.isUpdate op = b.isUpdate op := by
  rw [Block.isUpdate, Block.isUpdate, Block.tensor_congr h]

theorem Block.isCache_congr {a b : Block} (h : a.desc = b.desc) (t : Tensor) : a.isCache t = b.isCache t := by rw [Block.isCache, Block.isCache, h]

/-- A count that enters a bank leaves the job and the descriptors. -/
theorem Block.onBank_tables (b : Block) (c i : Nat) (f : TallyBank → TallyBank) : (b.onBank c i f).job = b.job ∧ (b.onBank c i f).desc = b.desc := by
  unfold Block.onBank Block.onLayerBank
  split
  · exact ⟨rfl, rfl⟩
  · split <;> exact ⟨rfl, rfl⟩

/-- A beat of a unit leaves the crofts that there are. -/
theorem Block.beat_length (b : Block) (c : Nat) (u : CroftUnit) : (b.beat c u).crofts.length = b.crofts.length := by
  rw [Block.beat, Block.onCroft_crofts, modAt_eq_modify, List.length_modify]

theorem LaneRun.reg_of_zeroRegs {l : LaneRun} (h : l.regs = zeroRegs) (n r : Nat) : l.reg n r = 0 := by
  simp only [LaneRun.reg, h, zeroRegs, List.getD_eq_getElem?_getD, List.getElem?_replicate]
  split
  · rw [Option.getD_some, List.getElem?_replicate]
    split <;> rfl
  · rfl

section
variable {s : State} {c : Nat} {l : LaneRun} {ins : W64}

/-- A row that only sets the run and beats: the memories stay. -/
theorem runs_beat_setLane (h : s.m.nextSlot c = some (l, ins)) {i : Instr} {l' : LaneRun}
    (hrun : exec i s = .next (s.on (fun b => (b.beat c .lane).setLane c (some l')))) : Runs i s (fun t => t.mem = s.mem ∧ (t.m.croft c).lane = some l') :=
  have hc := Block.lt_of_lane (Block.lane_of_nextSlot h)
  ⟨_, hrun, rfl, Block.lane_setLane ((Block.beat_length ..).symm ▸ hc) _⟩

theorem exec_phaseEnd (h : s.m.nextSlot c = some (l, ins)) (hop : lopOf ins = 0x1E) :
    exec (.phaseEnd c) s = .next (s.on (fun b => (b.beat c .lane).setLane c (some (
      if l.group + 1 < ceilDiv (s.m.rowLen (s.m.op c l.index)) 256 then { l with group := l.group + 1, pc := l.phasePc }
      else { l with group := 0, phase := l.phase + 1, pc := l.pc + 1, phasePc := l.pc + 1 })))) := by
  simp only [exec, execPhaseEnd, h, hop, bne_self_eq_false, Bool.false_eq_true, if_false]

/-- A run that begins the next row: the program's first slot, every register +0 (R166). -/
def LaneRun.nextRow (l : LaneRun) (first : Nat) : LaneRun := { l with row := l.row + 1, group := 0, phase := 0, pc := first, phasePc := first, regs := zeroRegs }

theorem exec_endProgram_row (h : s.m.nextSlot c = some (l, ins)) (hop : lopOf ins = 0x1F) (hrow : l.row + 1 < opRows (s.m.op c l.index)) {first : Nat} {prog : List W64}
    (hprog : (s.m.croft c).program (opWord (s.m.op c l.index) 1 % 64) = some (first, prog)) :
    exec (.endProgram c) s = .next (s.on (fun b => (b.beat c .lane).setLane c (some (l.nextRow first)))) := by
  simp only [exec, execEndProgram, h, hop, bne_self_eq_false, Bool.false_eq_true, if_false, if_pos hrow, hprog, LaneRun.nextRow]

/-- The state in which a run is over: it holds no lane, and its counts have entered their bank (R224). -/
def State.laneOver (s : State) (c : Nat) (l : LaneRun) : State := s.on (fun b => (b.onBank c l.index (fun k => k.release l.counts)).setLane c none)

theorem State.laneOver_isUpdate (op : BitVec 512) : (s.laneOver c l).m.isUpdate op = s.m.isUpdate op :=
  Block.isUpdate_congr (Block.onBank_tables ..).1 op

theorem State.laneOver_isCache (t : Tensor) : (s.laneOver c l).m.isCache t = s.m.isCache t :=
  Block.isCache_congr (Block.onBank_tables ..).2 t

/-- END of the last row, by what the run writes: an update run's tensors, rows of the cache, or one tensor. -/
theorem exec_endProgram_last (h : s.m.nextSlot c = some (l, ins)) (hop : lopOf ins = 0x1F) (hrow : opRows (s.m.op c l.index) ≤ l.row + 1) :
    let op := s.m.op c l.index
    let tout := (s.m.tensor (opOut op).tensor).getD {}
    let u := s.laneOver c l
    exec (.endProgram c) s = .next (
      if s.m.isUpdate op then (u.finishUpdate c l op).opDone c l.index
      else if s.m.isCache tout then
        if (u.storeCache c l op tout).2.isEmpty then (u.storeCache c l op tout).1.opDone c l.index
        else (u.storeCache c l op tout).1.on (fun b => b.setLane c (some { l with stored := l.stored.filter (fun x => (u.storeCache c l op tout).2.contains x.row), counts := [] }))
      else
        let r := u.laneQuant c l op 0 (opOut op).tensor tout (drainCtrl (opDrain op)) (opFlag op 6)
        (r.1.lanePatch c l op (opOut op).tensor tout (drainCtrl (opDrain op)) r.2.1 r.2.2).opDone c l.index) := by
  dsimp only
  rw [← State.laneOver_isUpdate (c := c) (l := l), ← State.laneOver_isCache (c := c) (l := l)]
  simp only [exec, execEndProgram, h, hop, bne_self_eq_false, Bool.false_eq_true, if_false, if_neg (Nat.not_lt.mpr hrow), apply_ite Host.Outcome.next]
  rfl

end

/-- Settles O40, by the row of each sequencing slot and, at the end of the last row, by what the run writes. -/
theorem laneSequencing : Obligations.LaneSequencing := by
  unfold Obligations.LaneSequencing
  intro s c l ins h
  dsimp only
  refine ⟨fun hop hg => ?phase, fun hop hg => ?phases, fun first prog hop hrow hprog => ?row, fun hop hrow hkind => ?last, fun hop hrow hcache hupd => ?cache⟩
  case phase => exact runs_beat_setLane h ((exec_phaseEnd h hop).trans (by rw [if_pos hg]))
  case phases => exact runs_beat_setLane h ((exec_phaseEnd h hop).trans (by rw [if_neg (Nat.not_lt.mpr hg)]))
  case row =>
    obtain ⟨t, hrun, hmem, hlane⟩ := runs_beat_setLane h (exec_endProgram_row h hop hrow hprog)
    exact ⟨t, hrun, hmem, _, hlane, rfl, rfl, rfl, rfl, rfl, LaneRun.reg_of_zeroRegs rfl⟩
  case last =>
    rw [exec_endProgram_last h hop hrow]
    have hover : s.Keeps (s.laneOver c l) := State.on_keeps (State.Keeps.refl s)
    by_cases hupd : s.m.isUpdate (s.m.op c l.index) = true
    · rw [if_pos hupd]
      exact ⟨_, (State.finishUpdate_keeps c l _ hover).1, rfl⟩
    · rw [if_neg hupd, if_neg (Bool.eq_false_iff.mp (hkind.resolve_right hupd))]
      exact ⟨_, (State.lanePatch_keeps c l _ _ _ _ _ _ (State.laneQuant_keeps c l _ _ _ _ _ _ hover)).1, rfl⟩
  case cache =>
    rw [exec_endProgram_last h hop hrow, if_neg (Bool.eq_false_iff.mp hupd), if_pos hcache]
    exact ⟨fun hnone => congrArg _ (if_pos (List.isEmpty_iff.mpr hnone)), fun hleft => congrArg _ (if_neg (mt List.isEmpty_iff.mp hleft))⟩

end Sys2Proof.Machine

/-! Operations that no unit runs (O44). -/
namespace Sys2Proof.Machine

/-! What an update of one croft leaves of every croft -/

theorem Block.croft_onCroft (b : Block) (n c : Nat) (f : Croft → Croft) :
    (b.onCroft n f).croft c = if n = c ∧ c < b.crofts.length then f (b.croft c) else b.croft c := by
  by_cases hn : n = c
  · subst hn
    by_cases hc : n < b.crofts.length
    · rw [Block.croft_onCroft_self hc, if_pos ⟨rfl, hc⟩]
    · rw [if_neg (fun h => hc h.2), Block.croft, Block.croft, Block.onCroft_crofts, modAt_eq_modify, List.getElem?_modify, List.getElem?_eq_none (Nat.not_lt.mp hc)]
      rfl
  · rw [Block.croft_onCroft_ne (Ne.symm hn), if_neg (fun h => hn h.1)]

/-- What an update leaves of the croft that it is made to, it leaves of every croft. -/
theorem Block.croft_onCroft_of_keeps {α : Type} {g : Croft → α} {f : Croft → Croft} (hf : ∀ k, g (f k) = g k) (b : Block) (n c : Nat) :
    g ((b.onCroft n f).croft c) = g (b.croft c) := by
  rw [Block.croft_onCroft]
  split
  · exact hf _
  · rfl

/-- What holds back a croft's issue: the operations of its stream, and the time it waits for. -/
def Croft.waiting (k : Croft) : List Nat × Option Nat := (k.todo, k.waitUntil)

theorem Block.setToken_waiting (b : Block) (n tok : Nat) (hold : Bool) (c : Nat) : ((b.setToken n tok hold).croft c).waiting = (b.croft c).waiting := by
  unfold Block.setToken
  split
  · rfl
  · split
    · exact Block.croft_onCroft_of_keeps (g := Croft.waiting) (fun _ => by rfl) b n c
    · split
      · rfl
      · split <;> rfl

@[simp] theorem Block.bump_croft (b : Block) (k : Counter) (v c : Nat) : (b.bump k v).croft c = b.croft c := by
  rw [Block.croft, Block.bump_crofts, Block.croft]

theorem Block.raiseTo_croft (b : Block) (k : Counter) (v c : Nat) : (b.raiseTo k v).croft c = b.croft c := Block.bump_croft ..

theorem Block.resumes_waiting (b : Block) (n c : Nat) : ((b.resumes n).croft c).waiting = (b.croft c).waiting := by
  unfold Block.resumes
  split
  · exact (Block.croft_onCroft_of_keeps (fun _ => by rfl) _ n c).trans (congrArg _ (Block.raiseTo_croft ..))
  · rfl

theorem Block.stallCost_croft (b : Block) (n : Nat) (x : Stall) (c : Nat) : (b.stallCost n x).croft c = b.croft c := by
  unfold Block.stallCost
  split <;> rfl

theorem Block.endStall_waiting (b : Block) (n : Nat) (u : CroftUnit) (c : Nat) : ((b.endStall n u).croft c).waiting = (b.croft c).waiting := by
  unfold Block.endStall
  split
  · refine (Block.croft_onCroft_of_keeps (fun _ => by rfl) _ n c).trans ?_
    rw [Block.bump_croft, Block.bump_croft, Block.stallCost_croft]
  · rfl

theorem Block.settleCroft_waiting (b : Block) (n c : Nat) : ((b.settleCroft n).croft c).waiting = (b.croft c).waiting := by
  refine List.foldlRecOn (motive := fun d : Block => (d.croft c).waiting = (b.croft c).waiting) [CroftUnit.fa, .ba, .lane] _ rfl fun d hd u _ => ?_
  split
  · rw [Block.endStall_waiting, hd]
  · exact (Block.croft_onCroft_of_keeps (fun _ => by rfl) d n c).trans hd
  · exact hd

theorem Block.settleStalls_waiting (b : Block) (c : Nat) : (b.settleStalls.croft c).waiting = (b.croft c).waiting :=
  List.foldlRecOn (motive := fun d : Block => (d.croft c).waiting = (b.croft c).waiting) (List.range b.crofts.length) _ rfl
    fun d hd n _ => (d.settleCroft_waiting n c).trans hd

/-! An operation that leaves its stream (R178) -/

theorem Block.dequeue_waiting (b : Block) (c i : Nat) : ((b.dequeue c i).croft c).waiting = ((b.croft c).todo.filter (· != i), (b.croft c).waitUntil) := by
  have hb : ((b.resumes c).croft c).waiting = (b.croft c).waiting := b.resumes_waiting c c
  obtain ⟨htodo, hwait⟩ := Prod.mk.inj hb
  unfold Block.dequeue
  rw [Block.croft_onCroft]
  split
  case isTrue => rw [Croft.waiting, htodo, hwait]
  case isFalse hout =>
    have hnone : (b.resumes c).croft c = {} := by
      rw [Block.croft, List.getElem?_eq_none (Nat.le_of_not_lt fun h => hout ⟨rfl, h⟩)]
      rfl
    rw [hb, Croft.waiting, ← htodo, hnone]
    rfl

theorem Block.rejectOp_waiting (b : Block) (c i : Nat) : ((b.rejectOp c i).croft c).waiting = ((b.croft c).todo.filter (· != i), (b.croft c).waitUntil) :=
  (Block.croft_onCroft_of_keeps (fun _ => by rfl) _ c c).trans (b.dequeue_waiting c i)

/-- An operation that no unit runs leaves its croft's stream, which waits for a time as before. -/
theorem Block.passControl_waiting (b : Block) (c i : Nat) : ((b.passControl c i).croft c).waiting = ((b.croft c).todo.filter (· != i), (b.croft c).waitUntil) := by
  unfold Block.passControl
  dsimp only
  split
  · exact b.rejectOp_waiting c i
  · rw [Block.settleStalls_waiting, Block.setToken_waiting, Block.dequeue_waiting]

theorem Block.notMem_passControl (b : Block) (c i : Nat) : i ∉ ((b.passControl c i).croft c).todo := by
  obtain ⟨htodo, -⟩ := Prod.mk.inj (b.passControl_waiting c i)
  rw [htodo]
  exact fun hi => bne_iff_ne.mp (List.mem_filter.mp hi).2 rfl

theorem Block.waitUntil_passControl (b : Block) (c i : Nat) : ((b.passControl c i).croft c).waitUntil = (b.croft c).waitUntil :=
  (Prod.mk.inj (b.passControl_waiting c i)).2

/-! Counters -/

theorem Block.count_bump_self (b : Block) (k : Counter) : (b.bump k).count k = Nat.min (b.count k + 1) (2 ^ 64 - 1) := by
  have hlist : ∀ l : List (Counter × Nat), (assocGet k (bumpList k 1 l)).getD 0 = addSat ((assocGet k l).getD 0) 1 := by
    intro l
    induction l with
    | nil => simp [bumpList, assocGet]
    | cons x xs ih =>
      by_cases hx : x.1 = k
      · simp [bumpList, assocGet, hx]
      · rw [bumpList, if_neg hx]
        simpa [assocGet, hx] using ih
  exact hlist b.counts

/-! Forced commits (R183, R475) -/

section
variable {s : State} {c : Nat}

/-- A croft with an operation in flight whose writes do not wait has not drained. -/
theorem Block.not_drained {b : Block} (h : ∃ e ∈ (b.croft c).inFlight, ∀ w ∈ b.tiers.heldWrites, w.owner ≠ some (c, e.index)) : b.drained c = false := by
  obtain ⟨e, he, hw⟩ := h
  exact List.all_eq_false.mpr ⟨e, he, Bool.eq_false_iff.mp (List.any_eq_false.mpr fun w hin => mt beq_iff_eq.mp (hw w hin))⟩

/-- A croft that is made to commit, and its count (R183). -/
def Block.beginForce (b : Block) (c : Nat) : Block := (b.bump .forcedCommits).onCroft c (fun k => { k with forcing := true })

/-- A forced commit of a croft that has not drained stops its issue and counts once. -/
theorem State.forceCommit_of_undrained (hspan : (s.m.croft c).spanOpen = false) (hopen : ∃ e ∈ (s.m.croft c).journal, e.state ≠ .retained) (hforce : (s.m.croft c).forcing = false)
    (hfly : ∃ e ∈ (s.m.croft c).inFlight, ∀ w ∈ s.m.tiers.heldWrites, w.owner ≠ some (c, e.index)) : s.forceCommit c = s.on (·.beginForce c) := by
  have hall : (s.m.croft c).journal.all (fun e => e.state == .retained) = false := by
    obtain ⟨e, he, hne⟩ := hopen
    exact List.all_eq_false.mpr ⟨e, he, mt beq_iff_eq.mp hne⟩
  have hdrained : (s.on (·.beginForce c)).m.drained c = false := by
    apply Block.not_drained
    have hin : ((s.m.beginForce c).croft c).inFlight = (s.m.croft c).inFlight :=
      (Block.croft_onCroft_of_keeps (fun _ => by rfl) _ c c).trans (congrArg _ (Block.bump_croft ..))
    rwa [State.on_m, hin, Block.beginForce, Block.onCroft_tiers, Block.bump_tiers]
  unfold State.forceCommit
  rw [if_neg (by rw [hspan, hforce, hall]; exact Bool.false_ne_true)]
  simp only [hforce, Bool.false_eq_true, if_false]
  exact if_neg (Bool.eq_false_iff.mp hdrained)

theorem Block.beginForce_count (b : Block) (c : Nat) : (b.beginForce c).count .forcedCommits = Nat.min (b.count .forcedCommits + 1) (2 ^ 64 - 1) := Block.count_bump_self ..

theorem Block.beginForce_forcing {b : Block} (h : c < b.crofts.length) : ((b.beginForce c).croft c).forcing = true := by
  rw [Block.beginForce, Block.croft_onCroft_self (by rwa [Block.bump_crofts])]

theorem exec_forcedCommit {t : Nat} (hc : c < 192) (h : ((s.m.advanceTo t).croft c).forcing = true ∨ ((s.m.advanceTo t).croft c).commitAt + 200000 ≤ (s.m.advanceTo t).now) :
    exec (.forcedCommit t c) s = .next ((s.on (·.advanceTo t)).forceCommit c) := by
  have hdue : (decide (c < 192) && (((s.m.advanceTo t).croft c).forcing || decide (((s.m.advanceTo t).croft c).commitAt + 200000 ≤ (s.m.advanceTo t).now))) = true := by
    rw [decide_eq_true hc, Bool.true_and, Bool.or_eq_true, decide_eq_true_eq]
    exact h
  exact if_pos hdue

/-! The heads of a croft's stream (R178, R180) -/

theorem exec_commit_ready {i : Nat} {ok : Bool} (h : s.m.controlHead c 0x18 = .ready i) (hok : badControl (s.m.op c i) = false) (hquiet : (s.m.croft c).quietBefore i = true)
    (hdie : (s.m.die (dieOf c)).hold = none) (hflush : s.m.flushFirst c ((s.m.croft c).todo.drop 1) = false) :
    exec (.commit c ok) s = .next (s.judged ok ((((s.runExports c true).on (·.closeSpan c)).on (fun b => b.passControl c i)).commitCroft c)) := by
  simp only [exec, execCommit, h, hok, hquiet, hdie, hflush, Option.isSome_none, Bool.not_true, Bool.or_self, Bool.false_eq_true, if_false]

theorem exec_commit_rejects {i : Nat} {ok : Bool} (h : s.m.controlHead c 0x18 = .ready i) (hbad : badControl (s.m.op c i) = true) :
    exec (.commit c ok) s = .next (s.reject c i) := by
  simp only [exec, execCommit, h, hbad, if_true]

theorem exec_commit_skips {i : Nat} {ok : Bool} (h : s.m.controlHead c 0x18 = .skip i) : exec (.commit c ok) s = .next (s.on (·.skipControl c i)) := by
  simp only [exec, execCommit, h]

theorem exec_fenceCroft_ready {i : Nat} (h : s.m.controlHead c 0x19 = .ready i) (hquiet : (s.m.croft c).quietBefore i = true) :
    exec (.fenceCroft c) s = .next (s.on (fun b => b.passControl c i)) := by
  simp only [exec, execFenceCroft, h, hquiet, if_true]

theorem exec_fenceCroft_skips {i : Nat} (h : s.m.controlHead c 0x19 = .skip i) : exec (.fenceCroft c) s = .next (s.on (·.skipControl c i)) := by
  simp only [exec, execFenceCroft, h]

theorem exec_waitTime_past {i : Nat} (h : s.m.controlHead c 0x1A = .ready i) (hpast : s.m.waitTime (s.m.op c i) ≤ s.m.now) :
    exec (.waitTime c) s = .next (s.on (fun b => b.passControl c i)) := by
  have hpasses : (badControl (s.m.op c i) || Decidable.decide (s.m.waitTime (s.m.op c i) ≤ s.m.now)) = true := by
    rw [decide_eq_true hpast, Bool.or_true]
  simp only [exec, execWaitTime, h]
  exact if_pos hpasses

theorem runs_waitTime_future {i : Nat} (h : s.m.controlHead c 0x1A = .ready i) (hok : badControl (s.m.op c i) = false) (hfuture : s.m.now < s.m.waitTime (s.m.op c i))
    (hc : c < s.m.crofts.length) :
    Runs (.waitTime c) s (fun t => t.mem = s.mem ∧ (t.m.croft c).waitUntil = some (s.m.waitTime (s.m.op c i)) ∧ (t.m.croft c).todo = (s.m.croft c).todo) := by
  have hstays : ¬ (badControl (s.m.op c i) || Decidable.decide (s.m.waitTime (s.m.op c i) ≤ s.m.now)) = true := by
    rw [hok, Bool.false_or, decide_eq_true_eq]
    exact Nat.not_le_of_lt hfuture
  refine ⟨s.on (fun b => b.onCroft c (fun k => { k with waitUntil := some (b.waitTime (b.op c i)) })), ?_, rfl, ?_, ?_⟩
  · simp only [exec, execWaitTime, h]
    exact if_neg hstays
  · rw [State.on_m, Block.croft_onCroft_self hc]
  · rw [State.on_m, Block.croft_onCroft_self hc]

theorem exec_waitTime_skips {i : Nat} (h : s.m.controlHead c 0x1A = .skip i) : exec (.waitTime c) s = .next (s.on (·.skipControl c i)) := by
  simp only [exec, execWaitTime, h]

theorem exec_almanacNop_ready {i : Nat} (h : s.m.controlHead c 0x1F = .ready i) : exec (.almanacNop c) s = .next (s.on (fun b => b.passControl c i)) := by
  simp only [exec, execAlmanacNop, h]

theorem exec_almanacNop_skips {i : Nat} (h : s.m.controlHead c 0x1F = .skip i) : exec (.almanacNop c) s = .next (s.on (·.skipControl c i)) := by
  simp only [exec, execAlmanacNop, h]

/-! The expiry of a WAIT_TIME (R178) -/

/-- A croft that waits for no time. -/
def Block.endWait (b : Block) (c : Nat) : Block := b.onCroft c (fun k => { k with waitUntil := none })

/-- A croft that waits for a time is one of the module's: any other is an empty one. -/
theorem Block.lt_of_waitUntil {b : Block} {w : Nat} (h : (b.croft c).waitUntil = some w) : c < b.crofts.length := by
  refine Nat.lt_of_not_le fun hc => ?_
  rw [Block.croft, List.getElem?_eq_none hc] at h
  cases h

/-- A croft whose wait for w ends: the WAIT_TIME at its head that waited for w has passed. -/
def Block.expireWait (b : Block) (c w : Nat) : Block :=
  match ((b.endWait c).croft c).todo with
  | i :: _ => if opCode ((b.endWait c).op c i) == 0x1A && (b.endWait c).waitTime ((b.endWait c).op c i) == w then (b.endWait c).passControl c i else b.endWait c
  | [] => b.endWait c

theorem Block.expireWait_of_head {b : Block} {w i : Nat} {rest : List Nat} (htodo : (b.croft c).todo = i :: rest) (hcode : opCode (b.op c i) = 0x1A)
    (hdue : b.waitTime (b.op c i) = w) : b.expireWait c w = (b.endWait c).passControl c i := by
  have hhead : ((b.endWait c).croft c).todo = i :: rest := (Block.croft_onCroft_of_keeps (fun _ => by rfl) b c c).trans htodo
  have hthis : (opCode ((b.endWait c).op c i) == 0x1A && (b.endWait c).waitTime ((b.endWait c).op c i) == w) = true := by
    rw [Bool.and_eq_true, beq_iff_eq, beq_iff_eq]
    exact ⟨hcode, hdue⟩
  simp only [Block.expireWait, hhead, hthis, if_true]

theorem exec_waitTimeExpiry {t w : Nat} (hwait : (s.m.croft c).waitUntil = some w) (hnow : w ≤ (s.m.advanceTo t).now) :
    exec (.waitTimeExpiry t c) s = .next ((s.on (·.advanceTo t)).on (·.expireWait c w)) := by
  have hwait' : ((s.on (·.advanceTo t)).m.croft c).waitUntil = some w := hwait
  simp only [exec, execWaitTimeExpiry, hwait']
  exact if_neg (Nat.not_lt.mpr hnow)

theorem runs_waitTimeExpiry {t w i : Nat} {rest : List Nat} (hwait : (s.m.croft c).waitUntil = some w) (htodo : (s.m.croft c).todo = i :: rest)
    (hcode : opCode (s.m.op c i) = 0x1A) (hnow : w ≤ (s.m.advanceTo t).now) (hdue : (s.m.advanceTo t).waitTime (s.m.op c i) = w) :
    Runs (.waitTimeExpiry t c) s (fun u => u.mem = s.mem ∧ (u.m.croft c).waitUntil = none ∧ i ∉ (u.m.croft c).todo) := by
  have hc : c < (s.m.advanceTo t).crofts.length := Block.lt_of_waitUntil (b := s.m) hwait
  have hpass : (s.m.advanceTo t).expireWait c w = ((s.m.advanceTo t).endWait c).passControl c i := Block.expireWait_of_head htodo hcode hdue
  refine ⟨_, exec_waitTimeExpiry hwait hnow, rfl, ?_, ?_⟩
  · rw [State.on_m, State.on_m, hpass, Block.waitUntil_passControl, Block.endWait, Block.croft_onCroft_self hc]
  · rw [State.on_m, State.on_m, hpass]
    exact Block.notMem_passControl _ c i

end

/-- Settles O44, by how each operation stands at the head of its croft's stream, and by what a forced commit does (log 60). -/
theorem controlOperations : Obligations.ControlOperations := by
  unfold Obligations.ControlOperations
  intro s c i ok
  refine ⟨exec_commit_ready, exec_commit_rejects, exec_fenceCroft_ready, fun h _ => exec_waitTime_past h, runs_waitTime_future,
    fun t w rest hwait htodo hcode _ => runs_waitTimeExpiry hwait htodo hcode, exec_commit_skips, exec_fenceCroft_skips, exec_waitTime_skips, exec_almanacNop_skips,
    exec_almanacNop_ready, fun t => exec_forcedCommit, fun t cs => rfl, fun hspan hopen hforce hfly hc => ?forced, Block.notMem_passControl _ c i⟩
  case forced =>
    rw [State.forceCommit_of_undrained hspan hopen hforce hfly]
    exact ⟨Block.beginForce_count .., Block.beginForce_forcing hc⟩

end Sys2Proof.Machine

/-! Operations that issue, and those that the check at issue keeps back (O42). -/
namespace Sys2Proof.Machine

/-! What issue leaves of the block -/

theorem Block.op_congr {a b : Block} (h : a.job.almanac = b.job.almanac) (c i : Nat) : a.op c i = b.op c i := by rw [Block.op, Block.op, h]

/-- Two blocks of one device and one almanac. -/
def SameAlmanac (a b : Block) : Prop := b.dev = a.dev ∧ b.job.almanac = a.job.almanac

theorem SameAlmanac.trans {a b d : Block} (h : SameAlmanac a b) (k : SameAlmanac b d) : SameAlmanac a d := ⟨k.1.trans h.1, k.2.trans h.2⟩

theorem Block.endStall_sameAlmanac (b : Block) (c : Nat) (u : CroftUnit) : SameAlmanac b (b.endStall c u) := by
  have hcost : ∀ x, SameAlmanac b (b.stallCost c x) := fun x => by
    unfold Block.stallCost
    split <;> exact ⟨rfl, rfl⟩
  unfold Block.endStall
  split
  case h_1 x _ => exact (hcost x).trans ⟨by rw [Block.onCroft_dev, Block.bump_dev, Block.bump_dev], by rw [Block.onCroft_job, Block.bump_job, Block.bump_job]⟩
  case h_2 => exact ⟨rfl, rfl⟩

theorem Block.resumes_sameAlmanac (b : Block) (c : Nat) : SameAlmanac b (b.resumes c) := by
  refine ⟨b.resumes_dev c, ?_⟩
  unfold Block.resumes
  split
  · exact congrArg _ (Block.bump_job ..)
  · rfl

theorem Block.journalIssue_sameAlmanac (b : Block) (c i : Nat) : SameAlmanac b (b.journalIssue c i) := by
  unfold Block.journalIssue Block.dequeue
  dsimp only
  split
  · exact ⟨(Block.resumes_sameAlmanac _ c).1, (Block.resumes_sameAlmanac _ c).2⟩
  · exact b.resumes_sameAlmanac c

section
variable (s : State) (c i : Nat) (u : CroftUnit)

/-- The state in which an operation of the arrays or the lanes has issued: its queue stalls no more, and the journal has it (R183, R302). -/
def State.issued : State := s.on (fun b => (b.endStall c u).journalIssue c i)

/-- The state in which an operation of the stile or a MOVE has issued. -/
def State.journaled : State := s.on (fun b => b.journalIssue c i)

theorem State.issued_sameAlmanac : SameAlmanac s.m (s.issued c i u).m := (s.m.endStall_sameAlmanac c u).trans (Block.journalIssue_sameAlmanac ..)

theorem State.issued_op : (s.issued c i u).m.op c i = s.m.op c i := Block.op_congr (s.issued_sameAlmanac c i u).2 c i

end

section
variable {s : State} {c i : Nat} {u : CroftUnit} {code : Nat}

/-- The accesses of an operation that has issued, where they meet no error. -/
theorem State.issued_accessed (h : s.m.dev.ideState ≠ 2) : (s.issued c i u).accessed c i {} = (s.issued c i u, true) :=
  State.accessed_of_clean i (by rwa [(s.issued_sameAlmanac c i u).1])

theorem State.journaled_accessed (h : s.m.dev.ideState ≠ 2) : (s.journaled c i).accessed c i {} = (s.journaled c i, true) :=
  State.accessed_of_clean i (by rwa [State.journaled, State.on_m, (s.m.journalIssue_sameAlmanac c i).1])

/-! The arrays (R156, R251) -/

theorem State.issueArray_rejects {acc : Access} (h : s.head c u [code] = .ready i) (hbad : badArray s.m s.mem c (s.m.op c i) = true) :
    s.issueArray c u code acc = s.reject c i := by
  simp only [State.issueArray, h, hbad, if_true]

theorem State.issueArray_ready (h : s.head c u [code] = .ready i) (hok : badArray s.m s.mem c (s.m.op c i) = false) (hide : s.m.dev.ideState ≠ 2) :
    s.issueArray c u code {} = (s.issued c i u).beginArray c i ((s.issued c i u).m.firstAttempt c i) := by
  simp only [State.issueArray, h, hok, Bool.false_eq_true, if_false, ← State.issued.eq_def, State.issued_accessed hide, if_true]

/-- An attempt on an array: as it is where its operands touch no patched square or its layer is pinned, else as a cascade, which first discards a span not replayed yet. -/
theorem State.beginArray_eq {t noted : State} {op : BitVec 512} (a : Attempt) (hop : t.m.op c i = op) (hnoted : t.on (fun b => b.notePrior c i) = noted) :
    t.beginArray c i a =
      if (noted.patched op true = none ∧ noted.patched op false = none) ∨ noted.m.pinned (opLayer op) = true then (noted.on (fun b => b.hostRead c i (b.opReads op))).runArray c i a
      else if (noted.m.inSpan op && !noted.m.spanSpent c i) = true then noted.discardSpan c i []
      else noted.on (fun b => (b.countFailed c i a).cascadeAs c i a (Nat.max ((noted.patched op true).getD 0) ((noted.patched op false).getD 0))) := by
  simp only [State.beginArray, hop, hnoted]
  split
  case h_1 ha hb => rw [if_pos (.inl ⟨ha, hb⟩)]
  case h_2 hpatched =>
    have htouched : ¬ (noted.patched op true = none ∧ noted.patched op false = none) := fun hn => hpatched hn.1 hn.2
    simp only [htouched, false_or]

/-- The row of each array operation issues it. -/
theorem exec_matmul {t : State} (h : s.issueArray c u code {} = t) :
    (u = .fa → code = 1 → exec (.faMatmul c {}) s = .next t) ∧ (u = .ba → code = 2 → exec (.baMatmulWs c {}) s = .next t)
      ∧ (u = .ba → code = 3 → exec (.baMatmulOs c {}) s = .next t) := by
  subst h
  refine ⟨?_, ?_, ?_⟩ <;> rintro rfl rfl <;> rfl

/-! The lane fabric (R166, R198, R206) -/

theorem exec_laneRun_rejects {acc : Access} (h : s.head c .lane [8] = .ready i) (hbad : badLane s.m c (s.m.op c i) = true) :
    exec (.laneRun c acc) s = .next (s.reject c i) := by
  simp only [exec, execLaneRun, h, hbad, if_true]

/-- A LANE_RUN that issues begins its run, unless it is an update run that finds a held slice not COMPLETE. -/
theorem exec_laneRun (h : s.head c .lane [8] = .ready i) (hok : badLane s.m c (s.m.op c i) = false) (hide : s.m.dev.ideState ≠ 2)
    (hwait : s.m.isUpdate (s.m.op c i) = true → s.m.job.clip.isSome = true ∧ s.m.shardPending (s.m.op c i) = false) :
    exec (.laneRun c {}) s = .next (if (s.m.isUpdate (s.m.op c i) && !(s.issued c i .lane).m.heldComplete (s.m.op c i)) = true
      then (s.issued c i .lane).stopCroft c i { cls := .j, code := 0x26, at_ := 0 }
      else (s.issued c i .lane).startLane c i ((s.issued c i .lane).m.firstAttempt c i)) := by
  have hgoes : (s.m.isUpdate (s.m.op c i) && (s.m.job.clip.isNone || s.m.shardPending (s.m.op c i))) = false := by
    cases hupd : s.m.isUpdate (s.m.op c i) with
    | false => rfl
    | true =>
      obtain ⟨hclip, hshard⟩ := hwait hupd
      rw [hshard, Option.isNone_eq_false_iff.mpr hclip]
      rfl
  simp only [exec, execLaneRun, h, hok, hgoes, Bool.false_eq_true, if_false, ← State.issued.eq_def, State.issued_accessed hide, if_true, apply_ite Host.Outcome.next]

/-! The stile (R163) -/

theorem State.issueStile_rejects {acc : Access} (h : s.head c .stile [code] = .ready i) (hbad : badStile s.m (s.m.op c i) = true) :
    s.issueStile c code acc = s.reject c i := by
  simp only [State.issueStile, h, hbad, if_true]

theorem State.issueStile_ready (h : s.head c .stile [code] = .ready i) (hok : badStile s.m (s.m.op c i) = false) (hide : s.m.dev.ideState ≠ 2) :
    s.issueStile c code {} = (s.journaled c i).runStile c i := by
  simp only [State.issueStile, h, hok, Bool.false_eq_true, if_false, ← State.journaled.eq_def, State.journaled_accessed hide, if_true]

/-! The movement queue (R296 to R300) -/

theorem State.issueMove_rejects {kind : Nat} {acc : Access} (h : s.head c .move [0x10] = .ready i) (hkind : moveKind (s.m.op c i) = kind)
    (hbad : badMove s.m (s.m.op c i) = true) : s.issueMove c kind acc = s.reject c i := by
  simp only [State.issueMove, h, hkind, hbad, bne_self_eq_false, Bool.false_and, Bool.false_eq_true, if_false, if_true]

theorem State.issueMove_ready {kind : Nat} (h : s.head c .move [0x10] = .ready i) (hkind : moveKind (s.m.op c i) = kind) (hok : badMove s.m (s.m.op c i) = false)
    (htime : kind < 2 → s.m.notBefore (s.m.op c i) ≤ s.m.now) (hfull : s.m.squirrelFull kind = false) (hide : s.m.dev.ideState ≠ 2) :
    s.issueMove c kind {} = (s.journaled c i).runMove c i := by
  have hdue : (Decidable.decide (kind < 2) && Decidable.decide (s.m.now < s.m.notBefore (s.m.op c i))) = false := by
    rw [Bool.and_eq_false_iff, decide_eq_false_iff_not, decide_eq_false_iff_not]
    exact Decidable.or_iff_not_imp_left.mpr (fun hlow => Nat.not_lt.mpr (htime (Decidable.not_not.mp hlow)))
  simp only [State.issueMove, h, hkind, hok, hdue, hfull, bne_self_eq_false, Bool.false_and, Bool.false_eq_true, if_false, ← State.journaled.eq_def,
    State.journaled_accessed hide, if_true]
  exact State.on_eq_self (f := fun b => b.retryDelay c i {}) rfl

end

/-- Settles O42: what each queue's row comes to for an operation that issues, and for one that breaks a rule (logs 36, 66, 97 and 110). -/
theorem operationsIssue : Obligations.OperationsIssue := by
  unfold Obligations.OperationsIssue
  intro s c i
  refine ⟨fun u code h hok hide => ?arrays, fun acc h hbad => ?fa, fun acc h hbad => exec_laneRun_rejects h hbad, fun acc h hbad => ?stile, fun acc h hkind hbad => ?move,
    fun h hok hupd hide => ?lane, fun h hok hupd hclip hshard hide => ?update, fun h hok hide => ?widen, fun h hok hide => ?narrow,
    fun kind h hkind hok htime hfull hide => ?moves⟩
  case arrays =>
    have hrun := (State.issueArray_ready h hok hide).trans (State.beginArray_eq _ (s.issued_op c i u) rfl)
    refine ⟨fun hplain => exec_matmul (hrun.trans (if_pos hplain)), fun hpatched hpin hspan => exec_matmul (hrun.trans ((if_neg ?span).trans (if_pos hspan))),
      fun hpatched hpin hspan => exec_matmul (hrun.trans ((if_neg ?cascade).trans (if_neg (Bool.eq_false_iff.mp hspan))))⟩
    all_goals
      rintro (⟨ha, hb⟩ | hpinned)
      · exact hpatched.elim (· ha) (· hb)
      · exact Bool.eq_false_iff.mp hpin hpinned
  case fa => exact congrArg _ (State.issueArray_rejects h hbad)
  case stile => exact congrArg _ (State.issueStile_rejects h hbad)
  case move => exact congrArg _ (State.issueMove_rejects h hkind hbad)
  case lane =>
    refine (exec_laneRun h hok hide (fun hu => absurd hu (Bool.eq_false_iff.mp hupd))).trans ?_
    rw [if_neg (by rw [hupd, Bool.false_and]; exact Bool.false_ne_true)]
    rfl
  case update =>
    have hrun := exec_laneRun h hok hide (fun _ => ⟨hclip, hshard⟩)
    refine ⟨fun hheld => hrun.trans (congrArg _ (if_neg ?_)), fun hheld => hrun.trans (congrArg _ (if_pos ?_))⟩
    · have hheld' : (s.issued c i .lane).m.heldComplete (s.m.op c i) = true := hheld
      rw [hheld', Bool.not_true, Bool.and_false]
      exact Bool.false_ne_true
    · have hheld' : (s.issued c i .lane).m.heldComplete (s.m.op c i) = false := hheld
      rw [hupd, hheld', Bool.not_false, Bool.and_self]
  case widen => exact congrArg _ (State.issueStile_ready h hok hide)
  case narrow => exact congrArg _ (State.issueStile_ready h hok hide)
  case moves =>
    have hrun := State.issueMove_ready h hkind hok htime hfull hide
    refine ⟨?_, ?_, ?_, ?_⟩ <;> rintro rfl <;> exact congrArg _ hrun

end Sys2Proof.Machine

/-! Tally counters that stop (O51). -/
namespace Sys2Proof.Machine

/-- What a key reads after a value was set at a key. -/
theorem assocGet_assocSet {α β : Type} [BEq α] [LawfulBEq α] [DecidableEq α] (k j : α) (v : β) (l : List (α × β)) :
    assocGet j (assocSet k v l) = if k = j then some v else assocGet j l := by
  induction l with
  | nil => by_cases h : k = j <;> simp [assocSet, assocGet, h]
  | cons p l ih =>
    obtain ⟨a, b⟩ := p
    unfold assocGet at ih ⊢
    by_cases ha : a = k
    · subst ha
      by_cases h : a = j <;> simp [assocSet, h]
    · by_cases h : a = j
      · subst h
        simp [assocSet, ha, Ne.symm ha]
      · simpa [assocSet, ha, h] using ih

/-- The count at a key, 0 where there is none. -/
def Counts.countAt (c : Counts) (key : Nat × Nat × TallyCtr) : Nat := (assocGet key c).getD 0

/-- All that counts hold at a key. -/
def Counts.total (c : Counts) (key : Nat × Nat × TallyCtr) : Nat := ((c.filter (fun x => x.1 == key)).map (·.2)).sum

theorem TallyBank.get_eq (t : TallyBank) (tag fmt : Nat) (k : TallyCtr) : t.get tag fmt k = t.counts.countAt (tag, fmt, k) := rfl

theorem Counts.countAt_assocSet (c : Counts) (k key : Nat × Nat × TallyCtr) (n : Nat) :
    Counts.countAt (assocSet k n c) key = if k = key then n else c.countAt key := by
  unfold Counts.countAt
  rw [assocGet_assocSet]
  split <;> rfl

theorem Counts.total_cons (k key : Nat × Nat × TallyCtr) (n : Nat) (d : Counts) :
    Counts.total ((k, n) :: d) key = (if k = key then n else 0) + d.total key := by
  unfold Counts.total
  by_cases h : k = key <;> simp [h]

/-- Stopping at each addition is stopping at the end (R225). -/
theorem addSat_addSat (c m n : Nat) : addSat (addSat c m) n = addSat c (m + n) := by
  change min (min (c + m) maxU64 + n) maxU64 = min (c + (m + n)) maxU64
  omega

/-- Counts added together: each key takes all that is added at it. -/
theorem Counts.countAt_mergeCounts {c : Counts} (d : Counts) {key : Nat × Nat × TallyCtr} (h : c.countAt key ≤ maxU64) :
    (mergeCounts c d).countAt key = addSat (c.countAt key) (d.total key) := by
  induction d generalizing c with
  | nil => exact (Nat.min_eq_left h).symm
  | cons p d ih =>
    obtain ⟨k, n⟩ := p
    have hstep : mergeCounts c ((k, n) :: d) = mergeCounts (assocSet k (addSat (c.countAt k) n) c) d := rfl
    have hat := Counts.countAt_assocSet c k key (addSat (c.countAt k) n)
    rw [hstep, Counts.total_cons]
    by_cases hk : k = key
    · subst hk
      rw [if_pos rfl] at hat ⊢
      have hle : addSat (c.countAt k) n ≤ maxU64 := Nat.min_le_right ..
      rw [ih (Nat.le_trans (Nat.le_of_eq hat) hle), hat, addSat_addSat]
    · rw [if_neg hk] at hat ⊢
      rw [ih (Nat.le_trans (Nat.le_of_eq hat) h), hat, Nat.zero_add]

theorem TallyBank.release_get {t : TallyBank} (c : Counts) {tag fmt : Nat} {k : TallyCtr} (h : t.get tag fmt k ≤ maxU64) :
    (t.release c).get tag fmt k = addSat (t.get tag fmt k) (c.total (tag, fmt, k)) := Counts.countAt_mergeCounts c h

@[simp] theorem TallyBank.foldMax_counts (t : TallyBank) (tag : Nat) (v : F32) : (t.foldMax tag v).counts = t.counts := rfl

@[simp] theorem TallyBank.layerUp_counts (t : TallyBank) (layer : Nat) (c : LayerCtr) (k : Nat) : (t.layerUp layer c k).counts = t.counts := by
  unfold TallyBank.layerUp
  split <;> rfl

/-- A fold of updates that keep a bank's counts keeps them. -/
theorem TallyBank.foldl_counts {α : Type} {f : TallyBank → α → TallyBank} (hf : ∀ t x, (f t x).counts = t.counts) (l : List α) (t : TallyBank) :
    (l.foldl f t).counts = t.counts := by
  induction l generalizing t with
  | nil => rfl
  | cons x l ih => exact (ih _).trans (hf t x)

/-- Of a bank's counters, a merge is the release of the other bank's counts. -/
theorem TallyBank.merge_counts (t u : TallyBank) : (t.merge u).counts = (t.release u.counts).counts := by
  have hmax (t : TallyBank) : (u.maxAbs.foldl (fun t (tag, v) => t.foldMax tag v) t).counts = t.counts :=
    TallyBank.foldl_counts (fun t x => t.foldMax_counts x.1 x.2) u.maxAbs t
  have hlayers (t : TallyBank) : (u.layers.foldl (fun t ((l, c), k) => t.layerUp l c k) t).counts = t.counts :=
    TallyBank.foldl_counts (fun t x => t.layerUp_counts x.1.1 x.1.2 x.2) u.layers t
  exact (hlayers _).trans (hmax _)

theorem TallyBank.merge_get (t u : TallyBank) (tag fmt : Nat) (k : TallyCtr) : (t.merge u).get tag fmt k = (t.release u.counts).get tag fmt k := by
  rw [TallyBank.get_eq, TallyBank.merge_counts, TallyBank.get_eq]

/-- Settles O51: a merge adds the other bank's counts as a release does, and a release stops at 2^64 - 1 at each key. -/
theorem tallyCountersStop : Obligations.TallyCountersStop := by
  intro t u c tag fmt k h
  have hrel (d : Counts) : (t.release d).get tag fmt k = Nat.min (t.get tag fmt k + d.total (tag, fmt, k)) (2 ^ 64 - 1) := TallyBank.release_get d h
  have hgrows (d : Counts) : t.get tag fmt k ≤ (t.release d).get tag fmt k := (hrel d).symm ▸ Nat.le_min.mpr ⟨Nat.le_add_right .., h⟩
  have hstops (d : Counts) : (t.release d).get tag fmt k ≤ 2 ^ 64 - 1 := (hrel d).symm ▸ Nat.min_le_right ..
  have hmerge := TallyBank.merge_get t u tag fmt k
  exact ⟨hrel c, hmerge.trans (hrel u.counts), hgrows c, hstops c, hmerge ▸ hgrows u.counts, hmerge ▸ hstops u.counts⟩

end Sys2Proof.Machine

/-! A guard descriptor and its STEP fields (O14). -/
namespace Sys2Proof.Machine

/-! Bits of a field -/

/-- Two numbers have one field in common exactly when they have its bits in common. -/
theorem bitsOf_eq_iff {v w hi lo : Nat} : bitsOf v hi lo = bitsOf w hi lo ↔ ∀ i, lo ≤ i → i ≤ hi → v.testBit i = w.testBit i := by
  unfold bitsOf
  constructor
  · intro h i hlo hhi
    have hbit := congrArg (Nat.testBit · (i - lo)) h
    simpa [Nat.testBit_mod_two_pow, Nat.testBit_shiftRight, Nat.add_sub_cancel' hlo, show i - lo < hi + 1 - lo by omega] using hbit
  · intro h
    apply Nat.eq_of_testBit_eq
    intro i
    simp only [Nat.testBit_mod_two_pow, Nat.testBit_shiftRight]
    by_cases hi' : i < hi + 1 - lo
    · rw [h (lo + i) (by omega) (by omega)]
    · simp [hi']

theorem testBit_bitsOf {hi lo i : Nat} (hlo : lo ≤ i) (hhi : i ≤ hi) (v : Nat) : (bitsOf v hi lo).testBit (i - lo) = v.testBit i := by
  simp [bitsOf, Nat.testBit_mod_two_pow, Nat.testBit_shiftRight, Nat.add_sub_cancel' hlo, show i - lo < hi + 1 - lo by omega]

/-- The bits of a number whose field was written: those of the field from the new value, the others its own (R10). -/
theorem testBit_putBits {hi lo : Nat} (h : lo ≤ hi) (v x i : Nat) :
    (putBits v hi lo x).testBit i = if lo ≤ i ∧ i ≤ hi then x.testBit (i - lo) else v.testBit i := by
  have hlow : v % 2 ^ lo < 2 ^ lo := Nat.mod_lt _ (Nat.two_pow_pos lo)
  have hmid : (x % 2 ^ (hi + 1 - lo)) <<< lo + v % 2 ^ lo < 2 ^ (hi + 1) := by
    have hx : x % 2 ^ (hi + 1 - lo) < 2 ^ (hi + 1 - lo) := Nat.mod_lt _ (Nat.two_pow_pos _)
    calc (x % 2 ^ (hi + 1 - lo)) <<< lo + v % 2 ^ lo
      _ < (x % 2 ^ (hi + 1 - lo) + 1) * 2 ^ lo := by rw [Nat.shiftLeft_eq, Nat.succ_mul]; exact Nat.add_lt_add_left hlow _
      _ ≤ 2 ^ (hi + 1 - lo) * 2 ^ lo := Nat.mul_le_mul_right _ hx
      _ = 2 ^ (hi + 1) := by rw [← Nat.pow_add, Nat.sub_add_cancel (by omega)]
  rw [putBits, Nat.add_assoc, Nat.shiftLeft_add_eq_or_of_lt hmid, Nat.shiftLeft_add_eq_or_of_lt hlow]
  simp only [Nat.testBit_or, Nat.testBit_shiftLeft, Nat.testBit_shiftRight, Nat.testBit_mod_two_pow]
  by_cases h1 : i < lo
  · simp [h1, show ¬ lo ≤ i by omega, show ¬ hi + 1 ≤ i by omega]
  · by_cases h2 : i ≤ hi
    · simp [h1, h2, show lo ≤ i by omega, show ¬ hi + 1 ≤ i by omega, show i - lo < hi + 1 - lo by omega]
    · simp [h1, h2, show hi + 1 ≤ i by omega, show ¬ i - lo < hi + 1 - lo by omega]

theorem getLsbD_setFld {n hi lo i : Nat} (h : lo ≤ hi) (hi' : i < n) (v : BitVec n) (x : Nat) :
    (setFld v hi lo x).getLsbD i = if lo ≤ i ∧ i ≤ hi then x.testBit (i - lo) else v.getLsbD i := by
  rw [setFld, BitVec.getLsbD_ofNat, testBit_putBits h, decide_eq_true hi', Bool.true_and]
  rfl

/-! Fields of a register written together -/

/-- A register whose fields `fs` take their value in `new`. -/
def setFields {n : Nat} (new : Nat) (fs : List DField) (d : BitVec n) : BitVec n := fs.foldl (fun d f => setFld d f.hi f.lo (bitsOf new f.hi f.lo)) d

/-- A bit of a register whose fields were written: from the payload where a written field covers it, else its own. -/
theorem getLsbD_setFields {n new i : Nat} {fs : List DField} (hfs : ∀ f ∈ fs, f.lo ≤ f.hi) (hi' : i < n) (d : BitVec n) :
    (setFields new fs d).getLsbD i = if ∃ f ∈ fs, f.lo ≤ i ∧ i ≤ f.hi then new.testBit i else d.getLsbD i := by
  induction fs generalizing d with
  | nil => simp [setFields]
  | cons f fs ih =>
    have hstep : setFields new (f :: fs) d = setFields new fs (setFld d f.hi f.lo (bitsOf new f.hi f.lo)) := rfl
    rw [hstep, ih (fun g hg => hfs g (List.mem_cons_of_mem f hg)), getLsbD_setFld (hfs f List.mem_cons_self) hi']
    by_cases hf : f.lo ≤ i ∧ i ≤ f.hi
    · simp [hf, testBit_bitsOf hf.1 hf.2]
    · simp [hf]

/-- A field that no written field touches keeps its value. -/
theorem fld_setFields_of_apart {n new hi lo : Nat} {fs : List DField} (hfs : ∀ f ∈ fs, f.lo ≤ f.hi) (hn : hi < n)
    (hapart : ∀ f ∈ fs, hi < f.lo ∨ f.hi < lo) (d : BitVec n) : fld (setFields new fs d) hi lo = fld d hi lo := by
  refine bitsOf_eq_iff.mpr fun i hlo hhi => ?_
  refine (getLsbD_setFields hfs (by omega) d).trans (if_neg ?_)
  rintro ⟨f, hf, hcover⟩
  have := hapart f hf
  omega

/-- A field that is written, or that has its value in the payload already, ends with its value in the payload. -/
theorem fld_setFields {n new hi lo : Nat} {fs : List DField} {d : BitVec n} (hfs : ∀ f ∈ fs, f.lo ≤ f.hi) (hn : hi < n)
    (hfield : (∃ f ∈ fs, f.hi = hi ∧ f.lo = lo) ∨ bitsOf new hi lo = fld d hi lo) : fld (setFields new fs d) hi lo = bitsOf new hi lo := by
  refine bitsOf_eq_iff.mpr fun i hlo hhi => ?_
  refine (getLsbD_setFields hfs (by omega) d).trans ?_
  split
  case isTrue => rfl
  case isFalse hfree =>
    obtain ⟨f, hf, rfl, rfl⟩ | hsame := hfield
    · exact absurd ⟨f, hf, hlo, hhi⟩ hfree
    · exact (bitsOf_eq_iff.mp hsame i hlo hhi).symm

/-! A guard descriptor applied (R438) -/

/-- The fields that a payload writes while no shadow is held: those that differ, and set bits of RW1C fields. -/
theorem Block.mem_written {b : Block} (h : b.path.shadows = []) {kind index old new : Nat} {f : DField} (hf : f.w1c = false) :
    f ∈ b.written kind index old new ↔ f ∈ descFields kind ∧ bitsOf new f.hi f.lo ≠ bitsOf old f.hi f.lo := by
  simp [Block.written, Block.shadowOf, h, hf]

theorem modAt_const {α : Type} (i : Nat) (a : α) (l : List α) : modAt i (fun _ => a) l = l.set i a := by
  induction l generalizing i with
  | nil => cases i <;> rfl
  | cons x l ih =>
    cases i with
    | zero => rfl
    | succ j => exact congrArg (x :: ·) (ih j)

/-- A block whose guard descriptor of an index is replaced. -/
def Block.setGuard (b : Block) (index : Nat) (d : BitVec 64) : Block := { b with desc := { b.desc with guard := b.desc.guard.set index d } }

@[simp] theorem Block.setGuard_guard (b : Block) (index : Nat) (d : BitVec 64) : (b.setGuard index d).desc.guard = b.desc.guard.set index d := rfl

theorem Block.setGuard_same {b : Block} {index : Nat} {d : BitVec 64} (h : b.desc.guard[index]? = some d) : b.setGuard index d = b := by
  obtain ⟨hlt, rfl⟩ := List.getElem?_eq_some_iff.mp h
  rw [Block.setGuard, List.set_getElem_self]

theorem Block.setGuard_setGuard (b : Block) (index : Nat) (d e : BitVec 64) : (b.setGuard index d).setGuard index e = b.setGuard index e := by
  rw [Block.setGuard, Block.setGuard_guard, List.set_set]
  rfl

theorem Block.setDesc_guard (b : Block) (index v : Nat) : b.setDesc 0x02 index v = b.setGuard index (BitVec.ofNat 64 v) := by
  rw [Block.setGuard, ← modAt_const]
  rfl

/-- One field of a guard descriptor applied: the descriptor takes it, and nothing follows. -/
theorem State.applyField_guard {s : State} {index : Nat} {d : BitVec 64} (h : s.m.desc.guard[index]? = some d) (hi lo v : Nat) :
    s.applyField 0x02 index hi lo v false = s.on (·.setGuard index (setFld d hi lo v)) := by
  have hget : s.m.getDesc 0x02 index = some d.toNat := congrArg (Option.map BitVec.toNat) h
  rw [State.applyField, hget]
  exact congrArg (fun b => { s with m := b }) (s.m.setDesc_guard index (putBits d.toNat hi lo v))

/-- Fields of a guard descriptor applied one after another: the descriptor takes them all, and nothing else changes. -/
theorem State.applyNow_guard {s : State} {index : Nat} {d : BitVec 64} (h : s.m.desc.guard[index]? = some d) (new : Nat) {fs : List DField} (hfs : ∀ f ∈ fs, f.w1c = false) :
    s.applyNow 0x02 index new fs = s.on (·.setGuard index (setFields new fs d)) := by
  induction fs generalizing s d with
  | nil => exact congrArg (fun b => { s with m := b }) (Block.setGuard_same h).symm
  | cons f fs ih =>
    have hone := State.applyField_guard h f.hi f.lo (bitsOf new f.hi f.lo)
    have hrest : s.applyNow 0x02 index new (f :: fs) = (s.applyField 0x02 index f.hi f.lo (bitsOf new f.hi f.lo) f.w1c).applyNow 0x02 index new fs := rfl
    have hnext : (s.on (·.setGuard index (setFld d f.hi f.lo (bitsOf new f.hi f.lo)))).m.desc.guard[index]? = some (setFld d f.hi f.lo (bitsOf new f.hi f.lo)) := by
      simp [(List.getElem?_eq_some_iff.mp h).1]
    rw [hrest, hfs f List.mem_cons_self, hone, ih hnext (fun g hg => hfs g (List.mem_cons_of_mem f hg))]
    exact congrArg (fun b => { s with m := b }) (Block.setGuard_setGuard ..)

/-- The STEP fields of a guard descriptor: OWL_HIGH, OWL_LOW, EXTRA_HEADROOM and OWL_EN (R230). -/
def guardSteps : List (Nat × Nat) := [(63, 48), (47, 32), (15, 12), (7, 7)]

theorem mem_guardSteps_of_step : ∀ f ∈ descFields 0x02, f.cls = .step → f.w1c = false ∧ (f.hi, f.lo) ∈ guardSteps := by decide

theorem mem_descFields_guard_of_step : ∀ p ∈ guardSteps, ({ hi := p.1, lo := p.2, cls := .step } : DField) ∈ descFields 0x02 := by decide

theorem guardSteps_bits : ∀ p ∈ guardSteps, p.2 ≤ p.1 ∧ p.1 < 64 := by decide

/-- The bits of a guard descriptor outside its STEP fields: reserved ones, and the IDLE fields PINNED and POLICY in [6:0] (R230). -/
def guardOthers : List (Nat × Nat) := [(31, 16), (11, 8), (6, 0)]

theorem guardOthers_lt : ∀ r ∈ guardOthers, r.1 < 64 := by decide

theorem guardOthers_apart : ∀ r ∈ guardOthers, ∀ p ∈ guardSteps, r.1 < p.2 ∨ p.1 < r.2 := by decide

/-- Settles O14: a STEP field not in `fs` has its value in the payload already, and no field in `fs` touches another bit. -/
theorem guardDescriptorWrites : Obligations.GuardDescriptorWrites := by
  intro s index old new fs hold hfs hstep hshadow
  have hmem {f : DField} (hf : f ∈ fs) : f.w1c = false ∧ (f.hi, f.lo) ∈ guardSteps :=
    mem_guardSteps_of_step f ((List.mem_filter.mp (hfs ▸ hf)).1) (hstep f hf)
  have hordered (f : DField) (hf : f ∈ fs) : f.lo ≤ f.hi := (guardSteps_bits _ (hmem hf).2).1
  have hnow := State.applyNow_guard hold new (fun f hf => (hmem hf).1)
  have htakes : ∀ p ∈ guardSteps, fld (setFields new fs old) p.1 p.2 = bitsOf new p.1 p.2 := by
    intro p hp
    refine fld_setFields hordered (guardSteps_bits p hp).2 ?_
    by_cases hsame : bitsOf new p.1 p.2 = bitsOf old.toNat p.1 p.2
    · exact .inr hsame
    · exact .inl ⟨_, hfs ▸ (Block.mem_written hshadow rfl).mpr ⟨mem_descFields_guard_of_step p hp, hsame⟩, rfl, rfl⟩
  have hkeeps : ∀ r ∈ guardOthers, fld (setFields new fs old) r.1 r.2 = fld old r.1 r.2 := fun r hr =>
    fld_setFields_of_apart hordered (guardOthers_lt r hr) (fun f hf => guardOthers_apart r hr _ (hmem hf).2) old
  have hself : (s.m.desc.guard.set index (setFields new fs old))[index]? = some (setFields new fs old) :=
    List.getElem?_set_self (List.getElem?_eq_some_iff.mp hold).1
  rw [hnow]
  exact ⟨_, hself, htakes, hkeeps (31, 16) (by decide), hkeeps (11, 8) (by decide), hkeeps (6, 0) (by decide), fun j hj => List.getElem?_set_ne hj.symm, rfl⟩

end Sys2Proof.Machine

/-! What every command keeps (O4): the queue as it is, and the memories in canonical form. -/
namespace Sys2Proof.Machine

/-- Where an outcome is a next state, it keeps what a step keeps. -/
structure NextKeeps (s : State) (o : Host.Outcome State Fault Refusal) : Prop where
  keeps : ∀ t, o = .next t → s.Keeps t

theorem nextKeeps_next {s t : State} (h : s.Keeps t) : NextKeeps s (.next t) := ⟨fun _ e => Host.Outcome.next.inj e ▸ h⟩

theorem nextKeeps_ite {s : State} {c : Prop} [Decidable c] {a b : Host.Outcome State Fault Refusal} (ha : NextKeeps s a) (hb : NextKeeps s b) : NextKeeps s (if c then a else b) := by
  split
  · exact ha
  · exact hb

/-- A condition turns the command away in a state that keeps, or it goes on. -/
theorem nextKeeps_guard {s t : State} {c : Prop} [Decidable c] {o : Host.Outcome State Fault Refusal} (ht : s.Keeps t) (ho : NextKeeps s o) :
    NextKeeps s (if c then .next t else o) := nextKeeps_ite (nextKeeps_next ht) ho

theorem nextKeeps_either {s t u : State} {c : Prop} [Decidable c] (ht : s.Keeps t) (hu : s.Keeps u) : NextKeeps s (if c then .next t else .next u) :=
  nextKeeps_guard ht (nextKeeps_next hu)

/-- The clock moves on, and the block with it. -/
theorem State.keeps_on (s : State) (f : Block → Block) : s.Keeps (s.on f) := State.on_keeps (State.Keeps.refl s)

/-- A command that changes the block alone, at its time. -/
theorem nextKeeps_atTime (s : State) (t : Nat) (f : Block → Block) : NextKeeps s (.next (atTime t f s)) := nextKeeps_next (State.keeps_on s _)

/-- A host command keeps what its effect keeps, from the state in which it is accepted. -/
theorem nextKeeps_host {s : State} (h : Hdr) (op : Nat) (f : State → State) (hf : ∀ u, s.Keeps u → s.Keeps (f u)) : NextKeeps s (.next (s.host h op f)) :=
  nextKeeps_next (State.host_keeps h op f (State.Keeps.refl s) hf)

/-- A packet row. -/
theorem nextKeeps_packetRow (s : State) (t port : Nat) (p : Pkt) (adderOk mine : Bool) : NextKeeps s (.next (packetRow t port p adderOk mine s)) :=
  nextKeeps_next (packetRow_keeps t port p adderOk mine (State.Keeps.refl s))

/-- The part of a command that comes after its accesses (R306) keeps what an operation that goes on keeps. -/
theorem State.accessed_then_keeps {r s : State} {c i : Nat} {acc : Access} {f g : State → State} (hk : r.Keeps s) (hf : ∀ u, r.Keeps u → r.Keeps (f u))
    (hg : ∀ u, r.Keeps u → r.Keeps (g u)) : r.Keeps (if (s.accessed c i acc).2 then f (s.accessed c i acc).1 else g (s.accessed c i acc).1) :=
  State.ite_keeps (hf _ (State.accessed_keeps c i acc hk)) (hg _ (State.accessed_keeps c i acc hk))

/-! Arms with more than one look-up or more than one condition -/

section
variable {s : State}

theorem execCacheFlushDone_keeps (t slot tries : Nat) : NextKeeps s (execCacheFlushDone t slot tries s) := by
  have hu : s.Keeps (s.on (·.advanceTo t)) := State.keeps_on s _
  unfold execCacheFlushDone
  extract_lets u
  split
  · exact nextKeeps_next hu
  · refine nextKeeps_guard hu (nextKeeps_either (State.tierErr_keeps _ (State.on_keeps hu)) ?_)
    have hw {a : Nat} {bs : List Byte} {post : Bool} : s.Keeps ((u.on (·.bump .retries tries)).devWrite a bs none post) := State.devWrite_keeps (hk := State.on_keeps hu) ..
    exact State.ite_keeps hw (State.on_keeps hw)

theorem execLaneLossOfLock_keeps (t port : Nat) (lanes : List Nat) : NextKeeps s (execLaneLossOfLock t port lanes s) := by
  have hu {f : Block → Block} : s.Keeps ((s.on (·.advanceTo t)).on f) := State.on_keeps (State.keeps_on s _)
  refine nextKeeps_guard (State.keeps_on s _) (nextKeeps_guard (State.dieLanesFail_keeps _ _ hu) ?_)
  split
  · exact nextKeeps_next hu
  · exact nextKeeps_next (State.physicalFails_keeps _ _ hu)
  · exact nextKeeps_next (State.failPortAll_keeps _ hu)

theorem execPageCopied_keeps (t page tries : Nat) : NextKeeps s (execPageCopied t page tries s) := by
  have hu : s.Keeps (s.on (·.advanceTo t)) := State.keeps_on s _
  unfold execPageCopied
  extract_lets
  split
  · refine nextKeeps_guard hu (nextKeeps_either (State.copyFails_keeps _ hu) ?_)
    exact State.on_keeps (State.releaseWrites_keeps (State.sealImage_keeps (State.on_keeps (State.appendImage_keeps _ (State.on_keeps (State.on_keeps hu))))))
  · exact nextKeeps_next hu

theorem execLaneRun_keeps (croft : Nat) (acc : Access) : NextKeeps s (execLaneRun croft acc s) := by
  have hs := State.Keeps.refl s
  unfold execLaneRun
  split
  · refine nextKeeps_guard (State.reject_keeps _ _ hs) (nextKeeps_guard hs (nextKeeps_either (State.stopCroft_keeps _ _ _ (State.on_keeps hs)) ?_))
    exact State.accessed_then_keeps (State.on_keeps hs) (fun _ => State.startLane_keeps _ _ _) (fun _ h => h)
  · exact nextKeeps_next (State.on_keeps hs)

theorem execEndProgram_keeps (croft : Nat) : NextKeeps s (execEndProgram croft s) := by
  have hs := State.Keeps.refl s
  unfold execEndProgram
  split
  · exact nextKeeps_next hs
  · refine nextKeeps_guard hs (nextKeeps_ite ?_ (nextKeeps_guard ?_ (nextKeeps_ite (nextKeeps_next ?_) (nextKeeps_next ?_))))
    · split
      · exact nextKeeps_next (State.on_keeps hs)
      · exact nextKeeps_next hs
    · exact State.opDone_keeps _ _ (State.finishUpdate_keeps _ _ _ (State.on_keeps hs))
    · have hc {f : Block → Block} {l : LaneRun} {op : BitVec 512} {t : Tensor} : s.Keeps ((s.on f).storeCache croft l op t).1 := State.storeCache_keeps _ _ _ _ (State.on_keeps hs)
      exact State.ite_keeps (State.opDone_keeps _ _ hc) (State.on_keeps hc)
    · exact State.opDone_keeps _ _ (State.lanePatch_keeps (hk := State.laneQuant_keeps (hk := State.on_keeps hs) ..) ..)

theorem execSquirrelMoveStart_keeps (t : Nat) (queue : MoveStart) : NextKeeps s (execSquirrelMoveStart t queue s) := by
  have hu : s.Keeps (s.on (·.advanceTo t)) := State.keeps_on s _
  unfold execSquirrelMoveStart
  extract_lets
  split
  · exact nextKeeps_next hu
  · refine nextKeeps_guard hu (nextKeeps_next ?_)
    exact State.accessed_then_keeps (State.on_keeps hu) (fun _ h => State.on_keeps (State.copyMove_keeps _ _ h)) (fun _ h => State.on_keeps h)

theorem execMoveTilesWritten_keeps (t croft i : Nat) : NextKeeps s (execMoveTilesWritten t croft i s) := by
  have hu : s.Keeps (s.on (·.advanceTo t)) := State.keeps_on s _
  unfold execMoveTilesWritten
  extract_lets
  split
  · refine nextKeeps_guard hu ?_
    split
    · exact nextKeeps_next (State.ioFailed_keeps _ _ _ (State.on_keeps hu))
    · exact nextKeeps_next (State.moveDone_keeps _ _ hu)
  · exact nextKeeps_next hu

theorem execPageMigrationSwitch_keeps (t page tries : Nat) : NextKeeps s (execPageMigrationSwitch t page tries s) := by
  have hu : s.Keeps (s.on (·.advanceTo t)) := State.keeps_on s _
  unfold execPageMigrationSwitch
  extract_lets
  split
  · split
    · exact nextKeeps_next hu
    · refine nextKeeps_either hu (State.ite_keeps (State.pageUnread_keeps _ hu) ?_)
      exact State.on_keeps (State.pageSettled_keeps _ (State.releaseWrites_keeps (State.switchPage_keeps _ _ (State.on_keeps hu))))
  · exact nextKeeps_next hu

theorem execCompletionTimeout_keeps (t croft : Nat) : NextKeeps s (execCompletionTimeout t croft s) := by
  have hu : s.Keeps (s.on (·.advanceTo t)) := State.keeps_on s _
  unfold execCompletionTimeout
  extract_lets
  split
  · exact nextKeeps_next hu
  · refine nextKeeps_guard (State.on_keeps hu) (nextKeeps_either (State.migrateFailed_keeps _ (State.on_keeps (State.on_keeps hu))) (State.tierStop_keeps _ _ _ ?_))
    have hv {f g h : Block → Block} : s.Keeps ((((s.on (·.advanceTo t)).on f).on g).on h) := State.on_keeps (State.on_keeps (State.on_keeps hu))
    exact State.ite_keeps hv (State.on_keeps (State.releaseWrites_keeps hv))

theorem execScrub_keeps (t tier frame : Nat) (found : ScrubResult) (pass : Bool) : NextKeeps s (execScrub t tier frame found pass s) := by
  have hu {f : Block → Block} : s.Keeps (s.on f) := State.keeps_on s _
  unfold execScrub
  extract_lets
  split
  · exact nextKeeps_next hu
  · exact nextKeeps_next (State.on_keeps hu)
  · refine nextKeeps_guard (State.scrubStore_keeps _ _ hu) (nextKeeps_guard (State.on_keeps hu) ?_)
    split <;> exact nextKeeps_next (State.tierErr_keeps _ (State.on_keeps hu))

theorem execMillDeadline_keeps (t group slice mb part level : Nat) (adderOk : Bool) : NextKeeps s (execMillDeadline t group slice mb part level adderOk s) := by
  have hu : s.Keeps (s.on (·.advanceTo t)) := State.keeps_on s _
  unfold execMillDeadline
  extract_lets
  split
  · exact nextKeeps_next hu
  · split
    · refine nextKeeps_guard hu ?_
      split
      · exact nextKeeps_either hu (State.takeOperand_keeps _ _ (State.on_keeps hu))
      · exact nextKeeps_next (State.on_keeps hu)
    · exact nextKeeps_next hu

theorem execE2eRetransmit_keeps (t : Nat) (flow : FlowKey) (seq : BitVec 16) : NextKeeps s (execE2eRetransmit t flow seq s) := by
  have hu : s.Keeps (s.on (·.advanceTo t)) := State.keeps_on s _
  unfold execE2eRetransmit
  extract_lets
  split
  · exact nextKeeps_next hu
  · refine nextKeeps_guard hu (nextKeeps_either (State.on_keeps hu) (State.raiseErr_keeps _ ?_))
    exact State.ite_keeps (State.abandonImage_keeps _ (State.on_keeps hu)) (State.on_keeps hu)

theorem execHandlerTake_keeps (t : Nat) (failed : Bool) : NextKeeps s (execHandlerTake t failed s) := by
  have hd : s.Keeps (s.on (·.advanceTo t)).drainLog := State.drainLog_keeps (State.keeps_on s _)
  have hq := State.takeQueued_keeps 17 (State.foldl_keeps (xs := (s.on (·.advanceTo t)).drainLog.m.faults.arrived) (f := fun s e => s.letIn e)
    (State.on_keeps (f := fun b => { b with faults := { b.faults with arrived := [] } }) hd) fun u e hu => State.letIn_keeps e hu)
  exact nextKeeps_next (State.ite_keeps (State.handlerFails_keeps _ hq) hq)

theorem execResetTimeout_keeps (t : Nat) : NextKeeps s (execResetTimeout t s) := by
  have hu : s.Keeps (s.on (·.advanceTo t)) := State.keeps_on s _
  unfold execResetTimeout
  extract_lets
  split
  · exact nextKeeps_next hu
  · split
    · exact nextKeeps_next hu
    · exact nextKeeps_either hu (State.escalate_keeps _ _ (State.on_keeps hu))

theorem execResetComplete_keeps (t : Nat) (failing : List Nat) : NextKeeps s (execResetComplete t failing s) := by
  have hu : s.Keeps (s.on (·.advanceTo t)) := State.keeps_on s _
  unfold execResetComplete
  extract_lets
  split
  · exact nextKeeps_next hu
  · refine nextKeeps_guard hu (nextKeeps_either (State.abortSettle_keeps (State.resetsTooMany_keeps _ _ (State.cross_keeps (State.on_keeps hu)))) ?_)
    refine State.abortSettle_keeps (State.cross_keeps (State.on_keeps ?_))
    have hf {xs : List Nat} {f : Block → Block} : s.Keeps (xs.foldl (fun s n => s.settleSuspect n (!failing.contains n)) ((s.on (·.advanceTo t)).on f).cross) :=
      State.foldl_keeps (State.cross_keeps (State.on_keeps hu)) fun _ _ h => State.settleSuspect_keeps _ _ h
    split
    · exact hf
    · exact State.on_keeps hf

theorem execSelfTestSlot_keeps (t slot : Nat) (passed released diagnosticOk : Bool) : NextKeeps s (execSelfTestSlot t slot passed released diagnosticOk s) := by
  have hu : s.Keeps (s.on (·.advanceTo t)) := State.keeps_on s _
  refine nextKeeps_guard hu (nextKeeps_guard (State.ite_keeps hu (State.sp0Fails_keeps hu)) (nextKeeps_guard hu (nextKeeps_guard ?_ (nextKeeps_either ?_ hu))))
  · exact State.activeSlot_keeps _ _ _ _ hu
  · exact State.spareSlotTest_keeps _ _ hu

theorem execMonitorReturn_keeps (t : Nat) (src : MonSource) : NextKeeps s (execMonitorReturn t src s) := by
  have hu : s.Keeps (s.on (·.advanceTo t)) := State.keeps_on s _
  unfold execMonitorReturn
  extract_lets
  split
  · exact nextKeeps_next hu
  · refine nextKeeps_guard hu ?_
    split <;> exact nextKeeps_next (State.raiseErr_keeps _ (State.on_keeps hu))

theorem execMonitorTrip_keeps (t : Nat) (src : MonSource) : NextKeeps s (execMonitorTrip t src s) := by
  have hu : s.Keeps (s.on (·.advanceTo t)) := State.keeps_on s _
  unfold execMonitorTrip
  extract_lets
  split
  · exact nextKeeps_next hu
  · refine nextKeeps_guard hu ?_
    split <;> exact nextKeeps_next (State.raiseErr_keeps _ (State.on_keeps hu))

theorem execTelemetrySample_keeps (t inputW : Nat) : NextKeeps s (execTelemetrySample t inputW s) := by
  have hu : s.Keeps (s.on (·.advanceTo t)) := State.keeps_on s _
  have hv := State.ite_keeps (c := (s.on (·.advanceTo t)).m.clk.own % 1000000 == 0) (State.on_keeps (f := (·.sampleLife inputW)) hu) hu
  refine nextKeeps_guard hu (nextKeeps_either hv (State.foldl_keeps hv fun u n h => ?_))
  refine State.ite_keeps ?_ h
  split
  · exact State.trace_keeps _ _ _ h
  · exact h

/-- Without standby power nothing is left but host memory. -/
theorem execStandbyPowerLoss_keeps (t : Nat) : NextKeeps s (execStandbyPowerLoss t s) := by
  refine nextKeeps_next ⟨rfl, fun hw => ?_⟩
  simp only [State.wf, Memory.wf, Bool.and_eq_true] at hw ⊢
  exact ⟨⟨rfl, hw.1.2⟩, rfl⟩

theorem execStartupSelfTest_keeps (t : Nat) (r : SelfTestResult) : NextKeeps s (execStartupSelfTest t r s) := by
  have hu : s.Keeps (s.on (·.advanceTo t)) := State.keeps_on s _
  have hl {f : Block → Block} {c : Prop} [Decidable c] : s.Keeps (r.failedLanes.foldl (fun s x => s.laneFails x.1 x.2)
      (if c then (s.on (·.advanceTo t)).on f else ((s.on (·.advanceTo t)).on f).sp0Fails)) :=
    State.foldl_keeps (State.ite_keeps (State.on_keeps hu) (State.sp0Fails_keeps (State.on_keeps hu))) fun u x h => State.laneFails_keeps _ _ h
  exact nextKeeps_guard hu (nextKeeps_guard (State.enterOos_keeps _ hl) (nextKeeps_either (State.enterOos_keeps _ hl) (State.on_keeps hl)))

theorem execVectorTimeout_keeps (t vectorId croft : Nat) : NextKeeps s (execVectorTimeout t vectorId croft s) := by
  have hu : s.Keeps (s.on (·.advanceTo t)) := State.keeps_on s _
  unfold execVectorTimeout
  extract_lets
  split
  · exact nextKeeps_next hu
  · split
    · exact nextKeeps_next (State.ite_keeps (State.endCheck_keeps _ (State.on_keeps hu)) (State.on_keeps hu))
    · exact nextKeeps_next hu

theorem execPayloadReadDone_keeps (t ring : Nat) (tag : BitVec 16) (tries : Nat) : NextKeeps s (execPayloadReadDone t ring tag tries s) := by
  have hu : s.Keeps (s.on (·.advanceTo t)) := State.keeps_on s _
  unfold execPayloadReadDone
  extract_lets
  split
  · exact nextKeeps_next hu
  · exact nextKeeps_either (State.on_keeps hu) (State.on_keeps (State.complete_keeps _ _ (State.on_keeps hu)))

theorem execImageRegionWriteDone_keeps (t : Nat) (ok : Bool) : NextKeeps s (execImageRegionWriteDone t ok s) := by
  have hu : s.Keeps (s.on (·.advanceTo t)) := State.keeps_on s _
  unfold execImageRegionWriteDone
  extract_lets
  split
  · exact nextKeeps_next hu
  · exact nextKeeps_either (State.endWait_keeps (hk := State.on_keeps hu) ..) (State.on_keeps (State.endWait_keeps (hk := State.on_keeps hu) ..))

theorem execInputReturn_keeps (t : Nat) (b : BootSense) : NextKeeps s (execInputReturn t b s) := by
  have hu : s.Keeps (s.on (·.advanceTo t)) := State.keeps_on s _
  have hd {f : Block → Block} {c : Prop} [Decidable c] : s.Keeps ((if c then (s.on (·.advanceTo t)).powerDown else s.on (·.advanceTo t)).on f) :=
    State.on_keeps (State.ite_keeps (State.powerDown_keeps hu) hu)
  exact nextKeeps_either hu (State.ite_keeps (State.moduleReset_keeps _ hd) (State.on_keeps hd))

theorem execPerstNAssert_keeps (t : Nat) : NextKeeps s (execPerstNAssert t s) := by
  have hu : s.Keeps (s.on (·.advanceTo t)) := State.keeps_on s _
  refine nextKeeps_either hu (State.on_keeps ?_)
  refine (fun hb => State.ite_keeps (State.powerDown_keeps hb) hb) ?_
  exact State.ite_keeps (State.raiseBell_keeps (hk := (⟨rfl, id⟩ : s.Keeps _)) ..) hu

theorem execThermalSensorRead_keeps (t : Nat) (r : Thermals) : NextKeeps s (execThermalSensorRead t r s) := by
  have hu : s.Keeps (s.on (·.advanceTo t)) := State.keeps_on s _
  refine nextKeeps_either hu ?_
  refine (fun hf => State.ite_keeps (State.shutdown_keeps hf) hf) ?_
  exact State.foldl_keeps (State.on_keeps hu) fun _ _ h => State.ite_keeps (State.failPortAll_keeps _ (State.on_keeps h)) h

/-! Host commands with more than one outcome -/

theorem execDigestRead_keeps (h : Hdr) (group : Nat) : NextKeeps s (execDigestRead h group s) := by
  refine nextKeeps_host h _ _ fun u hu => ?_
  split
  · exact State.bad_keeps _ _ _ hu
  · exact State.output_keeps (hk := hu) ..

theorem execFenceGroup_keeps (h : Hdr) (group fenceId timeoutUs : Nat) : NextKeeps s (execFenceGroup h group fenceId timeoutUs s) := by
  refine nextKeeps_host h _ _ fun u hu => ?_
  split
  · exact State.bad_keeps _ _ _ hu
  · exact State.ite_keeps (State.bad_keeps _ _ _ hu) (State.sendMarkers_keeps (State.await_keeps _ _ _ hu))

theorem execIdeKeyGo_keeps (h : Hdr) (streamId : Nat) (dir keySet enable : Bool) : NextKeeps s (execIdeKeyGo h streamId dir keySet enable s) :=
  nextKeeps_host h _ _ fun _ hu => State.ite_keeps (State.bad_keeps _ _ _ hu) (State.ite_keeps (State.finish_keeps (hk := hu) ..)
    (State.ite_keeps (State.bad_keeps _ _ _ hu) (State.finish_keeps (hk := State.on_keeps hu) ..)))

theorem execFwStage_keeps (h : Hdr) (offset : Nat) (payload : List Byte) : NextKeeps s (execFwStage h offset payload s) :=
  nextKeeps_host h _ _ fun _ hu => State.ite_keeps (State.finish_keeps (hk := hu) ..) (State.ite_keeps (State.bad_keeps _ _ _ hu) (State.ite_keeps (State.bad_keeps _ _ _ hu)
    (State.ite_keeps (State.bad_keeps _ _ _ hu) (State.finish_keeps (hk := State.on_keeps (State.on_keeps hu)) ..))))

theorem execFwCommit_keeps (h : Hdr) (n : Nat) : NextKeeps s (execFwCommit h n s) :=
  nextKeeps_host h _ _ fun _ hu => State.ite_keeps (State.finish_keeps (hk := hu) ..) (State.ite_keeps (State.finish_keeps (hk := hu) ..)
    (State.ite_keeps (State.bad_keeps _ _ _ hu) (State.ite_keeps (State.finish_keeps (hk := State.on_keeps hu) ..) (State.await_keeps _ _ _ (State.on_keeps hu)))))

theorem execSelfCheck_keeps (h : Hdr) (set croft : Nat) (result : CheckRun) : NextKeeps s (execSelfCheck h set croft result s) := by
  refine nextKeeps_host h _ _ fun u hu => ?_
  split
  · exact State.bad_keeps _ _ _ hu
  · exact State.await_keeps _ _ _ (State.on_keeps (State.foldl_keeps hu fun v e hv => State.millErr_keeps _ _ hv))

theorem execCopyIn_keeps (h : Hdr) (devAddr length : Nat) (payload : List Byte) (acc : Access) : NextKeeps s (execCopyIn h devAddr length payload acc s) := by
  refine nextKeeps_host h _ _ fun u hu => ?_
  dsimp -zeta only
  extract_lets
  refine State.ite_keeps (State.finish_keeps (hk := hu) ..) ?_
  split
  · exact State.bad_keeps _ _ _ hu
  · exact State.ite_keeps (State.await_keeps _ _ _ hu) (State.finish_keeps (hk := State.writeTiles_keeps _ _ _ (State.copyAccess_keeps _ _ _ hu)) ..)

theorem execCopyOut_keeps (h : Hdr) (devAddr length : Nat) (acc : Access) : NextKeeps s (execCopyOut h devAddr length acc s) := by
  refine nextKeeps_host h _ _ fun u hu => State.ite_keeps (State.finish_keeps (hk := hu) ..) ?_
  split
  · exact State.bad_keeps _ _ _ hu
  · have ha := State.copyAccess_keeps acc devAddr length hu
    exact State.ite_keeps (State.await_keeps _ _ _ hu) (State.ite_keeps (State.output_keeps (hk := ha) ..) (State.finish_keeps (hk := State.writeHost_keeps _ _ ha) ..))

theorem execParcelCreate_keeps (h : Hdr) (base pages home : Nat) (pin codec : Bool) : NextKeeps s (execParcelCreate h base pages home pin codec s) := by
  refine nextKeeps_host h _ _ fun u hu => ?_
  split
  · exact State.bad_keeps _ _ _ hu
  · have hm {f : Block → Block} : s.Keeps ((u.clearParcel base (65536 * pages)).on f) := State.on_keeps (State.clearParcel_keeps _ _ hu)
    exact State.ite_keeps (State.finish_keeps (hk := hu) ..)
      (State.finish_keeps (hk := State.ite_keeps (State.foldl_keeps hm fun v e hv => State.clearHost_keeps _ _ hv) hm) ..)

theorem execParcelFree_keeps (h : Hdr) (parcel : Nat) : NextKeeps s (execParcelFree h parcel s) := by
  refine nextKeeps_host h _ _ fun u hu => ?_
  split
  · exact State.bad_keeps _ _ _ hu
  · exact State.ite_keeps (State.finish_keeps (hk := hu) ..) (State.finish_keeps (hk := State.freeParcel_keeps _ hu) ..)

theorem execParcelQuery_keeps (h : Hdr) (parcel : Nat) : NextKeeps s (execParcelQuery h parcel s) := by
  refine nextKeeps_host h _ _ fun u hu => ?_
  split
  · exact State.bad_keeps _ _ _ hu
  · exact State.output_keeps (hk := hu) ..

theorem execParcelMigrate_keeps (h : Hdr) (parcel tier firstPage pages : Nat) : NextKeeps s (execParcelMigrate h parcel tier firstPage pages s) := by
  refine nextKeeps_host h _ _ fun u hu => ?_
  have hbad {n : Nat} : s.Keeps (u.bad h 0x0B n) := State.bad_keeps _ _ _ hu
  dsimp only
  split
  · exact hbad
  · exact State.ite_keeps hbad (State.ite_keeps hbad (State.ite_keeps hbad (State.ite_keeps hbad
      (State.ite_keeps (State.finish_keeps (hk := State.on_keeps (State.on_keeps hu)) ..) (State.await_keeps _ _ _ (State.on_keeps (State.on_keeps hu)))))))

theorem execLaneProgLoad_keeps (h : Hdr) (croft : Nat) (image : List Byte) : NextKeeps s (execLaneProgLoad h croft image s) := by
  refine nextKeeps_host h _ _ fun u hu => State.ite_keeps (State.finish_keeps (hk := hu) ..) (State.ite_keeps (State.bad_keeps _ _ _ hu) ?_)
  extract_lets
  split
  · exact State.bad_keeps _ _ _ hu
  · exact State.finish_keeps (hk := State.on_keeps hu) ..

theorem execFabricTableLoad_keeps (h : Hdr) (peers routes : Bool) (payload : List Byte) : NextKeeps s (execFabricTableLoad h peers routes payload s) := by
  refine nextKeeps_host h _ _ fun u hu => State.ite_keeps (State.finish_keeps (hk := hu) ..) ?_
  split
  · exact State.bad_keeps _ _ _ hu
  · split
    · exact State.bad_keeps _ _ _ hu
    · have hp {c : Prop} [Decidable c] {f : Block → Block} : s.Keeps (if c then u.on f else u) := State.ite_keeps (State.on_keeps hu) hu
      exact State.finish_keeps (hk := State.ite_keeps (State.on_keeps hp) hp) ..

theorem execGroupLoad_keeps (h : Hdr) (group : Nat) (payload : List Byte) : NextKeeps s (execGroupLoad h group payload s) := by
  refine nextKeeps_host h _ _ fun u hu => State.ite_keeps (State.finish_keeps (hk := hu) ..) (State.ite_keeps (State.bad_keeps _ _ _ hu) ?_)
  split
  · exact State.finish_keeps (hk := State.on_keeps hu) ..
  · exact State.bad_keeps _ _ _ hu

theorem execJobLoad_keeps (h : Hdr) (jobId : Nat) (image : JobImage) : NextKeeps s (execJobLoad h jobId image s) := by
  refine nextKeeps_host h _ _ fun u hu => State.ite_keeps (State.finish_keeps (hk := hu) ..) ?_
  split
  · exact State.bad_keeps _ _ _ hu
  · exact State.ite_keeps (State.bad_keeps _ _ _ hu) (State.ite_keeps (State.finish_keeps (hk := hu) ..) (State.finish_keeps (hk := State.on_keeps hu) ..))

theorem execJobStart_keeps (h : Hdr) (jobKey : W64) (tStart firstStep : Nat) : NextKeeps s (execJobStart h jobKey tStart firstStep s) := by
  refine nextKeeps_host h _ _ fun u hu => State.ite_keeps (State.finish_keeps (hk := hu) ..) ?_
  split
  · exact State.bad_keeps _ _ _ hu
  · extract_lets v w
    have hw : s.Keeps w := by
      refine State.remapSuspects_keeps ?_
      show s.Keeps (match u.m.job.restored with | .done .. => u | _ => u.writeExpInit firstStep)
      split
      · exact hu
      · exact State.writeExpInit_keeps _ hu
    exact State.ite_keeps (State.finish_keeps (hk := hw) ..) (State.await_keeps _ _ _ (State.on_keeps hw))

theorem execJobAbort_keeps (h : Hdr) (reason : BitVec 32) : NextKeeps s (execJobAbort h reason s) := by
  have ha (u : State) (hu : s.Keeps u) : s.Keeps ((u.raiseBell u.m.moduleId (u.m.lastEpoch u.m.moduleId + 1) 0 true reason.toNat).await h 0x14 .jobAbort) :=
    State.await_keeps _ _ _ (State.raiseBell_keeps (hk := hu) ..)
  exact nextKeeps_next (State.ite_keeps (ha s (State.Keeps.refl s)) (State.host_keeps _ _ _ (State.Keeps.refl s) ha))

theorem execRestore_keeps (h : Hdr) (id source m : Nat) (image : List Byte) (tries : Nat) : NextKeeps s (execRestore h id source m image tries s) := by
  refine nextKeeps_host h _ _ fun u hu => ?_
  have hbad {n : Nat} : s.Keeps (u.bad h 0x15 n) := State.bad_keeps _ _ _ hu
  have hend {v : State} {n : Nat} (hv : s.Keeps v) : s.Keeps (v.finish h 0x15 n) := State.finish_keeps (hk := hv) ..
  refine State.ite_keeps (hend hu) (State.ite_keeps hbad (State.ite_keeps hbad (State.ite_keeps (hend hu) (State.ite_keeps hbad ?_))))
  have hv {f g : Block → Block} {c : Prop} [Decidable c] : s.Keeps (if c then (u.on f).on g else u.on f) := State.ite_keeps (State.on_keeps (State.on_keeps hu)) (State.on_keeps hu)
  refine State.ite_keeps (hend hv) ?_
  split
  · next hw => exact State.applyImage_keeps _ _ _ (State.keeps_fst (State.writeRecs_keeps _ hv) hw)
  · next hw => exact hend (State.on_keeps (State.keeps_fst (State.writeRecs_keeps _ hv) hw))

end

/-! All arms, by what they call -/

theorem exec_keeps (i : Instr) (s : State) : NextKeeps s (exec i s) := by
  have hs := State.Keeps.refl s
  have hu {t : Nat} : s.Keeps (s.on (·.advanceTo t)) := State.keeps_on s _
  cases i
  -- The block alone.
  case laneRetrainDone | portRetrain | portTrainingDone | sp0Trained | timeFlitSend | parentTimeout | parentRestore | ppsInEdge | ppsLoss | retiredPageRetry | cellarCalibration
      | cellarRetrain | e2eAckSend | croftFaultWindow | monitorExcursion | logCommit | tapInstruction | managementLinkFailure | managementPlaneRecovery | ringEnWrite
      | pollCtrlWrite | mmioRefusedClear | registerWrite | ideKeySetBoundary | inputTransient | powerDownComplete | powerCapCheck | thermalThrottleStep =>
    exact nextKeeps_atTime ..
  case getBlock | logInfo | logRead | pldmSensorRead | setEndpointId | getEndpointId | getMctpVersionSupport | getMessageTypeSupport | getVendorMessageSupport | getTid
      | getPldmVersion | getPldmTypes | getPldmCommands | queryDeviceIdentifiers | getFirmwareParameters | getStatus =>
    exact nextKeeps_next (State.keeps_on ..)
  case requestUpdate | passComponentTable | updateComponent | requestFirmwareData | verifyComplete | applyComplete | activateFirmware | cancelUpdateComponent | cancelUpdate =>
    exact nextKeeps_next (State.mailed_keeps _ _ _ hs)
  -- Packets and flits.
  case write | readReq | readResp | millContrib | excessQuarter | millResult | raisedExponent | suspect | confirm | clear | neighbours | bell => exact nextKeeps_packetRow ..
  case broadcast => exact nextKeeps_next (State.judged_keeps _ (packetRow_keeps _ _ _ _ _ hs))
  case nullFlit => exact nextKeeps_next (State.ite_keeps (State.flitRow_keeps _ _ _ _ hu fun _ h => State.goodFlit_keeps _ _ h) hu)
  case dataFlit =>
    exact nextKeeps_next (State.ite_keeps (State.flitRow_keeps _ _ _ _ hu fun _ h => State.sequenced_keeps _ _ _ h fun _ k => State.takeSlots_keeps _ _ _ k) hu)
  case linkFlit =>
    exact nextKeeps_next (State.ite_keeps (State.flitRow_keeps _ _ _ _ hu fun _ h => State.sequenced_keeps _ _ _ h fun _ k => State.takeLinkMsg_keeps _ _ k) hu)
  case timeFlit => exact nextKeeps_next (State.ite_keeps hu (State.flitRow_keeps _ _ _ _ hu fun _ h => State.on_keeps (State.goodFlit_keeps _ _ h)))
  case e2eAck => exact nextKeeps_next (State.acknowledge_keeps _ _ hu)
  case e2eRetransmit => exact execE2eRetransmit_keeps ..
  -- Ports, links and time.
  case laneLossOfLock => exact execLaneLossOfLock_keeps ..
  case laneCorrectionLimit => exact nextKeeps_either hu (State.physicalFails_keeps _ _ (State.on_keeps hu))
  case linkIdleTimeout => exact nextKeeps_either (State.failPortAll_keeps _ hu) hu
  case timeLost => exact nextKeeps_either (State.raiseErr_keeps _ hu) hu
  -- The rows of a lane program.
  case add | sub | mul | div | max | min => exact nextKeeps_next (State.laneBin_keeps _ _ _ hs)
  case abs | neg | recip | sqrt | rsqrt | exp2 | log2 | mov => exact nextKeeps_next (State.laneUn_keeps _ _ _ hs)
  case fma | cmp | sel | const | shuf => exact nextKeeps_next (State.laneOp_keeps _ _ _ hs)
  case redAdd | redMax => exact nextKeeps_next (State.laneReduce_keeps _ _ _ _ hs)
  case load | loadMasterWeight | loadClipFactor | loadLr | loadHyp | loadStepNumber => exact nextKeeps_next (State.laneLoad_keeps (hk := hs) ..)
  case store | storeFirstMoment | storeSecondMoment | storeForwardCopy | storeBackwardCopy => exact nextKeeps_next (State.laneStore_keeps _ _ hs)
  case laneNop =>
    dsimp only [exec, execLaneNop]
    split
    · exact nextKeeps_next (State.ite_keeps (State.on_keeps hs) hs)
    · exact nextKeeps_next hs
  case storeMaster | phaseEnd =>
    dsimp -zeta only [exec, execStoreMaster, execPhaseEnd]
    split
    · exact nextKeeps_next hs
    · exact nextKeeps_either hs (State.on_keeps hs)
  case draw =>
    dsimp -zeta only [exec, execDraw]
    split
    · exact nextKeeps_next hs
    · refine nextKeeps_either hs ((fun hl => State.ite_keeps hl (State.on_keeps hl)) ?_)
      exact State.on_keeps (State.laneOp_keeps _ _ _ hs)
  case laneRun => exact execLaneRun_keeps ..
  case endProgram => exact execEndProgram_keeps ..
  -- The other operations of a croft.
  case faMatmul | baMatmulWs | baMatmulOs => exact nextKeeps_next (State.issueArray_keeps _ _ _ _ hs)
  case stileWiden | stileNarrow => exact nextKeeps_next (State.issueStile_keeps _ _ _ hs)
  case moveCopy | moveMigrate | moveOffload | movePrefetch => exact nextKeeps_next (State.issueMove_keeps _ _ _ hs)
  case commit =>
    dsimp only [exec, execCommit]
    split
    · exact nextKeeps_guard (State.reject_keeps _ _ hs) (nextKeeps_either hs
        (State.judged_keeps _ (State.commitCroft_keeps _ (State.on_keeps (State.on_keeps (State.runExports_keeps _ _ hs))))))
    · exact nextKeeps_next (State.on_keeps hs)
    · exact nextKeeps_next hs
  case fenceCroft =>
    dsimp only [exec, execFenceCroft]
    split
    · exact nextKeeps_either (State.on_keeps hs) hs
    · exact nextKeeps_next (State.on_keeps hs)
    · exact nextKeeps_next hs
  case waitTime =>
    dsimp only [exec, execWaitTime]
    split
    · exact nextKeeps_either (State.on_keeps hs) (State.on_keeps hs)
    · exact nextKeeps_next (State.on_keeps hs)
    · exact nextKeeps_next hs
  case almanacNop =>
    dsimp only [exec, execAlmanacNop]
    split
    · exact nextKeeps_next (State.on_keeps hs)
    · exact nextKeeps_next (State.on_keeps hs)
    · exact nextKeeps_next hs
  case tileDrain =>
    dsimp only [exec, execTileDrain]
    split
    · exact nextKeeps_next hs
    · exact nextKeeps_either hs (State.judged_keeps _ (State.finishTile_keeps _ _ _ hs))
  case sliceExport =>
    refine nextKeeps_guard hs ?_
    split
    · exact nextKeeps_next (State.judged_keeps _ (State.finishTile_keeps _ _ _ hs))
    · exact nextKeeps_next (State.judged_keeps _ (State.finishTile_keeps _ _ _ hs))
    · exact nextKeeps_next (State.judged_keeps _ (State.runExports_keeps _ _ hs))
  case repeatWider =>
    dsimp -zeta only [exec, execRepeatWider]
    extract_lets
    split
    · exact nextKeeps_next (State.accessed_then_keeps (State.on_keeps hs) (fun _ => State.runArray_keeps _ _ _) fun _ h => h)
    · exact nextKeeps_next hs
  case spanReplay =>
    dsimp -zeta only [exec, execSpanReplay]
    extract_lets
    split
    · exact nextKeeps_next (State.reissue_keeps _ _ _ _ (State.on_keeps hs))
    · exact nextKeeps_next hs
  case replay =>
    dsimp -zeta only [exec, execReplay]
    extract_lets
    split
    · exact nextKeeps_next (State.reissue_keeps _ _ _ _ (State.on_keeps hu))
    · exact nextKeeps_next hu
  case waitTimeExpiry =>
    dsimp -zeta only [exec, execWaitTimeExpiry]
    extract_lets
    split
    · exact nextKeeps_either hu (State.on_keeps hu)
    · exact nextKeeps_next hu
  case forcedCommit => exact nextKeeps_either (State.forceCommit_keeps _ hu) hu
  case commitHoldLimit => exact nextKeeps_next (State.foldl_keeps hu fun _ _ h => State.ite_keeps (State.forceCommit_keeps _ h) h)
  -- Steps, the mills and the tiers.
  case stepBoundary => exact nextKeeps_guard hu (nextKeeps_ite (nextKeeps_either hu (State.firstBoundary_keeps hu)) (nextKeeps_guard hu (nextKeeps_either (State.stopAt_keeps _ hu) (State.turnStep_keeps _ _ hu))))
  case tallySlotTrailer =>
    dsimp -zeta only [exec, execTallySlotTrailer]
    extract_lets
    split
    · exact nextKeeps_next hu
    · exact nextKeeps_next (State.on_keeps (State.writeHost_keeps _ _ hu))
  case millDeadline => exact execMillDeadline_keeps ..
  case fenceGroupTimeout =>
    dsimp -zeta only [exec, execFenceGroupTimeout]
    extract_lets
    split
    · exact nextKeeps_next (State.on_keeps (State.endWait_keeps (hk := hu) ..))
    · exact nextKeeps_next hu
  case cacheFlushDone => exact execCacheFlushDone_keeps ..
  case pageMigrationSwitch => exact execPageMigrationSwitch_keeps ..
  case squirrelMoveStart => exact execSquirrelMoveStart_keeps ..
  case moveTilesWritten => exact execMoveTilesWritten_keeps ..
  case completionTimeout => exact execCompletionTimeout_keeps ..
  case cellarRetrainDone => exact nextKeeps_next (State.releaseWrites_keeps (State.keeps_on ..))
  case scrub => exact execScrub_keeps ..
  -- Faults, resets and the abort.
  case bellTa => exact nextKeeps_either (State.abortNow_keeps hu) hu
  case abortStopLimit =>
    refine nextKeeps_either ((fun hf => State.ite_keeps (State.enterOos_keeps _ hf) hf) ?_) hu
    exact State.foldl_keeps (State.on_keeps hu) fun _ _ h => State.raiseErr_keeps _ h
  case croftWatchdog =>
    dsimp -zeta only [exec, execCroftWatchdog]
    extract_lets
    split
    · exact nextKeeps_next hu
    · exact nextKeeps_either hu (State.stopCroft_keeps _ _ _ (State.on_keeps hu))
  case localStallLimit | remoteBound =>
    dsimp -zeta only [exec, execLocalStallLimit, execRemoteBound]
    extract_lets
    split
    · exact nextKeeps_next hu
    · exact nextKeeps_either hu (State.raiseErr_keeps _ (State.on_keeps hu))
  case remoteWatch =>
    dsimp -zeta only [exec, execRemoteWatch]
    extract_lets
    split
    · exact nextKeeps_next hu
    · exact nextKeeps_either hu (State.raiseSuspect_keeps (hk := State.on_keeps hu) ..)
  case handlerTake => exact execHandlerTake_keeps ..
  case resetTimeout => exact execResetTimeout_keeps ..
  case resetComplete => exact execResetComplete_keeps ..
  -- Tests, monitors, power and boot.
  case selfTestSlot => exact execSelfTestSlot_keeps ..
  case bellLineTest => exact nextKeeps_either hu (State.raiseErr_keeps _ (State.on_keeps hu))
  case lockstepMismatch => exact nextKeeps_either (State.raiseErr_keeps _ (State.on_keeps (State.on_keeps hu))) (State.raiseErr_keeps _ (State.on_keeps hu))
  case monitorReturn => exact execMonitorReturn_keeps ..
  case monitorTrip => exact execMonitorTrip_keeps ..
  case telemetrySample => exact execTelemetrySample_keeps ..
  case logExport => exact nextKeeps_either hu (State.streamLog_keeps _ _ _ (State.on_keeps hu))
  case moduleReset | recoveryReset => exact nextKeeps_next (State.ite_keeps (State.moduleReset_keeps _ hu) hu)
  case standbyPowerLoss => exact execStandbyPowerLoss_keeps ..
  case standbyPowerUp => exact nextKeeps_either hu (State.bootFrom3_keeps _ (State.on_keeps hs))
  case startupSelfTest => exact execStartupSelfTest_keeps ..
  case powerFailWarning => exact nextKeeps_either hu (State.on_keeps (State.shedInput_keeps _ (State.on_keeps hu)))
  case inputOvervoltage | inputOvercurrent => exact nextKeeps_next (State.ite_keeps (State.shedInput_keeps _ hu) hu)
  case prsntNBreak => exact nextKeeps_either hu (State.on_keeps (State.ite_keeps (State.classM_keeps _ hu) hu))
  case powerDownStart =>
    dsimp -zeta only [exec, execPowerDownStart]
    extract_lets
    split
    · exact nextKeeps_next (State.ite_keeps (State.powerDown_keeps hu) hu)
    · exact nextKeeps_next hu
  case inputReturn => exact execInputReturn_keeps ..
  case perstNAssert => exact execPerstNAssert_keeps ..
  case perstNRelease => exact nextKeeps_either hu (State.ite_keeps (State.moduleReset_keeps _ (State.on_keeps hu)) (State.on_keeps (State.on_keeps hu)))
  case thermalSensorRead => exact execThermalSensorRead_keeps ..
  case ideIntegrityFailure => exact nextKeeps_either hu (State.event_keeps _ _ _ (State.on_keeps hu))
  case vectorTimeout => exact execVectorTimeout_keeps ..
  -- The bear.
  case bearBackgroundCopy =>
    dsimp -zeta only [exec, execBearBackgroundCopy]
    extract_lets
    refine nextKeeps_guard hu ?_
    split
    · exact nextKeeps_next hu
    · exact nextKeeps_next (State.ite_keeps (State.on_keeps hu) (State.copyFails_keeps _ hu))
  case pageCopied => exact execPageCopied_keeps ..
  case imageTrailer =>
    dsimp -zeta only [exec, execImageTrailer]
    extract_lets
    split
    · exact nextKeeps_next hu
    · exact nextKeeps_either hu (State.on_keeps (State.writeImage_keeps _ _ _ hu))
  case restoreTwinTimeout =>
    dsimp -zeta only [exec, execRestoreTwinTimeout]
    extract_lets
    split
    · exact nextKeeps_next (State.recordedDigest_keeps _ hu)
    · exact nextKeeps_next hu
  -- The rings.
  case ringPoll => exact nextKeeps_either hu (State.poll_keeps _ hu)
  case payloadReadDone => exact execPayloadReadDone_keeps ..
  case orderingReadComplete =>
    dsimp -zeta only [exec, execOrderingReadComplete]
    extract_lets
    split
    · exact nextKeeps_next (State.ite_keeps (State.endWait_keeps (hk := State.on_keeps hu) ..) (State.endWait_keeps (hk := hu) ..))
    · exact nextKeeps_next hu
  case imageRegionWriteDone => exact execImageRegionWriteDone_keeps ..
  -- Host commands.
  case nop => exact nextKeeps_host _ _ _ fun _ h => State.finish_keeps (hk := h) ..
  case tallyRead => exact nextKeeps_host _ _ _ fun _ h => State.output_keeps (hk := h) ..
  case digestRead => exact execDigestRead_keeps ..
  case fenceModule => exact nextKeeps_host _ _ _ fun _ h => State.ite_keeps (State.finish_keeps (hk := h) ..) (State.await_keeps _ _ _ h)
  case fenceGroup => exact execFenceGroup_keeps ..
  case fenceHost => exact nextKeeps_host _ _ _ fun _ h => State.await_keeps _ _ _ h
  case ideKeySet => exact nextKeeps_host _ _ _ fun _ h => State.ite_keeps (State.bad_keeps _ _ _ h) (State.finish_keeps (hk := State.on_keeps h) ..)
  case ideKeyGo => exact execIdeKeyGo_keeps ..
  case fwStage => exact execFwStage_keeps ..
  case fwCommit => exact execFwCommit_keeps ..
  case attest => exact nextKeeps_host _ _ _ fun _ h => State.ite_keeps (State.bad_keeps _ _ _ h) (State.finish_keeps (hk := State.writeHost_keeps _ _ h) ..)
  case selfCheck => exact execSelfCheck_keeps ..
  case descWrite => exact nextKeeps_host _ _ _ fun _ h => State.withDesc_keeps _ _ _ _ _ h fun _ => State.writeDesc_keeps _ _ _ _ _ h
  case descRead => exact nextKeeps_host _ _ _ fun _ h => State.withDesc_keeps _ _ _ _ _ h fun _ => State.output_keeps (hk := h) ..
  case copyIn => exact execCopyIn_keeps ..
  case copyOut => exact execCopyOut_keeps ..
  case parcelCreate => exact execParcelCreate_keeps ..
  case parcelFree => exact execParcelFree_keeps ..
  case parcelQuery => exact execParcelQuery_keeps ..
  case parcelMigrate => exact execParcelMigrate_keeps ..
  case pageQuery =>
    exact nextKeeps_host _ _ _ fun _ h => State.ite_keeps (State.bad_keeps _ _ _ h) (State.ite_keeps (State.bad_keeps _ _ _ h) (State.output_keeps (hk := h) ..))
  case drainTableLoad =>
    exact nextKeeps_host _ _ _ fun _ h =>
      State.ite_keeps (State.finish_keeps (hk := h) ..) (State.ite_keeps (State.bad_keeps _ _ _ h) (State.finish_keeps (hk := State.on_keeps h) ..))
  case laneProgLoad => exact execLaneProgLoad_keeps ..
  case fabricTableLoad => exact execFabricTableLoad_keeps ..
  case groupLoad => exact execGroupLoad_keeps ..
  case jobLoad => exact execJobLoad_keeps ..
  case jobUnload =>
    exact nextKeeps_host _ _ _ fun _ h => State.finish_keeps (hk := State.on_keeps (State.remapSuspects_keeps (State.abandonImage_keeps _ h))) ..
  case jobStart => exact execJobStart_keeps ..
  case jobStop => exact nextKeeps_host _ _ _ fun _ h => State.await_keeps _ _ _ (State.on_keeps h)
  case jobAbort => exact execJobAbort_keeps ..
  case restore h id source m image tries => exact execRestore_keeps h id source m image tries

/-- A mailbox entry is applied: the mailbox is free again, and nothing else changes. -/
theorem nextKeeps_applied {s : State} {o : Host.Outcome State Fault Refusal} (h : NextKeeps s o) : NextKeeps s (applied o) := by
  cases o with
  | next t => exact nextKeeps_next (State.on_keeps (h.keeps t rfl))
  | fault r => exact ⟨fun t e => by simp [applied] at e⟩
  | refused r => exact ⟨fun t e => by simp [applied] at e⟩

/-- Settles O4: the command that a step runs keeps the memories, whatever it is, and so does an idle step. -/
theorem stepKeepsMemory : Obligations.StepKeepsMemory := by
  intro s t hw hstep
  unfold step at hstep
  split at hstep
  · exact ((exec_keeps _ _).keeps t hstep).2 hw
  · split at hstep
    · exact ((nextKeeps_applied (exec_keeps _ _)).keeps t hstep).2 hw
    · exact Host.Outcome.next.inj hstep ▸ (State.settleIdle_keeps (State.Keeps.refl s)).2 hw

end Sys2Proof.Machine

/-! What errors, completions and commits leave as it is: the parcels, the pages with their parcels, the mark of a RESTORE, and the flushes under way. -/
namespace Sys2Proof.Machine

/-- The parcels, the mapped pages with their parcels, the mark of a RESTORE (R524), and the flushes under way (R408). -/
def Block.lasting (b : Block) : List Parcel × List (Nat × Nat) × Restored × List (Nat × Nat) :=
  (b.tiers.parcels, b.tiers.pages.map (fun e => (e.page, e.parcel)), b.job.restored, b.cache.flushes)

theorem Block.lasting_eq_iff {b c : Block} : b.lasting = c.lasting ↔ b.tiers.parcels = c.tiers.parcels
    ∧ b.tiers.pages.map (fun e => (e.page, e.parcel)) = c.tiers.pages.map (fun e => (e.page, e.parcel))
    ∧ b.job.restored = c.job.restored ∧ b.cache.flushes = c.cache.flushes := by
  simp only [Block.lasting, Prod.mk.injEq]

theorem Block.parcel_of_lasting {b c : Block} (h : b.lasting = c.lasting) (id : Nat) : b.parcel id = c.parcel id := by
  obtain ⟨hparcels, -, -, -⟩ := Block.lasting_eq_iff.mp h
  rw [Block.parcel, hparcels, Block.parcel]

theorem Block.pageParcels_of_lasting {b c : Block} (h : b.lasting = c.lasting) :
    b.tiers.pages.map (fun e => (e.page, e.parcel)) = c.tiers.pages.map (fun e => (e.page, e.parcel)) := by
  obtain ⟨-, hpages, -, -⟩ := Block.lasting_eq_iff.mp h
  exact hpages

theorem Block.restored_of_lasting {b c : Block} (h : b.lasting = c.lasting) : b.job.restored = c.job.restored := by
  obtain ⟨-, -, hrestored, -⟩ := Block.lasting_eq_iff.mp h
  exact hrestored

theorem Block.flushes_of_lasting {b c : Block} (h : b.lasting = c.lasting) : b.cache.flushes = c.cache.flushes := by
  obtain ⟨-, -, -, hflushes⟩ := Block.lasting_eq_iff.mp h
  exact hflushes

theorem Block.foldl_lasting {α : Type} {f : Block → α → Block} {xs : List α} (hf : ∀ b x, (f b x).lasting = b.lasting) (b : Block) :
    (xs.foldl f b).lasting = b.lasting := by
  induction xs generalizing b with
  | nil => rfl
  | cons x xs ih => exact (ih _).trans (hf b x)

theorem Block.ite_lasting {a b c : Block} {p : Prop} [Decidable p] (ha : a.lasting = c.lasting) (hb : b.lasting = c.lasting) :
    (if p then a else b).lasting = c.lasting := by
  split
  · exact ha
  · exact hb

theorem State.foldl_lasting {α : Type} {f : State → α → State} {xs : List α} (hf : ∀ s x, (f s x).m.lasting = s.m.lasting) (s : State) :
    (xs.foldl f s).m.lasting = s.m.lasting := by
  induction xs generalizing s with
  | nil => rfl
  | cons x xs ih => exact (ih _).trans (hf s x)

theorem State.ite_lasting {a b c : State} {p : Prop} [Decidable p] (ha : a.m.lasting = c.m.lasting) (hb : b.m.lasting = c.m.lasting) :
    (if p then a else b).m.lasting = c.m.lasting := by
  split
  · exact ha
  · exact hb

/-! The block -/

theorem Block.bump_lasting (b : Block) (c : Counter) (k : Nat) : (b.bump c k).lasting = b.lasting := by
  unfold Block.bump
  split <;> rfl

theorem Block.onPort_lasting (b : Block) (n : Nat) (f : Port → Port) : (b.onPort n f).lasting = b.lasting := by
  unfold Block.onPort
  split <;> rfl

theorem Block.onPage_lasting {f : Page → Page} (hf : ∀ e, (f e).page = e.page ∧ (f e).parcel = e.parcel) (b : Block) (page : Nat) :
    (b.onPage page f).lasting = b.lasting := by
  have hmap : (b.onPage page f).tiers.pages.map (fun e => (e.page, e.parcel)) = b.tiers.pages.map (fun e => (e.page, e.parcel)) := by
    refine (List.map_map ..).trans (List.map_congr_left fun e _ => ?_)
    dsimp only [Function.comp_apply]
    split
    · rw [(hf e).1, (hf e).2]
    · rfl
  exact congrArg (fun ps => (b.tiers.parcels, ps, b.job.restored, b.cache.flushes)) hmap

theorem Block.sendVector_lasting (b : Block) (v : Nat) : (b.sendVector v).lasting = b.lasting := by
  unfold Block.sendVector
  split <;> rfl

theorem Block.logC_lasting (b : Block) (e : ErrorRec) : (b.logC e).lasting = b.lasting := by
  unfold Block.logC
  exact Block.ite_lasting rfl (Block.bump_lasting ..)

theorem Block.countErr_lasting (b : Block) (k : Class_) : (b.countErr k).lasting = b.lasting := (Block.bump_lasting ..).trans (Block.bump_lasting ..)

theorem Block.detection_lasting (b : Block) (e : ErrorRec) : (b.detection e).lasting = b.lasting := Block.ite_lasting rfl (Block.bump_lasting ..)

theorem Block.onImage_lasting (b : Block) (f : Image → Image) : (b.onImage f).lasting = b.lasting := rfl

theorem Block.copyBegins_lasting (b : Block) (page : Nat) : (b.copyBegins page).lasting = b.lasting := by
  refine (Block.onImage_lasting ..).trans (Block.onPage_lasting (fun e => ?_) b page)
  exact ⟨rfl, rfl⟩

theorem Block.onCroft_lasting (b : Block) (n : Nat) (f : Croft → Croft) : (b.onCroft n f).lasting = b.lasting := rfl

theorem Block.mill_lasting (b : Block) (m : Mill) : ({ b with mill := m } : Block).lasting = b.lasting := rfl

/-! Packets out -/

theorem Block.emit_lasting (b : Block) (n ftype start : Nat) (payload : List Byte) : (b.emit n ftype start payload).lasting = b.lasting :=
  (Block.bump_lasting ..).trans (Block.onPort_lasting ..)

theorem Block.emitSlots_lasting (b : Block) (n : Nat) (xs : List (Bool × List Byte)) (k : Nat) : (b.emitSlots n xs k).lasting = b.lasting := by
  induction k generalizing b xs with
  | zero => rfl
  | succ k ih => exact Block.ite_lasting rfl ((ih ..).trans (Block.emit_lasting ..))

theorem Block.crossLink_lasting (b : Block) (i : Nat) (ends : Nat × Nat) (p : Pkt) : (b.crossLink i ends p).lasting = b.lasting :=
  (Block.bump_lasting ..).trans ((Block.onPort_lasting ..).trans ((Block.onPort_lasting ..).trans (Block.emitSlots_lasting ..)))

theorem Block.carry_lasting (b : Block) (p : Pkt) (src dst : Nat) : (b.carry p src dst).lasting = b.lasting :=
  Block.foldl_lasting (fun _ _ => Block.crossLink_lasting ..) b

theorem Block.leaveBy_lasting (b : Block) (n : Nat) (p : Pkt) : (b.leaveBy n p).lasting = b.lasting :=
  Block.ite_lasting (Block.bump_lasting ..) (Block.onPort_lasting ..)

theorem Block.forward_lasting (b : Block) (p : Pkt) (die : Nat) (edge : Option (BitVec 16)) : (b.forward p die edge).lasting = b.lasting := by
  unfold Block.forward
  split
  · exact Block.ite_lasting ((Block.leaveBy_lasting ..).trans (Block.carry_lasting ..)) rfl
  · exact Block.bump_lasting ..

theorem Block.depart_lasting (b : Block) (q : Pkt) (edge : Option (BitVec 16)) (port : Option Nat) : (b.depart q edge port).lasting = b.lasting := by
  unfold Block.depart
  split
  · split
    · exact Block.ite_lasting ((Block.leaveBy_lasting ..).trans (Block.carry_lasting ..)) rfl
    · exact Block.bump_lasting ..
  · exact Block.forward_lasting ..

theorem Block.launchOrWait_lasting (b : Block) (q : Pkt) (io : Nat) (edge : Option (BitVec 16)) (port : Option Nat) : (b.launchOrWait q io edge port).lasting = b.lasting :=
  Block.ite_lasting rfl (Block.depart_lasting ..)

theorem Block.send_lasting (b : Block) (p : Pkt) (edge : Option (BitVec 16)) : (b.send p edge).lasting = b.lasting := Block.launchOrWait_lasting ..

theorem Block.sendLink_lasting (b : Block) (n typ param ext : Nat) (payload : List Byte) : (b.sendLink n typ param ext payload).lasting = b.lasting :=
  Block.launchOrWait_lasting ..

/-! Stalls, tokens and completions -/

theorem Block.stallCost_lasting (b : Block) (croft : Nat) (x : Stall) : (b.stallCost croft x).lasting = b.lasting := Block.ite_lasting rfl rfl

theorem Block.endStall_lasting (b : Block) (croft : Nat) (u : CroftUnit) : (b.endStall croft u).lasting = b.lasting := by
  unfold Block.endStall
  split
  · exact (Block.bump_lasting ..).trans ((Block.bump_lasting ..).trans (Block.stallCost_lasting ..))
  · rfl

theorem Block.settleCroft_lasting (b : Block) (n : Nat) : (b.settleCroft n).lasting = b.lasting := by
  refine Block.foldl_lasting (fun b u => ?_) b
  split
  · exact Block.endStall_lasting ..
  · rfl
  · rfl

theorem Block.settleStalls_lasting (b : Block) : b.settleStalls.lasting = b.lasting := Block.foldl_lasting (fun _ _ => Block.settleCroft_lasting ..) b

theorem Block.noteTransfer_lasting (b : Block) (croft tok tier cause : Nat) : (b.noteTransfer croft tok tier cause).lasting = b.lasting := by
  refine Block.ite_lasting rfl ?_
  extract_lets waits
  refine Block.foldl_lasting (fun b n => ?_) b
  exact Block.ite_lasting rfl rfl

theorem Block.bandToken_lasting (b : Block) (tok : Nat) : (b.bandToken tok).lasting = b.lasting :=
  Block.ite_lasting rfl ((Block.settleStalls_lasting _).trans (Block.noteTransfer_lasting ..))

theorem Block.settleBcasts_lasting (b : Block) : b.settleBcasts.lasting = b.lasting := by
  refine Block.foldl_lasting (fun b r => ?_) b
  split
  · exact Block.ite_lasting rfl (Block.bandToken_lasting ..)
  · rfl

theorem Block.setToken_lasting (b : Block) (croft tok : Nat) (hold : Bool) : (b.setToken croft tok hold).lasting = b.lasting :=
  Block.ite_lasting rfl (Block.ite_lasting rfl (Block.ite_lasting rfl (Block.ite_lasting rfl rfl)))

theorem Block.completeOp_lasting (b : Block) (croft i : Nat) : (b.completeOp croft i).lasting = b.lasting := Block.ite_lasting rfl (Block.setToken_lasting ..)

theorem Block.freeParts_lasting (b : Block) : b.freeParts.lasting = b.lasting :=
  (Block.mill_lasting ..).trans (Block.foldl_lasting (fun _ _ => Block.onCroft_lasting ..) b)

theorem Block.commitEntries_lasting (b : Block) (croft : Nat) : (b.commitEntries croft).lasting = b.lasting := Block.freeParts_lasting _

theorem Block.releaseHeld_lasting (b : Block) (op : BitVec 512) : (b.releaseHeld op).lasting = b.lasting := by
  unfold Block.releaseHeld
  split <;> rfl

theorem Block.moveDelays_lasting (b : Block) (m : Move) : (b.moveDelays m).2.lasting = b.lasting := by
  unfold Block.moveDelays
  extract_lets rs left
  have hone {c : Prop} [Decidable c] {n : Nat} (b : Block) : (if c then b.freeNat n else (0, b)).2.lasting = b.lasting := by
    split <;> rfl
  exact (hone _).trans (hone b)

/-! The mills -/

theorem Block.desc_tally_lasting (b : Block) (x : Desc) (y : Tally) : ({ b with desc := x, tally := y } : Block).lasting = b.lasting := rfl

theorem Block.setNormSat_lasting (b : Block) : b.setNormSat.lasting = b.lasting := Block.desc_tally_lasting ..

theorem Block.addNorm_lasting (b : Block) (term : Nat) : (b.addNorm term).lasting = b.lasting := by
  refine (Block.mill_lasting ..).trans ?_
  exact Block.ite_lasting (Block.setNormSat_lasting b) rfl

theorem Block.takeScalar_lasting (b : Block) : b.takeScalar.lasting = b.lasting := by
  have hdone (c : Block) (m : Mill) (clip : Option F32) (norm : F32) (t : Tally) :
      ({ c with mill := m, job := { c.job with clip := clip, norm := norm }, tally := t } : Block).lasting = c.lasting := rfl
  refine Block.ite_lasting rfl ((hdone ..).trans ?_)
  exact Block.ite_lasting (Block.setNormSat_lasting b) rfl

theorem Block.addScalar_lasting (b : Block) (first : Nat) (elems : List Int) : (b.addScalar first elems).lasting = b.lasting := Block.takeScalar_lasting _

theorem Block.countGrad_lasting (b : Block) (g slice : Nat) (c : TallyCtr) (k : Nat) : (b.countGrad g slice c k).lasting = b.lasting := by
  unfold Block.countGrad
  split
  · exact Block.ite_lasting rfl rfl
  · rfl

/-! Completion entries, events and the trace -/

theorem State.writeEntry_lasting (s : State) (n : Nat) (c : Completion) : (s.writeEntry n c).m.lasting = s.m.lasting :=
  State.ite_lasting (State.ite_lasting (Block.sendVector_lasting ..) rfl) (State.ite_lasting (Block.sendVector_lasting ..) rfl)

theorem State.postCompletion_lasting (s : State) (n : Nat) (c : Completion) : (s.postCompletion n c).m.lasting = s.m.lasting :=
  State.ite_lasting rfl (State.ite_lasting (State.writeEntry_lasting ..) rfl)

theorem State.complete_lasting (s : State) (n : Nat) (c : Completion) : (s.complete n c).m.lasting = s.m.lasting := State.postCompletion_lasting ..

theorem State.endWait_lasting (s : State) (w : Wait) (status : Nat) (result : BitVec 128) (detail : Nat) (superseded : Bool) :
    (s.endWait w status result detail superseded).m.lasting = s.m.lasting := State.complete_lasting ..

theorem State.postEvent_lasting (s : State) (e : EventRec) : (s.postEvent e).m.lasting = s.m.lasting :=
  State.ite_lasting rfl (State.ite_lasting (State.writeEntry_lasting ..) (State.ite_lasting rfl rfl))

theorem State.tracePlace_lasting (s : State) (typ sub : Nat) (payload : List Byte) : (s.tracePlace typ sub payload).m.lasting = s.m.lasting :=
  State.ite_lasting (a := s.tracePut 6 0 _ []) (b := s) rfl rfl

theorem State.trace_lasting (s : State) (typ sub : Nat) (payload : List Byte) : (s.trace typ sub payload).m.lasting = s.m.lasting :=
  State.ite_lasting rfl (State.ite_lasting rfl ((State.tracePlace_lasting ..).trans (State.ite_lasting (State.tracePlace_lasting ..) rfl)))

/-! Errors and the bell -/

theorem State.takeBell_lasting (s : State) (origin epoch error raiser : Nat) (host : Bool) (step reason ta : Nat) (arrived : Option Nat) (suspectAt : Nat) :
    (s.takeBell origin epoch error raiser host step reason ta arrived suspectAt).m.lasting = s.m.lasting := by
  unfold State.takeBell
  extract_lets b known earlier first s₁ s₂ s₃
  have h₁ : s₁.m.lasting = s.m.lasting := by
    refine (Block.ite_lasting ((Block.foldl_lasting (fun _ _ => Block.sendLink_lasting ..) _).trans ?_) ((Block.bump_lasting ..).trans ?_)) <;>
      exact Block.ite_lasting rfl rfl
  have h₂ : s₂.m.lasting = s₁.m.lasting := Block.ite_lasting rfl rfl
  have h₃ : s₃.m.lasting = s₂.m.lasting := Block.ite_lasting rfl rfl
  have hs := h₃.trans (h₂.trans h₁)
  exact State.ite_lasting ((State.postEvent_lasting ..).trans hs) hs

theorem State.raiseBell_lasting (s : State) (origin epoch error : Nat) (host : Bool) (reason suspectAt : Nat) :
    (s.raiseBell origin epoch error host reason suspectAt).m.lasting = s.m.lasting := (State.takeBell_lasting ..).trans (Block.bump_lasting ..)

theorem State.voidSlot_lasting (s : State) : s.voidSlot.m.lasting = s.m.lasting := by
  unfold State.voidSlot
  split
  · rfl
  · exact State.ite_lasting rfl rfl

theorem State.abandonImage_lasting (s : State) (status : Nat) : (s.abandonImage status).m.lasting = s.m.lasting := by
  unfold State.abandonImage
  split
  · rfl
  · refine (Block.logC_lasting ..).trans (Eq.trans ?_ (State.voidSlot_lasting s))
    exact congrArg (fun ps => (s.voidSlot.m.tiers.parcels, ps, s.voidSlot.m.job.restored, s.voidSlot.m.cache.flushes)) (List.map_map ..)

theorem State.detect_lasting (s : State) (e : ErrorRec) : (s.detect e).m.lasting = s.m.lasting := by
  unfold State.detect
  extract_lets s'
  have hs : s'.m.lasting = s.m.lasting := State.ite_lasting rfl rfl
  split
  · exact State.ite_lasting (c := s) ((Block.bump_lasting ..).trans ((State.abandonImage_lasting ..).trans hs)) hs
  · exact hs

theorem State.raiseErr_lasting (s : State) (e : ErrorRec) : (s.raiseErr e).m.lasting = s.m.lasting := by
  unfold State.raiseErr
  extract_lets e'
  split
  · exact Block.logC_lasting ..
  · next s₁ s₂ _ _ _ _ =>
    have h₁ : s₁.m.lasting = s.m.lasting :=
      (State.trace_lasting ..).trans ((State.detect_lasting ..).trans ((Block.detection_lasting ..).trans (Block.countErr_lasting ..)))
    have h₂ : s₂.m.lasting = s.m.lasting := (State.postEvent_lasting ..).trans h₁
    exact State.ite_lasting h₂ (State.ite_lasting h₂ ((State.raiseBell_lasting ..).trans h₂))
  · rfl

/-! Writes to parcel space -/

theorem State.refreshTile_lasting (s : State) (tile : Nat) (kind : TileElems) : (s.refreshTile tile kind).m.lasting = s.m.lasting := by
  unfold State.refreshTile
  split
  · rfl
  · extract_lets codec bytes h s'
    refine (Block.onPage_lasting (fun e => ?_) ..).trans (State.ite_lasting rfl rfl : s'.m.lasting = s.m.lasting)
    split <;> exact ⟨rfl, rfl⟩

theorem State.hostWriteFails_lasting (s : State) (owner : Option (Nat × Nat)) : (s.hostWriteFails owner).m.lasting = s.m.lasting :=
  (State.raiseErr_lasting ..).trans (Block.bump_lasting ..)

theorem State.writePage_lasting (s : State) (a : Nat) (bs : List Byte) (owner : Option (Nat × Nat)) (post : Bool) (kind : TileElems) :
    (s.writePage a bs owner post kind).m.lasting = s.m.lasting := by
  unfold State.writePage
  split
  · rfl
  · extract_lets reader s₁ t₀ t₁ s₂
    have h₂ : s₂.m.lasting = s.m.lasting := State.refreshTile_lasting ..
    refine State.ite_lasting ?_ (State.ite_lasting (State.hostWriteFails_lasting ..) (State.ite_lasting h₂ ((State.refreshTile_lasting ..).trans h₂)))
    have hb : (if reader then s.m.bump .commitHolds else s.m).lasting = s.m.lasting := Block.ite_lasting (Block.bump_lasting ..) rfl
    exact Block.ite_lasting ((Block.copyBegins_lasting ..).trans hb) hb

theorem State.devWriteFrom_lasting (s : State) (fuel a : Nat) (bs : List Byte) (owner : Option (Nat × Nat)) (post : Bool) (kind : TileElems) :
    (s.devWriteFrom fuel a bs owner post kind).m.lasting = s.m.lasting := by
  induction fuel generalizing s a bs with
  | zero => rfl
  | succ k ih => exact State.ite_lasting rfl ((ih ..).trans (State.writePage_lasting ..))

theorem State.devWrite_lasting (s : State) (a : Nat) (bs : List Byte) (owner : Option (Nat × Nat)) (post : Bool) (kind : TileElems) :
    (s.devWrite a bs owner post kind).m.lasting = s.m.lasting := State.ite_lasting (State.devWriteFrom_lasting ..) rfl

theorem State.releaseList_lasting (s : State) (ws : List HeldWrite) : (s.releaseList ws).m.lasting = s.m.lasting := by
  induction ws generalizing s with
  | nil => rfl
  | cons w ws ih => exact State.ite_lasting (ih _) ((ih _).trans (State.devWrite_lasting ..))

theorem State.releaseWrites_lasting (s : State) : s.releaseWrites.m.lasting = s.m.lasting :=
  (Block.foldl_lasting (fun _ _ => Block.completeOp_lasting ..) _).trans (State.releaseList_lasting ..)

theorem State.writeTiles_lasting (s : State) (k a : Nat) (bs : List Byte) : (s.writeTiles k a bs).m.lasting = s.m.lasting := by
  induction k generalizing s a bs with
  | zero => rfl
  | succ k ih => exact State.ite_lasting rfl ((ih ..).trans (State.devWrite_lasting ..))

theorem State.writeRecs_lasting (s : State) (rs : List PageRec) : (s.writeRecs rs).1.m.lasting = s.m.lasting := by
  induction rs generalizing s with
  | nil => rfl
  | cons r rs ih =>
    unfold State.writeRecs
    split
    · rfl
    · next bytes _ =>
      have h := (ih (s.writeTiles 3 r.address bytes)).trans (State.writeTiles_lasting ..)
      split <;> next e => rw [e] at h; exact h

/-! The mills: packets, digests and held slices -/

theorem State.sendRank_lasting (s : State) (g : Nat) (d : BitVec 512) (rank typ param ext die : Nat) (payload : List Byte) (step : Nat) :
    (s.sendRank g d rank typ param ext die payload step).m.lasting = s.m.lasting :=
  (Block.bump_lasting ..).trans (State.ite_lasting (Block.send_lasting ..) ((Block.send_lasting ..).trans (Block.send_lasting ..)))

theorem State.sendDown_lasting (s : State) (g : Nat) (d : BitVec 512) (hops : List Hop) (typ param ext die : Nat) (payload : List Byte) (step : Nat) :
    (s.sendDown g d hops typ param ext die payload step).m.lasting = s.m.lasting := State.foldl_lasting (fun _ _ => State.sendRank_lasting ..) s

theorem State.writeHeld_lasting (s : State) (h : Held) : (s.writeHeld h).m.lasting = s.m.lasting := by
  unfold State.writeHeld
  split
  · exact (State.foldl_lasting (fun _ _ => State.ite_lasting rfl (State.devWrite_lasting ..)) _).trans (State.devWrite_lasting ..)
  · rfl

theorem State.completeHeld_lasting (s : State) (d : BitVec 512) (h : Held) (e : Int) : (s.completeHeld d h e).m.lasting = s.m.lasting :=
  (State.devWrite_lasting ..).trans (Block.ite_lasting (Block.addNorm_lasting ..) rfl)

theorem State.deliver_lasting (s : State) (d : BitVec 512) (r : Ready) (elems : List Int) (raised : Bool) : (s.deliver d r elems raised).m.lasting = s.m.lasting := by
  unfold State.deliver
  extract_lets h later new s₁ first old s₂ got h' s₃
  have h₁ : s₁.m.lasting = s.m.lasting := Block.countGrad_lasting ..
  split
  · exact State.ite_lasting ((Block.bump_lasting ..).trans h₁) ((State.raiseErr_lasting ..).trans h₁)
  · have h₃ : s₃.m.lasting = s.m.lasting := (State.writeHeld_lasting ..).trans ((Block.countGrad_lasting ..).trans h₁)
    exact State.ite_lasting ((State.completeHeld_lasting ..).trans h₃) h₃

theorem State.deliverReady_lasting (s : State) (g : Nat) (d : BitVec 512) (slice n : Nat) : (s.deliverReady g d slice n).m.lasting = s.m.lasting := by
  induction n generalizing s with
  | zero => rfl
  | succ n ih =>
    unfold State.deliverReady
    extract_lets next
    split
    · rfl
    · refine (ih _).trans (State.ite_lasting ((State.deliver_lasting ..).trans ?_) (State.deliver_lasting ..))
      exact (Block.countGrad_lasting ..).trans (Block.countGrad_lasting ..)

theorem State.passOn_lasting {root : State → BitVec 512 → List Hop → Operand → State} (hroot : ∀ s d hops o, (root s d hops o).m.lasting = s.m.lasting)
    (s : State) (g slice mb part : Nat) : (s.passOn g slice mb part root).m.lasting = s.m.lasting := by
  unfold State.passOn
  split
  · rfl
  · extract_lets hops ops kids s'
    split
    · rfl
    · refine State.ite_lasting rfl ?_
      split
      · exact State.raiseErr_lasting ..
      · split
        · exact State.sendRank_lasting ..
        · exact hroot ..

theorem State.rootQuarter_lasting (s : State) (d : BitVec 512) (hops : List Hop) (o : Operand) : (s.rootQuarter d hops o).m.lasting = s.m.lasting :=
  State.deliverReady_lasting ..

theorem State.answerRaise_lasting (s : State) (g : Nat) (d : BitVec 512) (slice mb : Nat) : (s.answerRaise g d slice mb).m.lasting = s.m.lasting := by
  refine State.foldl_lasting (fun s q => ?_) s
  exact State.passOn_lasting State.rootQuarter_lasting ..

theorem State.endFence_lasting (s : State) (g id : Nat) : (s.endFence g id).m.lasting = s.m.lasting := by
  unfold State.endFence
  extract_lets s'
  split
  · exact State.endWait_lasting ..
  · rfl

theorem State.requestRaise_lasting (s : State) (g : Nat) (d : BitVec 512) (hops : List Hop) (slice mb : Nat) (e : Int) :
    (s.requestRaise g d hops slice mb e).m.lasting = s.m.lasting := (State.sendDown_lasting ..).trans (Block.bump_lasting ..)

theorem State.rootPart_lasting (s : State) (d : BitVec 512) (hops : List Hop) (o : Operand) : (s.rootPart d hops o).m.lasting = s.m.lasting := by
  unfold State.rootPart
  extract_lets g s₁
  refine State.ite_lasting (State.ite_lasting rfl (State.ite_lasting ((State.endFence_lasting ..).trans (State.sendDown_lasting ..))
    ((Block.addScalar_lasting ..).trans (State.sendDown_lasting ..)))) (State.ite_lasting (State.rootQuarter_lasting ..) ?_)
  split
  · exact State.ite_lasting ((State.answerRaise_lasting ..).trans (State.requestRaise_lasting ..)) (State.deliverReady_lasting ..)
  · rfl

theorem State.progress_lasting (s : State) (g slice mb part : Nat) : (s.progress g slice mb part).m.lasting = s.m.lasting :=
  State.passOn_lasting State.rootPart_lasting ..

theorem State.issueScalars_lasting (s : State) : s.issueScalars.m.lasting = s.m.lasting := by
  unfold State.issueScalars
  extract_lets recs recs' s'
  split
  · exact Block.addScalar_lasting ..
  · refine State.foldl_lasting (fun s i => ?_) s'
    exact State.progress_lasting ..

theorem State.startBcast_lasting (s : State) (idx : Nat) (e : Bcast) : (s.startBcast idx e).m.lasting = s.m.lasting := by
  unfold State.startBcast
  split
  · rfl
  · exact (State.foldl_lasting (fun _ _ => State.sendDown_lasting ..) _).trans (Block.bandToken_lasting ..)

theorem State.startBcasts_lasting (s : State) : s.startBcasts.m.lasting = s.m.lasting := by
  refine State.foldl_lasting (fun s ⟨idx, e⟩ => ?_) s
  dsimp only
  split
  · rfl
  · exact State.ite_lasting (State.startBcast_lasting ..) rfl

/-! Commits and completions -/

theorem State.afterCommit_lasting (s : State) (updates : Bool) : (s.afterCommit updates).m.lasting = s.m.lasting := by
  have hs : (if updates then s.startBcasts else s).m.lasting = s.m.lasting := State.ite_lasting (State.startBcasts_lasting s) rfl
  exact State.ite_lasting ((State.issueScalars_lasting _).trans hs) hs

theorem State.commitCroft_lasting (s : State) (croft : Nat) : (s.commitCroft croft).m.lasting = s.m.lasting :=
  State.ite_lasting rfl ((State.afterCommit_lasting ..).trans ((Block.settleBcasts_lasting _).trans ((State.releaseWrites_lasting _).trans
    ((Block.commitEntries_lasting ..).trans (Block.foldl_lasting (fun _ _ => Block.releaseHeld_lasting ..) _)))))

theorem State.opDone_lasting (s : State) (croft i : Nat) : (s.opDone croft i).m.lasting = s.m.lasting := by
  have hs : (s.on (fun b => (b.completeOp croft i).settleStalls)).m.lasting = s.m.lasting := (Block.settleStalls_lasting _).trans (Block.completeOp_lasting ..)
  exact State.ite_lasting ((State.commitCroft_lasting ..).trans hs) hs

theorem State.moveDone_lasting (s : State) (croft i : Nat) : (s.moveDone croft i).m.lasting = s.m.lasting := by
  refine (State.opDone_lasting ..).trans ?_
  show (Block.onCroft _ croft _).lasting = s.m.lasting
  split
  · exact (Block.noteTransfer_lasting ..).trans (Block.moveDelays_lasting ..)
  · rfl

theorem State.pageSettled_lasting (s : State) (page : Nat) : (s.pageSettled page).m.lasting = s.m.lasting := by
  refine (State.foldl_lasting (fun s w => ?_) _).trans (State.foldl_lasting (fun s c => State.foldl_lasting (fun _ _ => State.moveDone_lasting ..) s) s)
  split
  · exact State.ite_lasting rfl (State.ite_lasting (State.endWait_lasting ..) rfl)
  · rfl

end Sys2Proof.Machine

/-! Parcels and their pages (O15, R272 to R277). -/
namespace Sys2Proof.Machine

/-! Bytes cleared (R273) -/

theorem Mem.clear_cons (c : Host.Cell) (m : Mem) (a n : Nat) :
    Mem.clear (c :: m) a n = if c.1 < a ∨ a + n ≤ c.1 then c :: Mem.clear m a n else Mem.clear m a n := by
  simp only [Mem.clear, List.filter_cons, Bool.or_eq_true, decide_eq_true_eq]

theorem Mem.read_clear_inside {a n x : Nat} (h : a ≤ x ∧ x < a + n) (m : Mem) : (m.clear a n).read x = 0 := by
  induction m with
  | nil => rfl
  | cons c m ih =>
    rw [Mem.clear_cons]
    split
    · have hc : c.1 ≠ x := by omega
      rwa [Mem.read_cons, if_neg hc]
    · exact ih

theorem Mem.read_clear_outside {a n x : Nat} (h : x < a ∨ a + n ≤ x) (m : Mem) : (m.clear a n).read x = m.read x := by
  induction m with
  | nil => rfl
  | cons c m ih =>
    rw [Mem.clear_cons, Mem.read_cons]
    split
    · rw [Mem.read_cons, ih]
    · have hc : c.1 ≠ x := by omega
      rw [if_neg hc, ih]

theorem State.foldl_clearHost {α : Type} (f : Block → α → Nat) (n : Nat) (xs : List α) (s : State) :
    ∃ host, xs.foldl (fun s x => s.clearHost (f s.m x) n) s = { s with mem := { s.mem with host := host } } := by
  induction xs generalizing s with
  | nil => exact ⟨s.mem.host, rfl⟩
  | cons x xs ih =>
    obtain ⟨host, hx⟩ := ih (s.clearHost (f s.m x) n)
    exact ⟨host, hx⟩

/-! PARCEL_CREATE (R273) -/

/-- What the map of pages says of a page but its frame. -/
def Page.placing (e : Page) : Nat × Nat × Nat × Bear := (e.page, e.parcel, e.tier, e.bear)

theorem Block.mapPages_placing (id home : Nat) (codec : Bool) (n first : Nat) (b : Block) :
    (b.mapPages id home codec n first).tiers.pages.map Page.placing
      = b.tiers.pages.map Page.placing ++ (List.range n).map (fun i => (first + i, id, home, Bear.clear)) := by
  induction n generalizing b first with
  | zero => simp [Block.mapPages]
  | succ n ih =>
    have hnext : (List.range n).map (fun i => (first + 1 + i, id, home, Bear.clear)) = (List.range n).map (fun i => (first + (i + 1), id, home, Bear.clear)) :=
      List.map_congr_left fun i _ => by rw [Nat.add_assoc, Nat.add_comm 1 i]
    rw [Block.mapPages, ih, hnext, List.range_succ_eq_map, List.map_cons, List.map_map, List.map_append, List.append_assoc]
    rfl

theorem Block.mapPages_parcels (id home : Nat) (codec : Bool) (n first : Nat) (b : Block) :
    (b.mapPages id home codec n first).tiers.parcels = b.tiers.parcels ∧ (b.mapPages id home codec n first).crofts = b.crofts := by
  induction n generalizing b first with
  | zero => exact ⟨rfl, rfl⟩
  | succ n ih => exact ih ..

section
variable {s : State} {h : Hdr}

/-- The parcel that PARCEL_CREATE makes has the lowest free PARCEL_ID (R273). -/
def Block.newParcel (b : Block) (base pages home : Nat) (pin codec : Bool) : Parcel :=
  { id := lowestFree (b.tiers.parcels.map (·.id)) b.tiers.parcels.length 0, base := base, pages := pages, codec := codec, pin := pin, home := home }

/-- The block with a parcel and its pages added. -/
def Block.addParcel (b : Block) (p : Parcel) : Block :=
  ({ b with tiers := { b.tiers with parcels := b.tiers.parcels ++ [p] } } : Block).mapPages p.id p.home p.codec p.pages (p.base / 65536)

/-- A PARCEL_CREATE within its rules: its pages are mapped and zero; of the rest, host memory alone may change. -/
theorem exec_parcelCreate {base pages home : Nat} (pin codec : Bool) (hacc : Accepts s 0x08) (hok : s.m.createBad base pages home = none)
    (hfit : pages ≤ s.m.framesFree home) :
    ∃ host, exec (.parcelCreate h base pages home pin codec) s
      = .next (({ (s.on (·.addParcel (s.m.newParcel base pages home pin codec))) with
          mem := { s.mem with parcel := s.mem.parcel.clear base (65536 * pages), host := host } } : State).finish h 0x08 0
            (BitVec.ofNat 128 (s.m.newParcel base pages home pin codec).id)) := by
  simp only [exec, execParcelCreate, State.host_of_accepts hacc, hok, if_neg (Nat.not_lt.mpr hfit)]
  split
  · obtain ⟨host, hclear⟩ := State.foldl_clearHost (fun b (e : Page) => b.hostAddr (65536 * e.frame)) 65536
      ((s.m.addParcel (s.m.newParcel base pages home pin codec)).tiers.pages.filter (fun e => e.parcel == (s.m.newParcel base pages home pin codec).id))
      ((s.clearParcel base (65536 * pages)).on (·.addParcel (s.m.newParcel base pages home pin codec)))
    exact ⟨host, congrArg (fun u : State => Host.Outcome.next (u.finish h 0x08 0 (BitVec.ofNat 128 (s.m.newParcel base pages home pin codec).id))) hclear⟩
  · exact ⟨s.mem.host, rfl⟩

/-! PARCEL_FREE (R276) -/

theorem exec_parcelFree {id : Nat} {p : Parcel} (hacc : Accepts s 0x09) (hp : s.m.parcel id = some p) (hbusy : s.m.parcelBusy id = false)
    (hcheck : s.m.checkParcel ≠ some id) : exec (.parcelFree h id) s = .next ((s.freeParcel p).finish h 0x09 0) := by
  simp only [exec, execParcelFree, State.host_of_accepts hacc, hp, hbusy, Bool.false_or, beq_iff_eq, if_neg hcheck]

theorem Block.parcel_id {b : Block} {id : Nat} {p : Parcel} (h : b.parcel id = some p) : p.id = id := by
  simpa using List.find?_some h

/-- The block without a parcel, its pages and the writes held for them. -/
def Block.dropParcel (b : Block) (p : Parcel) : Block :=
  let mine := (b.tiers.pages.filter (fun e => e.parcel == p.id)).map (·.page)
  { b with tiers := { b.tiers with parcels := b.tiers.parcels.filter (·.id != p.id), pages := b.tiers.pages.filter (·.parcel != p.id),
                                   heldWrites := b.tiers.heldWrites.filter (fun w => !mine.contains (pageOf w.address)) } }

/-- With no migration waited for, freeing a parcel leaves the parcels and pages of the others. -/
theorem State.freeParcel_lasting (hwaits : s.m.path.waits = []) (p : Parcel) : (s.freeParcel p).m.lasting = (s.m.dropParcel p).lasting := by
  unfold State.freeParcel
  rw [hwaits]
  exact State.foldl_lasting (fun s n => s.pageSettled_lasting n) _

theorem Block.dropParcel_parcel (b : Block) (p : Parcel) : (b.dropParcel p).parcel p.id = none := by
  refine List.find?_eq_none.mpr fun q hq => ?_
  simpa using (List.mem_filter.mp hq).2

theorem State.freeParcel_pages (hwaits : s.m.path.waits = []) (p : Parcel) : ∀ e ∈ (s.freeParcel p).m.tiers.pages, e.parcel ≠ p.id := by
  intro e he
  have hin : (e.page, e.parcel) ∈ (s.m.dropParcel p).tiers.pages.map (fun e => (e.page, e.parcel)) :=
    Block.pageParcels_of_lasting (State.freeParcel_lasting hwaits p) ▸ List.mem_map_of_mem he
  obtain ⟨e', he', heq⟩ := List.mem_map.mp hin
  have hother : e'.parcel ≠ p.id := by simpa using (List.mem_filter.mp he').2
  exact (Prod.mk.inj heq).2 ▸ hother

/-! PARCEL_MIGRATE (R277) -/

/-- The tiers beside the map of pages and the counter of frames: what the start of a migration leaves as it is. -/
def Block.besidePages (b : Block) : Tiers := { b.tiers with pages := [], frameCtr := 0 }

theorem Block.startMigration_besidePages (b : Block) (page tier : Nat) (force : Bool) : (b.startMigration page tier force).besidePages = b.besidePages := by
  unfold Block.startMigration
  split
  case h_1 => rfl
  case h_2 =>
    split
    · rfl
    · split
      · rw [Block.besidePages, Block.bump_tiers, Block.besidePages]
      · rfl

theorem Block.foldl_startMigration_besidePages (ns : List Nat) (tier : Nat) (b : Block) :
    (ns.foldl (fun b n => b.startMigration n tier) b).besidePages = b.besidePages := by
  induction ns generalizing b with
  | nil => rfl
  | cons n ns ih => exact (ih _).trans (b.startMigration_besidePages n tier false)

/-- What a module sends to the host for an operation is noted among its reads and nowhere else (R306). -/
theorem Block.hostRead_reads (b : Block) (croft i : Nat) (rs : List Range) : ∃ reads, b.hostRead croft i rs = { b with tiers := { b.tiers with reads := reads } } := by
  unfold Block.hostRead
  split
  · exact ⟨_, rfl⟩
  · exact ⟨b.tiers.reads, rfl⟩

theorem Block.foldl_hostRead_reads (croft : Nat) (rs : Nat → List Range) (ns : List Nat) (b : Block) :
    ∃ reads, ns.foldl (fun b n => b.hostRead croft n (rs n)) b = { b with tiers := { b.tiers with reads := reads } } := by
  induction ns generalizing b with
  | nil => exact ⟨b.tiers.reads, rfl⟩
  | cons n ns ih =>
    obtain ⟨reads, hn⟩ := b.hostRead_reads croft n (rs n)
    obtain ⟨reads', hns⟩ := ih (b.hostRead croft n (rs n))
    exact ⟨reads', hns.trans (by rw [hn])⟩

/-- The pages, of those that a PARCEL_MIGRATE names, that move: not on the move before, and on the move in `b`. -/
def Block.moving (b₀ b : Block) (ns : List Nat) : List Nat :=
  ns.filter (fun n => (b₀.page n).any (fun e => e.migrating.isNone) && (b.page n).any (fun e => e.migrating.isSome))

theorem exec_parcelMigrate {id tier first pages : Nat} {p : Parcel} (hacc : Accepts s 0x0B) (hp : s.m.parcel id = some p) (hpin : p.pin = false)
    (htier : 1 ≤ tier ∧ tier ≤ 3) (hfirst : first < p.pages) (hlast : first + pages ≤ p.pages) {ns : List Nat} {b : Block}
    (hns : ns = (List.range pages).map (fun i => p.base / 65536 + first + i)) (hb : b = ns.foldl (fun b n => b.startMigration n tier) s.m) :
    exec (.parcelMigrate h id tier first pages) s = .next (
      let u := s.on (fun _ => (s.m.moving b ns).foldl (fun b n => b.hostRead 192 n [(false, 65536 * n, 65536)]) b)
      if (s.m.moving b ns).isEmpty then u.finish h 0x0B 0 (setFld (0 : BitVec 128) 63 32 (pages - (s.m.moving b ns).length))
      else u.await h 0x0B (.migrate id tier (s.m.moving b ns) 0 (pages - (s.m.moving b ns).length))) := by
  have htier0 : (decide (tier = 0) || decide (3 < tier)) = false := by simp; omega
  have hmoving : (ns.filter (fun n => match s.m.page n with | some e => e.migrating.isNone | none => false)).filter
      (fun n => match b.page n with | some e => e.migrating.isSome | none => false) = s.m.moving b ns := by
    rw [List.filter_filter, Block.moving]
    refine List.filter_congr fun n _ => ?_
    cases s.m.page n <;> cases b.page n <;> simp [Bool.and_comm]
  subst hns hb
  simp only [exec, execParcelMigrate, State.host_of_accepts hacc, hp, hpin, Bool.false_eq_true, if_false, htier0, if_neg (Nat.not_le.mpr hfirst), if_neg (Nat.not_lt.mpr hlast)]
  rw [← hmoving]
  rfl

end

/-- Settles O15: what PARCEL_CREATE adds, what PARCEL_FREE leaves, and which pages PARCEL_MIGRATE waits for. -/
theorem parcelLifecycle : Obligations.ParcelLifecycle := by
  unfold Obligations.ParcelLifecycle
  intro s h _
  refine ⟨?create, ?free, ?migrate⟩
  case create =>
    intro base pages home pin codec hacc hok hfit
    obtain ⟨host, hrun⟩ := exec_parcelCreate (h := h) pin codec hacc hok hfit
    obtain ⟨hparcels, hcrofts⟩ := Block.mapPages_parcels (s.m.newParcel base pages home pin codec).id home codec pages (base / 65536)
      { s.m with tiers := { s.m.tiers with parcels := s.m.tiers.parcels ++ [s.m.newParcel base pages home pin codec] } }
    refine ⟨_, ?_, hrun⟩
    exact ⟨hparcels, Block.mapPages_placing .., fun a hlo hhi => Mem.read_clear_inside ⟨hlo, hhi⟩ _, fun a ha => Mem.read_clear_outside ha _, rfl, hcrofts⟩
  case free =>
    intro id p hacc hp hbusy hcheck hwaits _
    obtain rfl := Block.parcel_id hp
    exact ⟨_, ⟨(Block.parcel_of_lasting (State.freeParcel_lasting hwaits p) p.id).trans (s.m.dropParcel_parcel p), State.freeParcel_pages hwaits p,
      (State.freeParcel_keeps (r₀ := s) p ⟨rfl, fun hs => hs⟩).1⟩, exec_parcelFree hacc hp hbusy hcheck⟩
  case migrate =>
    intro id p tier first pages hacc hp hpin hlo hhi hfirst hlast ns b left
    have hrun := exec_parcelMigrate (h := h) hacc hp hpin ⟨hlo, hhi⟩ hfirst hlast (ns := ns) (b := b) rfl rfl
    have hleft : s.m.moving b ns = left := rfl
    rw [hleft] at hrun
    refine ⟨fun hnone => ?_, fun hsome => ?_⟩
    · rw [hrun, hnone]
      rfl
    · obtain ⟨reads, hreads⟩ := b.foldl_hostRead_reads 192 (fun n => [(false, 65536 * n, 65536)]) left
      have hkept : b.besidePages = s.m.besidePages := Block.foldl_startMigration_besidePages ns tier s.m
      have hparcels : b.tiers.parcels = s.m.tiers.parcels := (congrArg Tiers.parcels hkept :)
      have hheld : b.tiers.heldWrites = s.m.tiers.heldWrites := (congrArg Tiers.heldWrites hkept :)
      have hretired : b.tiers.retired = s.m.tiers.retired := (congrArg Tiers.retired hkept :)
      rw [hreads] at hrun
      refine ⟨_, hrun.trans (congrArg _ (if_neg (by simpa using hsome))), ⟨rfl, rfl, hparcels, hheld, hretired⟩, ?_⟩
      exact List.mem_append_right _ List.mem_cons_self

end Sys2Proof.Machine

/-! A restore and its image (O19, R521, R522). -/
namespace Sys2Proof.Machine

theorem Block.raiseC_lasting (b : Block) (code : Nat) : (b.raiseC code).lasting = b.lasting := Block.logC_lasting ..

section
variable {s : State} {h : Hdr} {id source : Nat} {image : List Byte}

/-- The image that RESTORE reads: of the host slots for SOURCE 2, and else as it came over the fabric (R521). -/
def State.restoreImage (s : State) (id source : Nat) (image : List Byte) : List Byte := if source = 2 then s.hostImage id else image

/-- The page records of an image (R519). -/
def imageRecs (img : List Byte) : List PageRec := pageRecs img (snapHead img 127 96) (64 + snapHead img 95 64)

/-- The checks that an image passes before its pages are written (R522). -/
structure State.TakesImage (s : State) (id : Nat) (img : List Byte) : Prop where
  enabled : flag s.m.desc.snap 3 = false
  free : s.m.snap.image = none
  whole : isImageOf img id = true
  sender : s.senderOk (snapHead img 63 50) = true
  almanac : some (snapHead img 511 448) = s.m.job.almanac.map (·.crc.toNat)
  pages : ∀ r ∈ imageRecs img, r.address % 65536 = 0 ∧ ∃ p, s.m.parcelAt r.address = some p ∧ s.m.excludedIds.contains p.id = false

/-- The state in which the image is read, after so many attempts made again at the host slots (R306, R524). -/
def State.restoring (s : State) (source tries : Nat) : State :=
  let u := s.on (fun b => { b with job := { b.job with restored := .failed } })
  if source = 2 then u.on (·.bump .retries tries) else u

theorem exec_restore (hacc : Accepts s 0x15) (hlo : 1 ≤ source) (hhi : source ≤ 3) (himg : s.TakesImage id (s.restoreImage id source image)) (m tries : Nat) :
    exec (.restore h id source m image tries) s = .next (
      let img := s.restoreImage id source image
      if 3 ≤ tries ∨ source = 2 ∧ s.m.dev.ideState = 2 then (s.restoring source 2).finish h 0x15 (if source = 2 then 8 else 0x30)
      else match (s.restoring source tries).writeRecs (imageRecs img) with
        | (u, some pages) => u.applyImage h img pages
        | (u, none) => (u.on (fun b => (b.bump .ioFailed).raiseC 0x28)).finish h 0x15 0x28) := by
  obtain ⟨henabled, hfree, hwhole, hsender, halmanac, hpages⟩ := himg
  have hsource : (decide (source = 0) || decide (3 < source)) = false := by simp; omega
  have himage : (if (source == 2) = true then s.hostImage id else image) = s.restoreImage id source image := by simp only [State.restoreImage, beq_iff_eq]
  have hrecs (img : List Byte) : pageRecs img (snapHead img 127 96) (64 + snapHead img 95 64) = imageRecs img := rfl
  simp only [exec, execRestore, State.host_of_accepts hacc, himage, hrecs, henabled, hfree, hsource, hwhole, hsender, halmanac, Option.isSome_none, Bool.or_self, Bool.not_true,
    bne_self_eq_false, Bool.false_eq_true, if_false]
  refine congrArg Host.Outcome.next ((if_neg ?_).trans ?_)
  · rw [Bool.not_eq_true, Bool.not_eq_false', List.all_eq_true]
    intro r hr
    obtain ⟨halign, p, hp, hin⟩ := hpages r hr
    simp only [hp, halign, hin, beq_self_eq_true, Bool.not_false, Bool.and_self]
  · by_cases hlost : 3 ≤ tries ∨ source = 2 ∧ s.m.dev.ideState = 2
    · simp only [hlost, if_true, Bool.or_eq_true, Bool.and_eq_true, decide_eq_true_eq, beq_iff_eq, State.on_m]
      rfl
    · simp only [hlost, if_false, Bool.or_eq_true, Bool.and_eq_true, decide_eq_true_eq, beq_iff_eq, State.on_m]
      rfl

end

theorem State.restoring_restored (s : State) (source tries : Nat) : (s.restoring source tries).m.job.restored = .failed := by
  unfold State.restoring
  split
  · exact congrArg Job.restored (Block.bump_job ..)
  · rfl

/-- Settles O19: the checks passed, the image is lost, or its tiles are read, or one fails. -/
theorem restoreReadsImage : Obligations.RestoreReadsImage := by
  unfold Obligations.RestoreReadsImage
  intro s h id source m image hacc henabled hfree hlo hhi img rs s' hwhole hsender halmanac hpages
  have hrun := exec_restore (h := h) (image := image) hacc hlo hhi ⟨henabled, hfree, hwhole, hsender, halmanac, hpages⟩ m
  have hkept (k : Nat) (hk : k < 3) (hide : ¬ (source = 2 ∧ s.m.dev.ideState = 2)) : ¬ (3 ≤ k ∨ source = 2 ∧ s.m.dev.ideState = 2) := by
    rintro (h3 | h2)
    · omega
    · exact hide h2
  refine ⟨fun u pages k hk hide hread => ?_, fun u k hk hide hread => ?_, fun k hk => ?_, fun k hsrc hide => ?_⟩
  · have hread' : (s.restoring source k).writeRecs (imageRecs (s.restoreImage id source image)) = (u, some pages) := hread
    rw [hrun]
    simp only [if_neg (hkept k hk hide), hread']
    rfl
  · have hread' : (s.restoring source k).writeRecs (imageRecs (s.restoreImage id source image)) = (u, none) := hread
    have hu : u.m.lasting = (s.restoring source k).m.lasting := by
      have h1 := State.writeRecs_lasting (s.restoring source k) (imageRecs (s.restoreImage id source image))
      rwa [hread'] at h1
    refine ⟨u.on (fun b => (b.bump .ioFailed).raiseC 0x28), ?_, ?_⟩
    · exact (Block.restored_of_lasting (((Block.raiseC_lasting ..).trans (Block.bump_lasting ..)).trans hu)).trans (s.restoring_restored source k)
    · rw [hrun]
      simp only [if_neg (hkept k hk hide), hread']
  · rw [hrun]
    simp only [if_pos (show 3 ≤ k ∨ source = 2 ∧ s.m.dev.ideState = 2 from .inl hk)]
    rfl
  · rw [hrun]
    simp only [if_pos (show 3 ≤ k ∨ source = 2 ∧ s.m.dev.ideState = 2 from .inr ⟨hsrc, hide⟩), if_pos hsrc]
    rfl

end Sys2Proof.Machine

/-! A packet in its turn (R324, R331, R343), and a WRITE that reaches no frame (O27). -/
namespace Sys2Proof.Machine

/-! What the way through the package changes (R24, R343) -/

/-- A block that differs in its die-to-die links and its counters alone. -/
def Block.LinksOnly (b b' : Block) : Prop := ∃ links counts, b' = { b with dieLinks := links, counts := counts }

theorem Block.LinksOnly.refl (b : Block) : b.LinksOnly b := ⟨b.dieLinks, b.counts, rfl⟩

theorem Block.LinksOnly.trans {a b c : Block} (hab : a.LinksOnly b) (hbc : b.LinksOnly c) : a.LinksOnly c := by
  obtain ⟨_, _, rfl⟩ := hab
  obtain ⟨links, counts, rfl⟩ := hbc
  exact ⟨links, counts, rfl⟩

theorem Block.linksOnly_bump (b : Block) (c : Counter) (k : Nat) : b.LinksOnly (b.bump c k) := by
  unfold Block.bump
  split
  · exact .refl b
  · exact ⟨b.dieLinks, _, rfl⟩

theorem Block.linksOnly_onPort {n : Nat} (hn : 32 ≤ n) (b : Block) (f : Port → Port) : b.LinksOnly (b.onPort n f) := by
  rw [Block.onPort, if_neg (Nat.not_lt.mpr hn)]
  exact ⟨_, b.counts, rfl⟩

theorem Block.linksOnly_foldl {α : Type} {f : Block → α → Block} {xs : List α} (hf : ∀ (b : Block), ∀ x ∈ xs, b.LinksOnly (f b x)) (b : Block) : b.LinksOnly (xs.foldl f b) := by
  induction xs generalizing b with
  | nil => exact .refl b
  | cons x xs ih => exact (hf b x List.mem_cons_self).trans (ih (fun b y hy => hf b y (List.mem_cons_of_mem x hy)) _)

theorem Block.linksOnly_emitSlots {n : Nat} (hn : 32 ≤ n) (b : Block) (xs : List (Bool × List Byte)) (k : Nat) : b.LinksOnly (b.emitSlots n xs k) := by
  induction k generalizing b xs with
  | zero => exact .refl b
  | succ k ih =>
    rw [Block.emitSlots]
    split
    · exact .refl b
    · exact ((b.linksOnly_onPort hn _).trans (Block.linksOnly_bump ..)).trans (ih ..)

theorem Block.linksOnly_crossLink {ends : Nat × Nat} (h1 : 32 ≤ ends.1) (h2 : 32 ≤ ends.2) (b : Block) (i : Nat) (p : Pkt) : b.LinksOnly (b.crossLink i ends p) :=
  (((b.linksOnly_emitSlots h1 ..).trans (Block.linksOnly_onPort h1 ..)).trans (Block.linksOnly_onPort h2 ..)).trans (Block.linksOnly_bump ..)

theorem le_of_mem_wayEnds {d : Nat} {ks : List Nat} {e : Nat × Nat} (h : e ∈ wayEnds d ks) : 32 ≤ e.1 ∧ 32 ≤ e.2 := by
  induction ks generalizing d with
  | nil => cases h
  | cons k ks ih =>
    rw [wayEnds] at h
    dsimp only at h
    split at h
    · rcases List.mem_cons.mp h with rfl | h
      · exact ⟨by omega, by omega⟩
      · exact ih h
    · rcases List.mem_cons.mp h with rfl | h
      · exact ⟨by omega, by omega⟩
      · exact ih h

theorem Block.linksOnly_carry (b : Block) (p : Pkt) (src dst : Nat) : b.LinksOnly (b.carry p src dst) :=
  Block.linksOnly_foldl (fun b x hx => b.linksOnly_crossLink (le_of_mem_wayEnds (List.of_mem_zip hx).2).1 (le_of_mem_wayEnds (List.of_mem_zip hx).2).2 x.1 p) b

/-! What owed credits change (R324) -/

/-- Each port of a block has the state of its link, and for the spare port what it stands for, as in another. -/
def Block.SamePorts (b b' : Block) : Prop := ∀ n, n < 32 → (b'.port n).linkState = (b.port n).linkState ∧ (b'.port n).standsFor = (b.port n).standsFor

theorem Block.oweCredit_samePorts {n : Nat} (hn : n < 32) (b : Block) (p : Pkt) : ∃ ports, b.oweCredit n p = { b with ports := ports } ∧ b.SamePorts (b.oweCredit n p) := by
  unfold Block.oweCredit
  dsimp only
  split
  · rw [Block.onPort, if_pos hn]
    refine ⟨_, rfl, fun k hk => ?_⟩
    simp only [Block.port, if_pos hk, modAt_eq_modify, List.getElem?_modify]
    split
    · cases b.ports[k]? <;> exact ⟨rfl, rfl⟩
    · cases b.ports[k]? <;> exact ⟨rfl, rfl⟩
  · exact ⟨b.ports, rfl, fun _ _ => ⟨rfl, rfl⟩⟩

/-- The block in which a packet that came by a port has crossed the package to its die, its slots owed to the peer. -/
def Block.crossed (b : Block) (port : Nat) (p : Pkt) : Block := (b.oweCredit port p).carry p (16 + ioDieOf port) p.dstDie

theorem Block.crossed_eq {port : Nat} (hport : port < 32) (b : Block) (p : Pkt) :
    ∃ ports links counts, b.crossed port p = { b with ports := ports, dieLinks := links, counts := counts } ∧ b.SamePorts (b.crossed port p) := by
  obtain ⟨ports, howe, hsame⟩ := b.oweCredit_samePorts hport p
  obtain ⟨links, counts, hcarry⟩ := (b.oweCredit port p).linksOnly_carry p (16 + ioDieOf port) p.dstDie
  refine ⟨ports, links, counts, hcarry.trans (by rw [howe]), fun n hn => ?_⟩
  have hports : (b.crossed port p).port n = (b.oweCredit port p).port n := by
    rw [Block.crossed, hcarry, Block.port, if_pos hn, Block.port, if_pos hn]
  rw [hports]
  exact hsame n hn

theorem Block.takesFrom_of_samePorts {b b' : Block} {port : Nat} (hport : port < 32) (h : b.SamePorts b') (hpower : b'.power = b.power) (p : Pkt) :
    b'.takesFrom port p = b.takesFrom port p := by
  obtain ⟨hup, -⟩ := h port hport
  obtain ⟨-, hspare⟩ := h 17 (by omega)
  simp only [Block.takesFrom, Block.carries, Block.listens, Port.isUp, hup, hspare, hpower]

/-! A packet in its turn is handed over (R331) -/

/-- The flow of a packet expects the next number, and its acknowledgement is due (R331, R332). -/
def Block.takeNext (b : Block) (p : Pkt) : Block :=
  b.setRx { b.rxFlow p.flow with next := ((b.rxFlow p.flow).next + 1) % 65536, held := [], sinceAck := (b.rxFlow p.flow).sinceAck + 1,
                                 firstUnacked := some ((b.rxFlow p.flow).firstUnacked.getD b.span) }

theorem taken_eq (s : State) (t port : Nat) (p : Pkt) : taken s t port p = s.on (fun b => ((b.advanceTo t).crossed port p).takeNext p) := by
  simp only [taken, Block.takeNext, Block.crossed, State.on]

section
variable {s : State} {t port : Nat} {p : Pkt}

theorem State.deliverTurn_alone (hheld : (s.m.rxFlow p.flow).held = []) (adderOk : Bool) (n : Nat) :
    s.deliverTurn port p adderOk (n + 1) = (s.on (·.takeNext p)).deliverPkt port p adderOk := by
  rw [State.deliverTurn]
  simp only [hheld, List.find?_nil, List.filter_nil]
  rfl

/-- What taking a packet keeps of what decides about packets. -/
theorem Block.rejects_taken (b : Block) (hport : port < 32) : (((b.advanceTo t).crossed port p).takeNext p).rejects p = b.rejects p := by
  obtain ⟨ports, links, counts, h, -⟩ := (b.advanceTo t).crossed_eq hport p
  rw [h]
  rfl

theorem dstDie_of_inTurn (h : InTurn s t port p) : p.dstDie < 19 := by
  obtain ⟨-, -, -, -, -, -, -, hrejects⟩ := h
  simp only [Block.rejects, Bool.or_eq_false_iff, decide_eq_false_iff_not] at hrejects
  omega

theorem State.arrive_inTurn (h : InTurn s t port p) (adderOk : Bool) :
    (s.on (·.advanceTo t)).arrive { port := port, pkt := p, adderOk := adderOk, since := (s.m.advanceTo t).span }
      = (s.on (fun b => (b.advanceTo t).crossed port p)).receive port p adderOk := by
  have hdie := dstDie_of_inTurn h
  obtain ⟨hport, htakes, hwaits, hdst, -⟩ := h
  obtain ⟨ports, howe, hsame⟩ := (s.m.advanceTo t).oweCredit_samePorts hport p
  have htakes' : ((s.m.advanceTo t).oweCredit port p).takesFrom port p = true :=
    (Block.takesFrom_of_samePorts hport hsame (by rw [howe]) p).trans htakes
  have hdst' : p.dstModule = ((s.m.advanceTo t).oweCredit port p).moduleId := by
    rw [howe]
    exact hdst
  have hentry : entryDie port = 16 + ioDieOf port := if_pos hport
  have hcross : ((s.m.advanceTo t).oweCredit port p).takesFrom port p && p.dstModule == ((s.m.advanceTo t).oweCredit port p).moduleId && Decidable.decide (p.dstDie < 19) := by
    rw [htakes', hdst', beq_self_eq_true, decide_eq_true hdie]
    rfl
  unfold State.arrive
  rw [State.on_m, if_neg (by rw [hwaits]; exact Bool.false_ne_true), if_neg (Nat.lt_irrefl _)]
  simp only [State.on, hcross, if_true, hentry]
  rfl

theorem State.receive_inTurn (h : InTurn s t port p) (htyp : p.typ ≠ 4) (adderOk : Bool) :
    (s.on (fun b => (b.advanceTo t).crossed port p)).receive port p adderOk = (taken s t port p).deliverPkt port p adderOk := by
  obtain ⟨hport, htakes, -, hdst, hintact, hseq, hheld, -⟩ := h
  obtain ⟨ports, links, counts, hcross, hsame⟩ := (s.m.advanceTo t).crossed_eq hport p
  have htakes' : ((s.m.advanceTo t).crossed port p).takesFrom port p = true := (Block.takesFrom_of_samePorts hport hsame (by rw [hcross]) p).trans htakes
  have hmodule : ((s.m.advanceTo t).crossed port p).moduleId = s.m.moduleId := by
    rw [hcross]
    rfl
  have hflow : ((s.m.advanceTo t).crossed port p).rxFlow p.flow = s.m.rxFlow p.flow := by
    rw [hcross]
    rfl
  have hturn : (s.m.rxFlow p.flow).turn p.seq = .now := by
    have hnow : (p.seq + 65536 - p.seq) % 65536 = 0 := by omega
    simp only [RxFlow.turn, ← hseq, hnow, beq_self_eq_true, if_true]
  unfold State.receive
  simp only [State.on_m, htakes', hmodule, hdst, hintact, hflow, hturn, Bool.not_true, bne_self_eq_false, Bool.false_eq_true, if_false, beq_iff_eq, htyp]
  have hheld' : ((s.on (fun b => (b.advanceTo t).crossed port p)).m.rxFlow p.flow).held = [] := by
    rw [State.on_m, hflow, hheld]
  rw [State.deliverTurn_alone hheld', taken_eq]
  simp only [State.on]

/-- A WRITE in its turn is written where its address says (R331). -/
theorem exec_write_inTurn (h : InTurn s t port p) (htyp : p.typ = 1) :
    exec (.write t port p) s = .next ((taken s t port p).devWrite p.address p.payload none true ((taken s t port p).m.elemsAt p.address)) := by
  obtain ⟨hport, -, -, -, -, -, -, hrejects⟩ := id h
  have hrejects' : (taken s t port p).m.rejects p = false := by rw [taken_eq, State.on_m, s.m.rejects_taken hport, hrejects]
  have hdeliver : (taken s t port p).deliverPkt port p true = (taken s t port p).devWrite p.address p.payload none true ((taken s t port p).m.elemsAt p.address) := by
    simp only [State.deliverPkt, hrejects', htyp, Bool.false_eq_true, if_false]
  have hmine : (p.typ == 1 || typeClass p.typ == none) = true := by rw [htyp]; rfl
  rw [← hdeliver, ← State.receive_inTurn h (by omega) true, ← State.arrive_inTurn h true]
  simp only [exec, execWrite, packetRow, hmine, if_true]
  rfl

/-! Writes to pages without a frame (R269) -/

theorem State.devWriteFrom_unmapped (s : State) (fuel a : Nat) (bs : List Byte) (owner : Option (Nat × Nat)) (post : Bool) (kind : TileElems)
    (h : ∀ x, a ≤ x → x < a + bs.length → s.m.page (pageOf x) = none) : s.devWriteFrom fuel a bs owner post kind = s := by
  induction fuel generalizing a bs with
  | zero => rfl
  | succ n ih =>
    rw [State.devWriteFrom]
    split
    · rfl
    case isFalse hbs =>
      have hlen : 0 < bs.length := List.length_pos_iff.mpr (by simpa using hbs)
      have hfirst : s.writePage a (bs.take (65536 - a % 65536)) owner post kind = s := by
        rw [State.writePage, h a (Nat.le_refl a) (by omega)]
      dsimp only
      rw [hfirst]
      refine ih _ _ fun x hlo hhi => h x (by omega) ?_
      rw [List.length_drop] at hhi
      omega

theorem State.devWrite_unmapped (s : State) (a : Nat) (bs : List Byte) (owner : Option (Nat × Nat)) (post : Bool) (kind : TileElems)
    (h : 2 ^ 51 ≤ a ∨ ∀ x, a ≤ x → x < a + bs.length → s.m.page (x / 65536) = none) : s.devWrite a bs owner post kind = s := by
  unfold State.devWrite
  split
  case isTrue hin =>
    have hbelow : a < 2 ^ 51 := by simpa [inParcel] using hin
    exact s.devWriteFrom_unmapped _ a bs owner post kind (h.resolve_left (Nat.not_le.mpr hbelow))
  case isFalse => rfl

end

/-- Settles O27: a packet in its turn is taken, and a write to pages without a frame does nothing. -/
theorem remoteWriteWithoutFrame : Obligations.RemoteWriteWithoutFrame := by
  unfold Obligations.RemoteWriteWithoutFrame
  intro s t port p hturn htyp hframe
  obtain ⟨ports, links, counts, hcross, -⟩ := (s.m.advanceTo t).crossed_eq hturn.1 p
  have hm : (taken s t port p).m.tiers = s.m.tiers ∧ (taken s t port p).m.crofts = s.m.crofts := by
    rw [taken_eq, State.on_m, hcross]
    exact ⟨rfl, rfl⟩
  obtain ⟨htiers, hcrofts⟩ := hm
  have hpages (n : Nat) : (taken s t port p).m.page n = s.m.page n := by rw [Block.page, htiers, Block.page]
  refine ⟨?_, by rw [taken_eq, State.on_mem], htiers, hcrofts⟩
  rw [exec_write_inTurn hturn htyp, State.devWrite_unmapped]
  simpa only [hpages] using hframe

end Sys2Proof.Machine

/-! What ends in the tiers at its own time (O47). -/
namespace Sys2Proof.Machine

/-! Counters and pages -/

theorem Block.count_bump_ne {k j : Counter} (h : j ≠ k) (b : Block) (n : Nat) : (b.bump j n).count k = b.count k := by
  have hlist : ∀ l : List (Counter × Nat), assocGet k (bumpList j n l) = assocGet k l := by
    intro l
    induction l with
    | nil => simp [bumpList, assocGet, h]
    | cons x xs ih =>
      rw [bumpList]
      split
      case isTrue hx => simp [assocGet, hx, h]
      case isFalse =>
        by_cases hk : x.1 = k
        · simp [assocGet, hk]
        · simpa [assocGet, hk] using ih
  unfold Block.bump
  split
  · rfl
  · exact congrArg (fun x => x.getD 0) (hlist b.counts)

/-- What the map of pages says of one page after a change to another, or to itself. -/
theorem Block.page_onPage {f : Page → Page} (hf : ∀ e, (f e).page = e.page) (b : Block) (n k : Nat) :
    (b.onPage n f).page k = (b.page k).map (fun e => if e.page == n then f e else e) := by
  have hkey : (fun e : Page => (if (e.page == n) = true then f e else e).page == k) = fun e => e.page == k := by
    funext e
    split
    · rw [hf]
    · rfl
  simp only [Block.page, Block.onPage, List.find?_map]
  exact congrArg (fun g => ((b.tiers.pages).find? g).map _) hkey

theorem Block.page_onPage_self {f : Page → Page} (hf : ∀ e, (f e).page = e.page) {b : Block} {n : Nat} {e : Page} (h : b.page n = some e) :
    (b.onPage n f).page n = some (f e) := by
  have hn : (e.page == n) = true := List.find?_some (p := fun e : Page => e.page == n) h
  rw [Block.page_onPage hf, h, Option.map_some, hn, if_pos rfl]

/-- Where a page is, and where it is going. -/
def Block.standing (b : Block) (n : Nat) : Option (Nat × Nat × Option (Nat × Nat)) := (b.page n).map (fun e => (e.tier, e.frame, e.migrating))

theorem State.refreshTile_standing (s : State) (tile : Nat) (kind : TileElems) (n : Nat) : (s.refreshTile tile kind).m.standing n = s.m.standing n := by
  have hheads (b : Block) (h : BitVec 64) (hf : ∀ e : Page, (if tile % 2 == 0 then { e with head0 := h } else { e with head1 := h } : Page).page = e.page) :
      (b.onPage (tile / 2) (fun e => if tile % 2 == 0 then { e with head0 := h } else { e with head1 := h })).standing n = b.standing n := by
    rw [Block.standing, Block.page_onPage hf, Option.map_map]
    refine congrArg (fun g => (b.page n).map g) (funext fun e => ?_)
    dsimp only [Function.comp_apply]
    split
    · split <;> rfl
    · rfl
  unfold State.refreshTile
  split
  · rfl
  · refine (hheads _ _ fun e => ?_).trans ?_
    · split <;> rfl
    · split <;> rfl

/-- A page whose migration is done stands in its new tier and frame (R277). -/
theorem State.switchPage_standing {s : State} {page tier frame : Nat} {e : Page} (h : s.m.page page = some e) (hmig : e.migrating = some (tier, frame)) (kind : Option TileElems) :
    (s.switchPage page kind).m.standing page = some (tier, frame, none) := by
  unfold State.switchPage
  simp only [h, hmig]
  rw [State.refreshTile_standing, State.refreshTile_standing]
  exact congrArg (Option.map _) (Block.page_onPage_self (f := fun p => { p with tier := tier, frame := frame, migrating := none }) (fun _ => rfl) h)

theorem Block.exists_page_of_standing {b : Block} {n tier frame : Nat} (h : b.standing n = some (tier, frame, none)) :
    ∃ e, b.page n = some e ∧ e.tier = tier ∧ e.frame = frame ∧ e.migrating = none := by
  obtain ⟨e, he, heq⟩ := Option.map_eq_some_iff.mp h
  obtain ⟨htier, hrest⟩ := Prod.mk.inj heq
  obtain ⟨hframe, hmig⟩ := Prod.mk.inj hrest
  exact ⟨e, he, htier, hframe, hmig⟩

/-- With the link's IDE stream not insecure, no access is kept from the host (R453). -/
theorem Block.insecureAccess_of_secure {b : Block} (h : b.dev.ideState ≠ 2) (reads writes : List Range) : b.insecureAccess reads writes = none := by
  rw [Block.insecureAccess, beq_eq_false_iff_ne.mpr h, if_neg Bool.false_ne_true]

section
variable {s : State} {t : Nat}

/-! Flushes of cache pages (R408, R409) -/

/-- Is a write held to the staging or to the frames of a flushed page? -/
def State.flushHeld (s : State) (r : Range × Range) : Bool :=
  s.m.tiers.heldWrites.any (fun w => meets r.1 (false, w.address, w.bytes.length) || meets r.2 (false, w.address, w.bytes.length))

/-- The state in which what a flush read is written to the frames of its page (R409). -/
def State.flushTo (u : State) (slot page tries : Nat) (r : Range × Range) : State :=
  (u.on (·.bump .retries tries)).devWrite r.2.2.1 (u.mem.parcel.readBytes r.1.2.1 r.1.2.2) none (!u.m.cache.before.contains (slot, page))

section
variable {slot tries : Nat} {f : Nat × Nat} {u : State}

theorem exec_cacheFlushDone (hu : u = s.on (fun b => b.advanceTo t)) (hf : u.m.cache.flushes.find? (fun f => f.1 == slot) = some f) :
    exec (.cacheFlushDone t slot tries) s = .next (
      let r := u.flushRanges slot f.2
      if u.flushHeld r || u.m.channelHeld [r.1, r.2] then u
      else if 3 ≤ tries || (u.m.insecureAccess [r.1] [r.2]).isSome then (u.on (fun b => ((b.bump .retries 2).bump .ioFailed).failedAt r.1.2.1)).tierErr [r.1]
      else if (u.flushTo slot f.2 tries r).flushHeld r then u.flushTo slot f.2 tries r else (u.flushTo slot f.2 tries r).on (·.pageFlushed slot f.2)) := by
  subst hu
  simp only [exec, execCacheFlushDone, hf, apply_ite Host.Outcome.next]
  rfl

theorem exec_cacheFlushDone_waits (hu : u = s.on (fun b => b.advanceTo t)) (hf : u.m.cache.flushes.find? (fun f => f.1 == slot) = some f) {r : Range × Range}
    (hr : u.flushRanges slot f.2 = r) (h : u.flushHeld r = true ∨ u.m.channelHeld [r.1, r.2] = true) : exec (.cacheFlushDone t slot tries) s = .next u := by
  rw [exec_cacheFlushDone hu hf, hr]
  exact congrArg _ (if_pos ((Bool.or_eq_true _ _).mpr h))

theorem exec_cacheFlushDone_free (hu : u = s.on (fun b => b.advanceTo t)) (hf : u.m.cache.flushes.find? (fun f => f.1 == slot) = some f) {r : Range × Range}
    (hr : u.flushRanges slot f.2 = r) (hheld : u.flushHeld r = false) (hchannel : u.m.channelHeld [r.1, r.2] = false) :
    exec (.cacheFlushDone t slot tries) s = .next (
      if 3 ≤ tries || (u.m.insecureAccess [r.1] [r.2]).isSome then (u.on (fun b => ((b.bump .retries 2).bump .ioFailed).failedAt r.1.2.1)).tierErr [r.1]
      else if (u.flushTo slot f.2 tries r).flushHeld r then u.flushTo slot f.2 tries r else (u.flushTo slot f.2 tries r).on (·.pageFlushed slot f.2)) := by
  have hfree : ¬ (u.flushHeld r || u.m.channelHeld [r.1, r.2]) = true := by
    rw [hheld, hchannel]
    exact Bool.false_ne_true
  rw [exec_cacheFlushDone hu hf, hr]
  exact congrArg _ (if_neg hfree)

theorem exec_cacheFlushDone_read (hu : u = s.on (fun b => b.advanceTo t)) (hf : u.m.cache.flushes.find? (fun f => f.1 == slot) = some f) {r : Range × Range}
    (hr : u.flushRanges slot f.2 = r) (hheld : u.flushHeld r = false) (hchannel : u.m.channelHeld [r.1, r.2] = false)
    (hhost : u.m.insecureAccess [r.1] [r.2] = none) (hk : tries < 3) : exec (.cacheFlushDone t slot tries) s
      = .next (if (u.flushTo slot f.2 tries r).flushHeld r then u.flushTo slot f.2 tries r else (u.flushTo slot f.2 tries r).on (·.pageFlushed slot f.2)) := by
  rw [exec_cacheFlushDone_free hu hf hr hheld hchannel, hhost, decide_eq_false (Nat.not_le.mpr hk)]
  rfl

end

theorem mem_insertNew {α : Type} [BEq α] [LawfulBEq α] (x : α) (l : List α) : x ∈ insertNew x l := by
  unfold insertNew
  split
  case isTrue h => exact List.contains_iff_mem.mp h
  case isFalse => exact List.mem_append_right _ List.mem_cons_self

/-- A page that is flushed leaves the flushes under way (R409). -/
theorem State.pageFlushed_done (w : State) (slot pg : Nat) : (w.on (·.pageFlushed slot pg)).mem = w.mem ∧ (slot, pg) ∈ (w.on (·.pageFlushed slot pg)).m.cache.flushed
    ∧ (w.on (·.pageFlushed slot pg)).m.cache.flushes = w.m.cache.flushes.erase (slot, pg) := ⟨rfl, mem_insertNew .., rfl⟩

theorem State.flushTo_flushes (u : State) (slot page tries : Nat) (r : Range × Range) : (u.flushTo slot page tries r).m.cache.flushes = u.m.cache.flushes :=
  Block.flushes_of_lasting ((State.devWrite_lasting ..).trans (Block.bump_lasting ..))

/-! Migrations (R277) -/

/-- Is a page kept from being read, or from being written in host memory (R306, R453)? -/
def State.unread (s : State) (page tier tries : Nat) : Bool :=
  3 ≤ tries || (s.m.insecureAccess [(false, 65536 * page, 65536)] []).isSome || (tier == 3 && s.m.dev.ideState == 2)

theorem exec_pageMigrationSwitch {page tier frame : Nat} {e : Page} {u : State} (hu : u = s.on (fun b => b.advanceTo t)) (he : u.m.page page = some e)
    (hmig : e.migrating = some (tier, frame)) (tries : Nat) :
    exec (.pageMigrationSwitch t page tries) s = .next (if (tier == 2 || e.tier == 2) && !u.m.waitingChannels.isEmpty then u
      else if u.unread page tier tries then u.pageUnread page
      else (((u.on (·.bump .retries tries)).switchPage page (u.m.switchKind page)).releaseWrites.pageSettled page).on (·.settleBcasts)) := by
  subst hu
  simp only [exec, execPageMigrationSwitch, he, hmig, apply_ite Host.Outcome.next]
  rfl

/-! Moves (R295, R299, R300) -/

/-- The block once a move of a queue has started (R295). -/
def Block.startMove (b : Block) (prefetch : Bool) (m : Move) : Block :=
  let b := { b with tiers := if prefetch then { b.tiers with prefetch := b.tiers.prefetch.erase m } else { b.tiers with offload := b.tiers.offload.erase m } }
  (b.onCroft m.croft (fun c => { c with moves := c.moves.filter (fun x => x.index != m.index) })).moveBegun m.croft m.index []
    (addDelay 0 (b.now - Nat.max m.since (b.notBefore m.op)) m.delays)

theorem Block.startMove_dev (b : Block) (prefetch : Bool) (m : Move) : (b.startMove prefetch m).dev = b.dev := by
  unfold Block.startMove Block.moveBegun
  obtain ⟨reads, h⟩ := Block.hostRead_reads _ m.croft m.index (moveReads (Block.op _ m.croft m.index))
  dsimp only
  rw [h]
  rfl

/-- A move that starts leaves its queue (R295). -/
theorem Block.startMove_queues (b : Block) (prefetch : Bool) (m : Move) :
    (b.startMove prefetch m).tiers.prefetch = (if prefetch then b.tiers.prefetch.erase m else b.tiers.prefetch)
      ∧ (b.startMove prefetch m).tiers.offload = (if prefetch then b.tiers.offload else b.tiers.offload.erase m) := by
  unfold Block.startMove Block.moveBegun
  obtain ⟨reads, h⟩ := Block.hostRead_reads _ m.croft m.index (moveReads (Block.op _ m.croft m.index))
  dsimp only
  rw [h]
  cases prefetch <;> exact ⟨rfl, rfl⟩

/-- An access of which every read and every word is in order, with the host at hand (R306, R453). -/
theorem State.accessed_clean (h : s.m.dev.ideState ≠ 2) (croft i : Nat) : s.accessed croft i {} = (s, true) := by
  have hnothing : s.on (fun b => b.correctedAt []) = s := rfl
  unfold State.accessed
  simp only [List.filter_nil, hnothing, Option.isSome_none, Bool.false_eq_true, if_false]
  rw [Block.insecureAccess_of_secure h]

theorem exec_squirrelMoveStart {prefetch : Bool} {m : Move} {u : State} (hu : u = s.on (fun b => b.advanceTo t))
    (hm : u.m.nextMove (if prefetch then u.m.tiers.prefetch else u.m.tiers.offload) = some m) (hdue : u.m.notBefore m.op ≤ u.m.now) (hbell : u.m.dev.bellDone = false)
    (hide : u.m.dev.ideState ≠ 2) :
    exec (.squirrelMoveStart t { prefetch := prefetch }) s = .next ((u.on (·.startMove prefetch m)).copyMove m.croft m.index) := by
  have hsecure : (u.on (·.startMove prefetch m)).m.dev.ideState ≠ 2 := by
    rwa [State.on_m, Block.startMove_dev]
  have haccess := State.accessed_clean hsecure m.croft m.index
  subst hu
  have hwait : ((decide ((s.on (fun b => b.advanceTo t)).m.now < (s.on (fun b => b.advanceTo t)).m.notBefore m.op)) || (s.on (fun b => b.advanceTo t)).m.dev.bellDone) = false := by
    rw [hbell, Bool.or_false, decide_eq_false_iff_not]
    exact Nat.not_lt.mpr hdue
  simp only [exec, execSquirrelMoveStart, hm, hwait, Bool.false_eq_true, if_false]
  exact congrArg (fun x : State × Bool => Host.Outcome.next (if x.2 then (x.1.copyMove m.croft m.index).on (·.retryDelay m.croft m.index {})
    else x.1.on (fun b => b.onCroft m.croft (fun c => { c with moves := c.moves.filter (fun x => x.index != m.index) })))) haccess

theorem exec_moveTilesWritten {c i : Nat} {m : Move} {u : State} (hu : u = s.on (fun b => b.advanceTo t))
    (hm : (u.m.croft c).moves.find? (fun m => m.index == i) = some m) (hpages : m.pages = [])
    (hqueues : ∀ x ∈ u.m.tiers.offload ++ u.m.tiers.prefetch, ¬(x.croft = c ∧ x.index = i)) :
    exec (.moveTilesWritten t c i) s = (if u.waitsOnTier c m.op then .next u
      else match (if u.m.tiers.reads.any (fun r => r.croft == c && r.index == i) then u.m.insecureAccess (moveReads m.op) [] else none) with
        | some a => .next ((u.on (fun b => b.onCroft c (fun x => { x with moves := x.moves.filter (fun y => y.index != i) }))).ioFailed c i a)
        | none => .next (u.moveDone c i)) := by
  have hqueued : (u.m.tiers.offload ++ u.m.tiers.prefetch).any (fun m => m.croft == c && m.index == i) = false :=
    List.any_eq_false.mpr fun x hx => by simpa using hqueues x hx
  have hwaits : ((u.m.tiers.offload ++ u.m.tiers.prefetch).any (fun m => m.croft == c && m.index == i) || !m.pages.isEmpty || u.waitsOnTier c m.op) = u.waitsOnTier c m.op := by
    rw [hqueued, hpages]
    rfl
  subst hu
  rw [← hwaits]
  simp only [exec, execMoveTilesWritten, hm] <;> rfl

/-! Retired pages and late reads (R290, R292, R306) -/

/-- A page in a retired frame, tried again with its third attempt failed, is counted as skipped (R292). -/
theorem Block.tryRetired_of_retired {b : Block} {page : Nat} {e : Page} (he : b.page page = some e) (htier : e.tier = 2) (hretired : b.tiers.retired.contains e.frame = true)
    (hmig : e.migrating = none) (tries : Nat) : b.tryRetired page tries =
      (let b := { b with tiers := { b.tiers with tried := assocSet page b.clk.own b.tiers.tried } }
      if 3 ≤ tries then (b.bump .retries 2).bump .migrateSkipped else (b.bump .retries tries).startMigration page 2 true) := by
  have hmoves : (e.tier != 2 || !b.tiers.retired.contains e.frame || e.migrating.isSome) = false := by
    rw [htier, hretired, hmig]
    rfl
  simp only [Block.tryRetired, he, hmoves, Bool.false_eq_true, if_false]

/-- A read of an operation that failed at its third attempt stops the croft, with the error of its writer, if it has one (R306). -/
theorem State.tierStop_eq_stopCroft (s : State) (c i : Nat) (rs : List Range) :
    ∃ (w : State) (x : ErrorRec), (x.cls = .t ∨ x.cls = .j) ∧ (x.cls = .j ↔ x.writer = none) ∧ x.code = 0x28 ∧ s.tierStop c i rs = w.stopCroft c i x := by
  unfold State.tierStop
  cases s.writerOf c rs with
  | none => exact ⟨s, _, .inr rfl, ⟨fun _ => rfl, fun _ => rfl⟩, rfl, rfl⟩
  | some w => exact ⟨s, _, .inl rfl, by simp, rfl, rfl⟩

/-- The block in which a late read is sent to the host again (R306). -/
def Block.readAgain (b : Block) (c : Nat) (r : HostRead) : Block :=
  (({ b with tiers := { b.tiers with reads := b.tiers.reads.map (fun (x : HostRead) =>
      if x == r then { x with attempts := x.attempts + 1, since := b.span } else x) } } : Block).bump .retries).onCroft c (fun x =>
    { x with moves := x.moves.map (fun (m : Move) => if m.index == r.index then { m with delays := addDelay 2 50000 m.delays } else m) })

theorem Block.readAgain_reads_length (b : Block) (c : Nat) (r : HostRead) : (b.readAgain c r).tiers.reads.length = b.tiers.reads.length := by
  rw [Block.readAgain, Block.onCroft_tiers, Block.bump_tiers]
  exact List.length_map _

theorem Block.readAgain_count (b : Block) (c : Nat) (r : HostRead) : (b.readAgain c r).count .retries = Nat.min (b.count .retries + 1) (2 ^ 64 - 1) := Block.count_bump_self ..

section
variable {c : Nat} {r : HostRead} {u : State}

theorem exec_completionTimeout_again (hu : u = s.on (fun b => b.advanceTo t)) (hr : u.m.tiers.reads.find? (fun r => r.croft == c && r.since + 50000 ≤ u.m.span) = some r)
    (hk : r.attempts < 3) : exec (.completionTimeout t c) s = .next (u.on (·.readAgain c r)) := by
  subst hu
  simp only [exec, execCompletionTimeout, hr, if_pos hk]
  rfl

theorem exec_completionTimeout_lost (hu : u = s.on (fun b => b.advanceTo t)) (hr : u.m.tiers.reads.find? (fun r => r.croft == c && r.since + 50000 ≤ u.m.span) = some r)
    (hk : 3 ≤ r.attempts) :
    ∃ (v w : State) (rs : List Range), w.mem = s.mem ∧ exec (.completionTimeout t c) s = .next (if c = 192 then w.migrateFailed r.index else v.tierStop c r.index rs) := by
  subst hu
  simp only [exec, execCompletionTimeout, hr, if_neg (Nat.not_lt.mpr hk), beq_iff_eq]
  refine ⟨_, _, _, ?_, (apply_ite Host.Outcome.next ..).symm⟩
  rfl

end
end

/-- Settles O47, event by event. -/
theorem storageEvents : Obligations.StorageEvents := by
  unfold Obligations.StorageEvents
  intro s t u
  refine ⟨?flush, ?migrated, ?prefetch, ?offload, ?written, ?retired, ?late⟩
  case flush =>
    intro slot f tries hf r held w
    refine ⟨fun h => exec_cacheFlushDone_waits (u := u) rfl hf (r := r) rfl h, fun hu hch h3 => ?_, fun hu hch hide hk => ?_⟩
    · rw [exec_cacheFlushDone_free (u := u) rfl hf (r := r) rfl hu hch, decide_eq_true h3]
      rfl
    · have hrun := exec_cacheFlushDone_read (u := u) rfl hf (r := r) rfl hu hch hide hk
      have hflushes := u.flushTo_flushes slot f.2 tries r
      have hw : w = u.flushTo slot f.2 tries r := rfl
      clear_value w
      subst hw
      obtain ⟨hmem, hflushed, herase⟩ := (u.flushTo slot f.2 tries r).pageFlushed_done slot f.2
      rw [hflushes] at herase
      refine ⟨fun hheld => ⟨_, hrun.trans (congrArg _ (if_neg ?_)), hmem, hflushed, herase⟩, fun hheld => hrun.trans (congrArg _ (if_pos hheld))⟩
      exact Bool.eq_false_iff.mp hheld
  case migrated =>
    intro page e tier frame tries he hmig w unread
    have hrun := exec_pageMigrationSwitch (s := s) (t := t) (u := u) rfl he hmig tries
    have hread : u.unread page tier tries = unread := rfl
    rw [hread] at hrun
    have hgo (h : (tier ≠ 2 ∧ e.tier ≠ 2) ∨ u.m.waitingChannels = []) : ((tier == 2 || e.tier == 2) && !u.m.waitingChannels.isEmpty) = false := by
      rcases h with ⟨h1, h2⟩ | h
      · simp [h1, h2]
      · simp [h]
    refine ⟨fun h hr => ?_, fun h hr => ?_, fun h hch => ?_, ?_⟩
    · rw [hrun, hgo h, hr]
      rfl
    · rw [hrun, hgo h, hr]
      rfl
    · rw [hrun, if_pos]
      simpa [hch] using h
    · have hpage : (u.on (·.bump .retries tries)).m.page page = some e := by
        rwa [State.on_m, Block.page, Block.bump_tiers, ← Block.page]
      exact Block.exists_page_of_standing (State.switchPage_standing hpage hmig _)
  case prefetch =>
    intro m hm hdue hbell hide
    exact ⟨_, exec_squirrelMoveStart rfl hm hdue hbell hide, rfl, (u.m.startMove_queues true m).1⟩
  case offload =>
    intro m hm hdue hbell hide
    exact ⟨_, exec_squirrelMoveStart rfl hm hdue hbell hide, rfl, (u.m.startMove_queues false m).2⟩
  case written =>
    intro c i m hm hpages hqueues
    have hrun := exec_moveTilesWritten (s := s) (t := t) (u := u) rfl hm hpages hqueues
    refine ⟨fun hwait hide => ?_, fun hwait => ?_⟩
    · rw [hrun, hwait, if_neg Bool.false_ne_true, Block.insecureAccess_of_secure hide, ite_self]
    · rw [hrun, hwait, if_pos rfl]
  case retired =>
    intro page tries last
    have hrun : exec (.retiredPageRetry t page tries) s
      = .next { u with m := if u.m.jobRuns || decide (u.m.clk.own < last + 10000000000) then u.m else u.m.tryRetired page tries } := rfl
    refine ⟨fun h => ?_, fun hjob hlast => ?_, fun e he htier hretired hmig => ⟨?_, fun hk => ?_⟩⟩
    · have hstay : (u.m.jobRuns || decide (u.m.clk.own < last + 10000000000)) = true := by simpa using h
      rw [hrun, if_pos hstay]
    · have hgo : (u.m.jobRuns || decide (u.m.clk.own < last + 10000000000)) = false := by simpa [hjob] using hlast
      rw [hrun, hgo]
      rfl
    · rw [Block.tryRetired_of_retired he htier hretired hmig]
      exact (Block.count_bump_self ..).trans (by rw [Block.count_bump_ne (by decide)]; rfl)
    · rw [Block.tryRetired_of_retired he htier hretired hmig]
      exact if_neg (Nat.not_le.mpr hk)
  case late =>
    intro c r hr
    refine ⟨fun hk => ⟨_, exec_completionTimeout_again (s := s) (t := t) (u := u) rfl hr hk, rfl, u.m.readAgain_count c r, u.m.readAgain_reads_length c r⟩, fun hk hc => ?_, fun hk hc => ?_⟩
    · obtain ⟨v, w, rs, -, hrun⟩ := exec_completionTimeout_lost (s := s) (t := t) (u := u) rfl hr hk
      obtain ⟨v', x, hcls, hwriter, hcode, hstop⟩ := v.tierStop_eq_stopCroft c r.index rs
      exact ⟨v', x, hcls, hwriter, hcode, by rw [hrun, if_neg hc, hstop]⟩
    · obtain ⟨v, w, rs, hmem, hrun⟩ := exec_completionTimeout_lost (s := s) (t := t) (u := u) rfl hr hk
      exact ⟨w, hmem, by rw [hrun, if_pos hc]⟩

end Sys2Proof.Machine

/-! The cellar's channels, the scrubber, and the deadlines of operands (O48). -/
namespace Sys2Proof.Machine

/-! Channels (R286, R287, R290) -/

section
variable {s : State} {t ch : Nat}

theorem exec_cellarCalibration {u : State} (hu : u = s.on (fun b => b.advanceTo t)) (hch : ch < 80)
    (hfree : ∀ x ∈ u.m.tiers.calibrating, u.m.span < x.2 + 400 → channelDie x.1 ≠ channelDie ch) :
    exec (.cellarCalibration t ch) s = .next (u.on (fun b => { b.delayMoves ch (fun _ => 400) with
      tiers := { b.tiers with calibrating := b.tiers.calibrating.filter (fun x => b.span < x.2 + 400) ++ [(ch, b.span)] } })) := by
  subst hu
  have hgo : (decide (80 ≤ ch) || ((s.m.advanceTo t).tiers.calibrating.filter (fun x => (s.m.advanceTo t).span < x.2 + 400)).any
      (fun x => channelDie x.1 == channelDie ch)) = false := by
    rw [decide_eq_false (Nat.not_le.mpr hch), Bool.false_or, List.any_eq_false]
    intro x hx
    obtain ⟨hin, hlive⟩ := List.mem_filter.mp hx
    simpa using hfree x hin (by simpa using hlive)
  simp only [exec, execCellarCalibration, atTime, State.on, hgo, Bool.false_eq_true, if_false] <;> rfl

theorem Block.startRetrain_eq {b : Block} (hch : ch < 80) (hfree : ∀ x ∈ b.tiers.retraining, x.1 ≠ ch) : b.startRetrain ch
    = ({ b with tiers := { b.tiers with retraining := b.tiers.retraining ++ [(ch, b.span)] } } : Block).bump (cellarItem (ch / 4) 4) := by
  have hgo : (decide (80 ≤ ch) || b.tiers.retraining.any (fun x => x.1 == ch)) = false := by
    rw [decide_eq_false (Nat.not_le.mpr hch), Bool.false_or, List.any_eq_false]
    intro x hx
    simpa using hfree x hx
  rw [Block.startRetrain, if_neg (by rw [hgo]; exact Bool.false_ne_true)]

theorem Block.mem_waitingChannels_of_retraining {b : Block} {x : Nat × Nat} (h : x ∈ b.tiers.retraining) : x.1 ∈ b.waitingChannels :=
  List.mem_append_left _ (List.mem_map_of_mem h)

theorem Block.mem_waitingChannels_of_calibrating {b : Block} {x : Nat × Nat} (h : x ∈ b.tiers.calibrating) (hlive : b.span < x.2 + 400) : x.1 ∈ b.waitingChannels :=
  List.mem_append_right _ (List.mem_map_of_mem (List.mem_filter.mpr ⟨h, by simpa using hlive⟩))

/-- The block once the retraining of a channel is done. -/
def Block.retrained (b : Block) (x : Nat × Nat) : Block :=
  { b.delayMoves x.1 (fun m => Nat.min (b.now - m.since) (b.span - x.2)) with tiers := { b.tiers with retraining := b.tiers.retraining.filter (fun y => y.1 != x.1) } }

theorem exec_cellarRetrainDone {u : State} (hu : u = s.on (fun b => b.advanceTo t)) (h : ∃ x ∈ u.m.tiers.retraining, x.1 = ch) :
    ∃ since, exec (.cellarRetrainDone t ch) s = .next (u.on (·.retrained (ch, since))).releaseWrites := by
  subst hu
  obtain ⟨x, hx, hch⟩ := h
  obtain ⟨y, hy⟩ : ∃ y, (s.m.advanceTo t).tiers.retraining.find? (fun x => x.1 == ch) = some y :=
    Option.isSome_iff_exists.mp (List.find?_isSome.mpr ⟨x, hx, by simpa using hch⟩)
  refine ⟨y.2, ?_⟩
  simp only [exec, execCellarRetrainDone, atTime, State.on, hy]
  rfl

end

/-! Frames that are retired (R289, R292) -/

theorem Block.startMigration_retired (b : Block) (page tier : Nat) (force : Bool) : (b.startMigration page tier force).tiers.retired = b.tiers.retired :=
  (congrArg Tiers.retired (b.startMigration_besidePages page tier force) :)

theorem Block.tryRetired_retired (b : Block) (page tries : Nat) : (b.tryRetired page tries).tiers.retired = b.tiers.retired := by
  unfold Block.tryRetired
  split
  · split
    · rfl
    · dsimp only
      split
      · rw [Block.bump_tiers, Block.bump_tiers]
      · rw [Block.startMigration_retired, Block.bump_tiers]
  · rfl

theorem Block.mem_retired_retire (b : Block) (frame package : Nat) : frame ∈ (b.retire frame package).tiers.retired := by
  unfold Block.retire
  split
  case isTrue h => exact List.contains_iff_mem.mp h
  case isFalse =>
    have hin : frame ∈ b.tiers.retired ++ [frame] := List.mem_append_right _ List.mem_cons_self
    dsimp only
    split
    · split
      · rwa [Block.bump_tiers, Block.bump_tiers]
      · rwa [Block.tryRetired_retired, Block.bump_tiers, Block.bump_tiers]
    · rwa [Block.bump_tiers, Block.bump_tiers]

theorem Block.logC_tiers_clk (b : Block) (e : ErrorRec) : (b.logC e).tiers = b.tiers ∧ (b.logC e).clk = b.clk := by
  unfold Block.logC
  split
  · exact ⟨rfl, rfl⟩
  · exact ⟨Block.bump_tiers .., Block.bump_clk ..⟩

/-- The third corrected error of a frame within 24 h retires it (R289). -/
theorem Block.mem_retired_correctedBurst {b : Block} {f off code : Nat} (hoff : off < 65536) (hcode : code ≠ 0)
    (hthird : 2 ≤ (b.tiers.corrected.filter (fun x => x.1 == f && decide (b.clk.own < x.2 + 86400000000000))).length) :
    f ∈ (b.correctedBurst (65536 * f + off) code).tiers.retired := by
  have hframe : (65536 * f + off) / 65536 = f := by omega
  obtain ⟨htiers, hclk⟩ := b.logC_tiers_clk { cls := .c, code := 0x35, at_ := b.now, port := none, cause := 5, package := some (cellarPackage (65536 * f + off)) }
  have hthree : 3 ≤ ((b.tiers.corrected.filter (fun x => decide (b.clk.own < x.2 + 86400000000000)) ++ [(f, b.clk.own)]).filter (fun y => y.1 == f)).length := by
    rw [List.filter_append, List.length_append, List.filter_filter]
    simpa using hthird
  unfold Block.correctedBurst
  simp only [beq_eq_false_iff_ne.mpr hcode, Bool.false_eq_true, if_false, hframe, Block.bump_tiers, Block.bump_clk, Block.raiseC, htiers, hclk, if_pos hthree]
  exact Block.mem_retired_retire ..

/-! What a scrub finds (R287, R306, R173) -/

theorem State.scrubStore_error (s : State) (c a : Nat) :
    ∃ e : ErrorRec, s.scrubStore c a = s.raiseErr e ∧ e.code = 0x25 ∧ e.croft = some c ∧ e.croftSide = true ∧ (e.cls = .t ∨ e.cls = .d) ∧ (e.cls = .d ↔ e.writer = none) := by
  unfold State.scrubStore
  cases s.writerOf c [(true, a / 8 * 8, 8)] with
  | none => exact ⟨_, rfl, rfl, rfl, rfl, .inr rfl, ⟨fun _ => rfl, fun _ => rfl⟩⟩
  | some w => exact ⟨_, rfl, rfl, rfl, rfl, .inl rfl, by simp⟩

theorem State.tierErr_error (s : State) (rs : List Range) :
    ∃ e : ErrorRec, s.tierErr rs = s.raiseErr e ∧ e.code = 0x28 ∧ (e.cls = .t ∨ e.cls = .j) ∧ (e.cls = .j ↔ e.writer = none) := by
  unfold State.tierErr
  cases s.writerOf 0 rs with
  | none => exact ⟨_, rfl, rfl, .inr rfl, ⟨fun _ => rfl, fun _ => rfl⟩⟩
  | some w => exact ⟨_, rfl, rfl, .inl rfl, by simp⟩

theorem exec_scrub_tier {s : State} {t tier f off : Nat} (h2 : tier ≠ 2) (h0 : tier ≠ 0) (pass : Bool) :
    ∃ (w : State) (rs : List Range), w.mem = s.mem ∧ exec (.scrub t tier f (.uncorrectable off) pass) s = .next (w.tierErr rs) := by
  let w := (s.on (fun b => (b.advanceTo t).bump .scrubPasses (b2n pass))).on (fun b => (b.bump .retries 2).bump .ioFailed)
  simp only [exec, execScrub, beq_eq_false_iff_ne.mpr h0, beq_eq_false_iff_ne.mpr h2, Bool.false_eq_true, if_false]
  split
  case h_1 e _ => exact ⟨w, [(false, 65536 * e.page + off, 1)], rfl, rfl⟩
  case h_2 => exact ⟨w, [], rfl, rfl⟩

/-! Deadlines of operands (R383, R386, R387) -/

/-- The block in which a wait past a deadline is noted (R387). -/
def Block.noteWait (b : Block) (w : MillWait) : Block :=
  if b.mill.waits.contains w then b else ({ b with mill := { b.mill with waits := b.mill.waits ++ [w] } } : Block).bump .waits

theorem Block.mem_noteWait (b : Block) (w : MillWait) : w ∈ (b.noteWait w).mill.waits := by
  unfold Block.noteWait
  split
  case isTrue h => exact List.contains_iff_mem.mp h
  case isFalse =>
    rw [Block.bump_mill]
    exact List.mem_append_right _ List.mem_cons_self

section
variable {s u : State} {t g slice mb part level due : Nat} {d : BitVec 512} {h : Hop} {ok : Bool}

theorem exec_millDeadline (hu : u = s.on (fun b => b.advanceTo t)) (hg : u.m.group g = some d) (hhop : (u.hops g d slice part).find? (fun h => !h.up && h.level == level) = some h)
    (hdue : u.m.millDeadline d g slice mb part level = some due) (hpast : due ≤ u.m.now) :
    exec (.millDeadline t g slice mb part level ok) s = match u.m.mill.nodes.find? (fun o => o.is g slice mb part h.rank && o.step == u.m.job.step) with
      | some o => if o.taken then .next u
          else .next ((u.on (fun b => (b.setOperand o { o with sub := true }).bump .substitutions)).takeOperand { o with sub := true } ok)
      | none => .next (u.on (·.noteWait { group := g, slice := slice, mb := mb, part := part, from_ := h.rank, since := due })) := by
  subst hu
  simp only [exec, execMillDeadline, hg, hhop, hdue, if_neg (Nat.not_lt.mpr hpast)]
  rfl

end

/-- Settles O48: channels, what the scrubber finds, and operands past their deadline. -/
theorem cellarScrubAndDeadlines : Obligations.CellarScrubAndDeadlines := by
  unfold Obligations.CellarScrubAndDeadlines
  intro s t u
  refine ⟨?calibration, ?retrain, ?retrained, ?scrub, ?deadline⟩
  case calibration =>
    intro ch hch hfree
    have hin : (ch, u.m.span) ∈ u.m.tiers.calibrating.filter (fun x => u.m.span < x.2 + 400) ++ [(ch, u.m.span)] :=
      List.mem_append_right _ List.mem_cons_self
    exact ⟨_, exec_cellarCalibration (u := u) rfl hch hfree, rfl, hin, Block.mem_waitingChannels_of_calibrating (x := (ch, u.m.span)) hin (Nat.lt_add_of_pos_right (by decide))⟩
  case retrain =>
    intro ch hch hfree
    have hretraining : (u.m.startRetrain ch).tiers.retraining = u.m.tiers.retraining ++ [(ch, u.m.span)] := by
      rw [Block.startRetrain_eq hch hfree, Block.bump_tiers]
    refine ⟨u.on (·.startRetrain ch), rfl, rfl, hretraining, Block.mem_waitingChannels_of_retraining (x := (ch, u.m.span)) ?_⟩
    rw [State.on_m, hretraining]
    exact List.mem_append_right _ List.mem_cons_self
  case retrained =>
    intro ch h
    obtain ⟨since, hrun⟩ := exec_cellarRetrainDone (s := s) (t := t) (u := u) rfl h
    refine ⟨_, hrun, rfl, fun x hx => ?_, rfl, rfl⟩
    simpa using (List.mem_filter.mp hx).2
  case scrub =>
    intro tier f off code pass hoff
    refine ⟨⟨_, rfl, rfl, rfl⟩, ⟨_, rfl, rfl, Block.mem_retired_retire ..⟩, ?_, fun hcode hthird => ⟨_, rfl, rfl, ?_⟩, ?_, fun h2 h0 => ?_⟩
    · simp only [exec, execScrub, beq_iff_eq]
      rfl
    · refine Block.mem_retired_correctedBurst hoff hcode ?_
      rw [State.on_m, Block.bump_tiers, Block.bump_clk]
      exact hthird
    · obtain ⟨e, herr, hrest⟩ := (u.on (fun b => b.bump .scrubPasses (b2n pass))).scrubStore_error f off
      exact ⟨e, congrArg Host.Outcome.next herr, hrest⟩
    · obtain ⟨w, rs, hmem, hrun⟩ := exec_scrub_tier (s := s) (t := t) (f := f) (off := off) h2 h0 pass
      obtain ⟨e, herr, hcode, hcls, hwriter⟩ := w.tierErr_error rs
      exact ⟨w, e, hrun.trans (congrArg _ herr), hmem, hcode, hcls, hwriter⟩
  case deadline =>
    intro g slice mb part level ok d h due hg hhop hdue hpast
    have hrun := exec_millDeadline (s := s) (t := t) (u := u) (ok := ok) rfl hg hhop hdue hpast
    refine ⟨fun o ho htaken => ?_, fun hnone => ?_⟩
    · rw [ho] at hrun
      exact ⟨_, hrun.trans (if_neg (by rw [htaken]; exact Bool.false_ne_true)), rfl, Block.count_bump_self ..⟩
    · rw [hnone] at hrun
      exact ⟨_, hrun, rfl, Block.mem_noteWait ..⟩

end Sys2Proof.Machine

/-! Packets in their turn: what each goes to (O25), and a WRITE within one page (O26). -/
namespace Sys2Proof.Machine

section
variable {s : State} {t port : Nat} {p : Pkt}

theorem State.rejects_taken (h : InTurn s t port p) : (taken s t port p).m.rejects p = false := by
  obtain ⟨hport, -, -, -, -, -, -, hrejects⟩ := h
  rw [taken_eq, State.on_m, s.m.rejects_taken hport, hrejects]

/-- A packet goes to the consumer of its TYPE (R330, R331). -/
def State.handOver (s : State) (port : Nat) (p : Pkt) (ok : Bool) (typ : Nat) : State :=
  match typ with
  | 1 => s.devWrite p.address p.payload none true (s.m.elemsAt p.address)
  | 8 => s.millArrive p ok
  | 9 => s.resultArrive p ok
  | 0x0A => s.bcastArrive p
  | 0x10 => s.crierArrive port p
  | 0x11 => s.bellArrive port p
  | _ => s.on (fun b => { b with fab := { b.fab with delivered := b.fab.delivered ++ [p] } })

theorem State.deliverPkt_of_accepted (h : s.m.rejects p = false) (ok : Bool) : s.deliverPkt port p ok = s.handOver port p ok p.typ := by
  rw [State.deliverPkt, if_neg (by rw [h]; exact Bool.false_ne_true)]
  rfl

/-- What a row brings in its turn is handed over in the state that has taken it (R331). -/
theorem packetRow_inTurn (h : InTurn s t port p) {k : Nat} (htyp : p.typ = k) (hk : k ≠ 4) (ok : Bool) {mine : Bool} (hmine : mine = true) :
    packetRow t port p ok mine s = (taken s t port p).handOver port p ok k := by
  rw [← htyp, ← State.deliverPkt_of_accepted (State.rejects_taken h), ← State.receive_inTurn h (htyp ▸ hk) ok, ← State.arrive_inTurn h ok]
  simp only [packetRow, hmine, if_true]
  rfl

end

/-- Settles O25: each row hands its packet over, and the packet's type says to whom. -/
theorem packetsAreHandedOver : Obligations.PacketsAreHandedOver := by
  unfold Obligations.PacketsAreHandedOver
  intro s t port p ok hturn u
  have hgoes {k : Nat} (htyp : p.typ = k) (hk : k ≠ 4) (ok : Bool) {mine : Bool} (hmine : mine = true) : packetRow t port p ok mine s = u.handOver port p ok k :=
    packetRow_inTurn hturn htyp hk ok hmine
  have hboth {k n : Nat} (htyp : p.typ = k) (hkind : (reportOf p).kind = n) : (p.typ == k && (reportOf p).kind == n) = true := by
    rw [htyp, hkind, beq_self_eq_true, beq_self_eq_true, Bool.and_true]
  refine ⟨fun h => ?_, fun h => ?_, fun h hpart => ?_, fun h hlo hhi => ?_, fun h hpart => ?_, fun h hpart => ?_, fun h => ?_, fun h hkind => ?_, fun h hkind => ?_,
    fun h hkind => ?_, fun h hkind => ?_, fun h => ?_⟩
  · exact congrArg Host.Outcome.next (hgoes h (by decide) true (beq_iff_eq.mpr h))
  · exact congrArg Host.Outcome.next (hgoes h (by decide) true (beq_iff_eq.mpr h))
  · exact congrArg Host.Outcome.next (hgoes h (by decide) ok (by simp [h]; omega))
  · exact congrArg Host.Outcome.next (hgoes h (by decide) ok (by simp [h, hlo, hhi]))
  · exact congrArg Host.Outcome.next (hgoes h (by decide) true (by simp [h, hpart]))
  · exact congrArg Host.Outcome.next (hgoes h (by decide) true (by simp [h, hpart]))
  · exact congrArg (fun v : State => Host.Outcome.next (s.judged ok v)) (hgoes h (by decide) true (beq_iff_eq.mpr h))
  · exact congrArg Host.Outcome.next (hgoes h (by decide) true (hboth h hkind))
  · exact congrArg Host.Outcome.next (hgoes h (by decide) true (hboth h hkind))
  · exact congrArg Host.Outcome.next (hgoes h (by decide) true (hboth h hkind))
  · exact congrArg Host.Outcome.next (hgoes h (by decide) true (hboth h hkind))
  · exact congrArg Host.Outcome.next (hgoes h (by decide) true (beq_iff_eq.mpr h))

/-! Receiving flows (R331) -/

theorem Block.rxFlow_key (b : Block) (k : FlowKey) : (b.rxFlow k).key = k := by
  rw [Block.rxFlow]
  cases h : b.fab.rx.find? (fun f => f.key == k) with
  | none => rfl
  | some f => exact beq_iff_eq.mp (List.find?_some (p := fun f : RxFlow => f.key == k) h)

theorem Block.rxFlow_setRx {f : RxFlow} {k : FlowKey} (hk : f.key = k) (b : Block) : (b.setRx f).rxFlow k = f := by
  subst hk
  have hnone : (b.fab.rx.filter (fun g => g.key != f.key)).find? (fun g => g.key == f.key) = none := by
    rw [List.find?_eq_none]
    intro g hg
    simpa using (List.mem_filter.mp hg).2
  have hfind : ((b.setRx f).fab.rx).find? (fun g => g.key == f.key) = some f := by
    simp only [Block.setRx, List.find?_append, hnone, List.find?_singleton, beq_self_eq_true, if_true, Option.none_or]
  rw [Block.rxFlow, hfind, Option.getD_some]

theorem Block.rxFlow_takeNext (b : Block) (p : Pkt) : ((b.takeNext p).rxFlow p.flow).next = ((b.rxFlow p.flow).next + 1) % 65536 := by
  rw [Block.takeNext, Block.rxFlow_setRx]
  exact b.rxFlow_key p.flow

theorem taken_keeps {port : Nat} (hport : port < 32) (s : State) (t : Nat) (p : Pkt) : (taken s t port p).m.tiers = s.m.tiers ∧ (taken s t port p).m.dev = s.m.dev
    ∧ (taken s t port p).m.crofts = s.m.crofts ∧ (taken s t port p).m.job = s.m.job ∧ (taken s t port p).mem = s.mem ∧ (taken s t port p).pending = s.pending := by
  obtain ⟨ports, links, counts, hcross, -⟩ := (s.m.advanceTo t).crossed_eq hport p
  rw [taken_eq, State.on_m, hcross]
  exact ⟨rfl, rfl, rfl, rfl, rfl, rfl⟩

theorem rxFlow_taken {s : State} {t port : Nat} {p : Pkt} (h : InTurn s t port p) : ((taken s t port p).m.rxFlow p.flow).next = (p.seq + 1) % 65536 := by
  obtain ⟨hport, -, -, -, -, hseq, -⟩ := h
  obtain ⟨ports, links, counts, hcross, -⟩ := (s.m.advanceTo t).crossed_eq hport p
  rw [taken_eq, State.on_m, Block.rxFlow_takeNext, hseq, hcross]
  rfl

/-! A write within one page that nothing holds (R269, R281) -/

/-- A state that differs in host memory and the tiers alone. -/
def State.TiersOnly (s u : State) : Prop := ∃ host tiers, u = { s with mem := { s.mem with host := host }, m := { s.m with tiers := tiers } }

theorem State.TiersOnly.trans {s u v : State} (hsu : s.TiersOnly u) (huv : u.TiersOnly v) : s.TiersOnly v := by
  obtain ⟨_, _, rfl⟩ := hsu
  obtain ⟨host, tiers, rfl⟩ := huv
  exact ⟨host, tiers, rfl⟩

theorem State.tiersOnly_refreshTile (s : State) (tile : Nat) (kind : TileElems) : s.TiersOnly (s.refreshTile tile kind) := by
  unfold State.refreshTile
  split
  · exact ⟨s.mem.host, s.m.tiers, rfl⟩
  · extract_lets codec bytes h s'
    have hs' : s.TiersOnly s' := by
      unfold s'
      split
      · exact ⟨_, s.m.tiers, rfl⟩
      · exact ⟨s.mem.host, s.m.tiers, rfl⟩
    exact hs'.trans ⟨s'.mem.host, _, rfl⟩

theorem pageFree_of_same {s u : State} {n : Nat} (htiers : u.m.tiers = s.m.tiers) (hdev : u.m.dev = s.m.dev) (hcrofts : u.m.crofts = s.m.crofts) (h : PageFree s n) : PageFree u n := by
  simpa only [PageFree, Block.page, Block.croft, htiers, hdev, hcrofts] using h

theorem State.readerHolds_of_pageFree {s : State} {page : Nat} (h : PageFree s page) (a n : Nat) (owner : Option (Nat × Nat)) : s.readerHolds a n owner = false := by
  obtain ⟨-, -, -, -, hjournal⟩ := h
  rw [State.readerHolds, Bool.and_eq_false_iff]
  refine .inr (List.any_eq_false.mpr fun c hc => ?_)
  rw [State.readsRange, hjournal c (List.mem_range.mp hc)]
  exact Bool.false_ne_true

theorem Block.channelHeld_of_pageFree {s : State} {page : Nat} (h : PageFree s page) (rs : List Range) : s.m.channelHeld rs = false := by
  obtain ⟨-, hretraining, hcalibrating, -, -⟩ := h
  rw [Block.channelHeld, Block.waitingChannels, hretraining, hcalibrating]
  rfl

/-- A write to a page that nothing holds puts its bytes there, and the headers of its tiles anew (R281, R282). -/
theorem State.writePage_of_pageFree {s : State} {a : Nat} (h : PageFree s (pageOf a)) (bs : List Byte) (post : Bool) (kind : TileElems) :
    (s.writeParcel a bs).TiersOnly (s.writePage a bs none post kind) := by
  have hreader := State.readerHolds_of_pageFree h a bs.length none
  have hchannel := Block.channelHeld_of_pageFree h [(false, a, bs.length)]
  obtain ⟨⟨e, hpage, hmig, hprot, hcopy, hhost⟩, -, -, hheld, -⟩ := h
  have hpageHolds : pageHolds e post = false := by simp [pageHolds, hmig, hprot, hcopy]
  have hsecure : ¬ (e.tier == 3 && s.m.dev.ideState == 2) = true := by simpa using hhost
  unfold State.writePage
  simp only [hpage, hreader, hpageHolds, hchannel, hheld, List.any_nil, Bool.or_false, Bool.false_eq_true, if_false, hsecure]
  split
  · exact State.tiersOnly_refreshTile ..
  · exact (State.tiersOnly_refreshTile ..).trans (State.tiersOnly_refreshTile ..)

/-- A write of bytes that lie within one page is one write there. -/
theorem State.devWrite_of_one_page {a : Nat} {bs : List Byte} (hbs : bs ≠ []) (hin : a + bs.length ≤ 2 ^ 51) (hpage : a / 65536 = (a + bs.length - 1) / 65536)
    (s : State) (owner : Option (Nat × Nat)) (post : Bool) (kind : TileElems) : s.devWrite a bs owner post kind = s.writePage a bs owner post kind := by
  have hlen : 0 < bs.length := List.length_pos_iff.mpr hbs
  have hroom : bs.length ≤ 65536 - a % 65536 := by omega
  have hparcel : inParcel a = true := decide_eq_true (by omega)
  have hempty : ¬ bs.isEmpty = true := by simpa using hbs
  have hdone (v : State) (k : Nat) : v.devWriteFrom (k + 1) (a + (65536 - a % 65536)) [] owner post kind = v := by
    rw [State.devWriteFrom, if_pos List.isEmpty_nil]
  rw [State.devWrite, if_pos hparcel, State.devWriteFrom, if_neg hempty]
  dsimp only
  rw [List.take_of_length_le hroom, List.drop_of_length_le hroom, hdone]

/-- Settles O26: the packet is taken, and its bytes are one write to the free page. -/
theorem remoteWriteIsVisible : Obligations.RemoteWriteIsVisible := by
  unfold Obligations.RemoteWriteIsVisible
  intro s t port p hwf hturn htyp hpayload hin hpage hfree
  have hparcel : s.mem.parcel.wf = true := by
    simp only [State.wf, Memory.wf, Bool.and_eq_true] at hwf
    exact hwf.1.1
  obtain ⟨htiers, hdev, hcrofts, hjob, hmem, hpending⟩ := taken_keeps hturn.1 s t p
  have hflow := rxFlow_taken hturn
  have hrun := (exec_write_inTurn hturn htyp).trans (congrArg _ (State.devWrite_of_one_page hpayload hin hpage ..))
  obtain ⟨host, tiers, hwrite⟩ := State.writePage_of_pageFree (pageFree_of_same htiers hdev hcrofts hfree) p.payload true ((taken s t port p).m.elemsAt p.address)
  generalize taken s t port p = v at *
  have hread (x : Nat) := Mem.read_writeBytes p.payload v.mem.parcel p.address x (hmem ▸ hparcel)
  refine ⟨_, hrun.trans (congrArg _ hwrite), fun x hlo hhi => ?_, fun x hout => ?_, (congrArg Memory.stores hmem : v.mem.stores = _), hpending, hcrofts, hjob, hflow⟩
  · exact (hread x).trans (if_pos ⟨hlo, hhi⟩)
  · exact ((hread x).trans (if_neg (by omega))).trans (by rw [hmem])

end Sys2Proof.Machine


/-! What is sent, acknowledged and sent again end to end (O30, R332, R333). -/
namespace Sys2Proof.Machine

/-! Fields of a packet's header (R329) -/

/-- A field that lies apart from the one written keeps its value (R10). -/
theorem fld_setFld_of_apart {n hi lo hi' lo' : Nat} (h : lo' ≤ hi') (hn : hi < n) (hapart : hi < lo' ∨ hi' < lo) (v : BitVec n) (x : Nat) :
    fld (setFld v hi' lo' x) hi lo = fld v hi lo := by
  refine bitsOf_eq_iff.mpr fun i hlo hhi => (getLsbD_setFld h (by omega) v x).trans (if_neg ?_)
  omega

section
variable (dst dstDie src srcDie : Nat) (urgent : Bool) (typ addr param job ext : Nat) (payload : List Byte)

theorem Pkt.seal_typ (p : Pkt) : p.seal.typ = p.typ := fld_setFld_of_apart (by decide) (by decide) (.inl (by decide)) ..

theorem Pkt.seal_urgent (p : Pkt) : p.seal.urgent = p.urgent := congrArg (· == 1) (fld_setFld_of_apart (by decide) (by decide) (.inl (by decide)) ..)

theorem mkPkt_typ : (mkPkt dst dstDie src srcDie urgent typ addr param job ext payload).typ = typ % 64 := by
  change _ = typ % 2 ^ (163 + 1 - 158)
  simp (disch := omega) only [mkPkt, Pkt.typ, Pkt.fld, fld_setFld_of_apart, fld_setFld]

theorem mkPkt_urgent : (mkPkt dst dstDie src srcDie urgent typ addr param job ext payload).urgent = urgent := by
  simp (disch := omega) only [mkPkt, Pkt.urgent, Pkt.fld, fld_setFld_of_apart, fld_setFld]
  cases urgent <;> rfl

end

/-! Packets that leave (R322, R331, R333) -/

/-- A block that differs in its ports, its die-to-die links, its counters and its flows alone. -/
def Block.SendsOnly (b b' : Block) : Prop := ∃ ports links counts fab, b' = { b with ports := ports, dieLinks := links, counts := counts, fab := fab }

theorem Block.SendsOnly.refl (b : Block) : b.SendsOnly b := ⟨b.ports, b.dieLinks, b.counts, b.fab, rfl⟩

theorem Block.SendsOnly.trans {a b c : Block} (hab : a.SendsOnly b) (hbc : b.SendsOnly c) : a.SendsOnly c := by
  obtain ⟨_, _, _, _, rfl⟩ := hab
  obtain ⟨ports, links, counts, fab, rfl⟩ := hbc
  exact ⟨ports, links, counts, fab, rfl⟩

theorem Block.SendsOnly.foldl {α : Type} {f : Block → α → Block} {xs : List α} (hf : ∀ (b : Block) x, b.SendsOnly (f b x)) (b : Block) : b.SendsOnly (xs.foldl f b) := by
  induction xs generalizing b with
  | nil => exact .refl b
  | cons x xs ih => exact (hf b x).trans (ih _)

theorem Block.LinksOnly.sendsOnly {b b' : Block} (h : b.LinksOnly b') : b.SendsOnly b' := by
  obtain ⟨links, counts, rfl⟩ := h
  exact ⟨b.ports, links, counts, b.fab, rfl⟩

theorem Block.sendsOnly_bump (b : Block) (c : Counter) (k : Nat) : b.SendsOnly (b.bump c k) := (b.linksOnly_bump c k).sendsOnly

theorem Block.sendsOnly_onPort (b : Block) (n : Nat) (f : Port → Port) : b.SendsOnly (b.onPort n f) := by
  unfold Block.onPort
  split
  · exact ⟨_, b.dieLinks, b.counts, b.fab, rfl⟩
  · exact ⟨b.ports, _, b.counts, b.fab, rfl⟩

theorem Block.sendsOnly_leaveBy (b : Block) (n : Nat) (p : Pkt) : b.SendsOnly (b.leaveBy n p) := by
  unfold Block.leaveBy
  split
  · exact b.sendsOnly_bump ..
  · exact b.sendsOnly_onPort ..

theorem Block.sendsOnly_carry_leaveBy (b : Block) (p : Pkt) (src dst n : Nat) : b.SendsOnly ((b.carry p src dst).leaveBy n p) :=
  (b.linksOnly_carry p src dst).sendsOnly.trans (Block.sendsOnly_leaveBy ..)

theorem Block.sendsOnly_forward (b : Block) (p : Pkt) (die : Nat) (edge : Option (BitVec 16)) : b.SendsOnly (b.forward p die edge) := by
  unfold Block.forward
  split
  · split
    · exact b.sendsOnly_carry_leaveBy ..
    · exact .refl b
  · exact b.sendsOnly_bump ..

theorem Block.sendsOnly_depart (b : Block) (q : Pkt) (edge : Option (BitVec 16)) (port : Option Nat) : b.SendsOnly (b.depart q edge port) := by
  unfold Block.depart
  split
  · split
    · split
      · exact b.sendsOnly_carry_leaveBy ..
      · exact .refl b
    · exact b.sendsOnly_bump ..
  · exact b.sendsOnly_forward ..

theorem Block.sendsOnly_launch (b : Block) (q : Pkt) (io : Nat) (edge : Option (BitVec 16)) (port : Option Nat) : b.SendsOnly (b.launch q io edge port) :=
  Block.SendsOnly.trans ⟨b.ports, b.dieLinks, b.counts, _, rfl⟩ (Block.sendsOnly_depart ..)

theorem Block.sendsOnly_drainBacklog (b : Block) : b.SendsOnly b.drainBacklog := by
  refine Block.SendsOnly.trans ⟨b.ports, b.dieLinks, b.counts, _, rfl⟩ (Block.SendsOnly.foldl (fun b x => ?_) _)
  split
  · exact ⟨b.ports, b.dieLinks, b.counts, _, rfl⟩
  · exact ((b.sendsOnly_launch ..).trans (Block.sendsOnly_bump ..)).trans (Block.sendsOnly_bump ..)

theorem Block.SendsOnly.imageWrite {b b' : Block} (h : b.SendsOnly b') (p : Pkt) : b'.imageWrite p = b.imageWrite p := by
  obtain ⟨ports, links, counts, fab, rfl⟩ := h
  rfl

theorem Block.drainBacklog_of_empty {b : Block} (h : b.fab.backlog = []) : b.drainBacklog.fab = b.fab := by
  rw [Block.drainBacklog, h]
  dsimp only [List.foldl_nil]
  rw [← h]

/-! The rows of R332 and R333 -/

section
variable {s : State} {t seq : Nat} {k : FlowKey} {n : BitVec 16}

theorem exec_e2eAck : exec (.e2eAck t k n) s = .next ((s.on (·.advanceTo t)).acknowledge k n.toNat) := rfl

/-- The packets of a flow that an acknowledgement covers leave the end-to-end buffer (R333). -/
def Block.acked (b : Block) (k : FlowKey) (seq : Nat) : Block :=
  { b with fab := { b.fab with e2e := b.fab.e2e.filter (fun e => !(e.flow == k && covers seq e.seq)), lost := b.fab.lost.filter (fun x => !(x.1 == k && covers seq x.2)) } }

theorem State.acknowledge_eq : s.acknowledge k seq = ((s.on (·.acked k seq)).on (·.drainBacklog.fabricTraffic.completeImage)).sendMarkers := by
  simp only [State.acknowledge, State.on, Block.acked]

theorem Block.mem_acked {b : Block} {e : E2e} : e ∈ (b.acked k seq).fab.e2e ↔ e ∈ b.fab.e2e ∧ ¬ (e.flow = k ∧ (seq + 65536 - e.seq) % 65536 < 32768) := by
  rw [Block.acked, List.mem_filter, Bool.not_eq_true', ← Bool.not_eq_true, Bool.and_eq_true, beq_iff_eq, covers, decide_eq_true_eq]

theorem RxFlow.ackDue_iff {f : RxFlow} {now : Nat} : f.ackDue now = true ↔ 64 ≤ f.sinceAck ∨ ∃ t0, f.firstUnacked = some t0 ∧ t0 + 2000 ≤ now := by
  rw [RxFlow.ackDue]
  cases f.firstUnacked <;> simp

theorem exec_e2eAckSend {f : RxFlow} (hf : s.m.fab.rx.find? (fun f => f.key == k) = some f) {u : State} (hu : u = s.on (·.advanceTo t)) :
    exec (.e2eAckSend t k) s = .next (if f.ackDue u.m.span
      then u.on (fun b => (b.setRx { f with sinceAck := 0, firstUnacked := none }).forward (b.ackPkt f) k.dstDie) else u) := by
  have hkey : f.key = k := beq_iff_eq.mp (List.find?_some (p := fun f : RxFlow => f.key == k) hf)
  subst hu
  simp only [exec, execE2eAckSend, atTime, State.on, Block.advanceTo_fab, hf, hkey]
  split <;> rfl

theorem Block.ackPkt_typ (b : Block) (f : RxFlow) : (b.ackPkt f).typ = 4 := by
  rw [Block.ackPkt, Pkt.seal_typ, mkPkt_typ]

theorem Block.ackPkt_urgent (b : Block) (f : RxFlow) : (b.ackPkt f).urgent = true := by
  rw [Block.ackPkt, Pkt.seal_urgent, mkPkt_urgent]

/-- A packet of the end-to-end buffer is sent once more (R333). -/
def Block.countAgain (b : Block) (e : E2e) : Block :=
  ({ b with fab := { b.fab with e2e := b.fab.e2e.map (fun x => if x = e then { e with sentAt := b.span, sends := e.sends + 1 } else x) } } : Block).bump .e2eRetx

/-- A packet sent four times leaves the end-to-end buffer, and those that waited for its room go on (R333). -/
def Block.giveUp (b : Block) (e : E2e) : Block :=
  ({ b with fab := { b.fab with e2e := b.fab.e2e.erase e, lost := b.fab.lost ++ [(e.flow, e.seq)] } } : Block).drainBacklog

theorem exec_e2eRetransmit {e : E2e} (he : s.m.fab.e2e.find? (fun e => e.flow == k && e.seq == n.toNat) = some e) {u : State} (hu : u = s.on (·.advanceTo t)) :
    exec (.e2eRetransmit t k n) s =
      if u.m.span < e.sentAt + 20000 then .next u
      else if e.sends < 4 then .next (u.on (fun b => (b.countAgain e).depart e.pkt e.edge e.port))
      else .next ((if (u.m.giveUp e).imageWrite e.pkt then (u.on (·.giveUp e)).abandonImage 4 else u.on (·.giveUp e)).raiseErr
        { cls := .j, code := 0x30, at_ := 0, named := some e.pkt.dstModule }) := by
  have he' : u.m.fab.e2e.find? (fun e => e.flow == k && e.seq == n.toNat) = some e := by rw [hu]; exact he
  simp only [exec, execE2eRetransmit, ← hu]
  rw [he']
  dsimp only
  split
  · rfl
  · split
    · simp only [beq_iff_eq]
      rfl
    · rfl

theorem Block.imageWrite_giveUp (b : Block) (e : E2e) (p : Pkt) : (b.giveUp e).imageWrite p = b.imageWrite p :=
  (Block.sendsOnly_drainBacklog _).imageWrite p

theorem Block.giveUp_e2e {b : Block} (h : b.fab.backlog = []) (e : E2e) : (b.giveUp e).fab.e2e = b.fab.e2e.erase e := by
  rw [Block.giveUp, Block.drainBacklog_of_empty]
  exact h

theorem Block.mem_countAgain {b : Block} {e : E2e} (h : e ∈ b.fab.e2e) : { e with sentAt := b.span, sends := e.sends + 1 } ∈ (b.countAgain e).fab.e2e := by
  rw [Block.countAgain, Block.bump_fab]
  exact List.mem_map.mpr ⟨e, h, if_pos rfl⟩

theorem Block.countAgain_count (b : Block) (e : E2e) : (b.countAgain e).count .e2eRetx = Nat.min (b.count .e2eRetx + 1) (2 ^ 64 - 1) := Block.count_bump_self ..

end

/-- Settles O30: the end-to-end buffer loses what is acknowledged, and sends again what is not. -/
theorem endToEndBuffer : Obligations.EndToEndBuffer := by
  unfold Obligations.EndToEndBuffer
  intro s t k n u
  refine ⟨⟨exec_e2eAck.trans (congrArg _ State.acknowledge_eq), rfl, fun e => Block.mem_acked⟩, fun f hf => ⟨fun hdue => ?_, fun hfew hearly => ?_, Block.ackPkt_typ .., Block.ackPkt_urgent .., rfl⟩,
    fun e he => ⟨fun hearly => ?_, fun hlate hsends => ?_, fun hlate hsends => ?_⟩⟩
  · rw [exec_e2eAckSend hf rfl, if_pos (RxFlow.ackDue_iff.mpr hdue)]
  · rw [exec_e2eAckSend hf rfl, if_neg]
    rintro hdue
    obtain hmany | ⟨t0, hsince, hlate⟩ := RxFlow.ackDue_iff.mp hdue
    · omega
    · exact absurd hlate (Nat.not_le.mpr (hearly t0 hsince))
  · rw [exec_e2eRetransmit he rfl, if_pos hearly]
  · have hin : e ∈ u.m.fab.e2e := List.mem_of_find?_eq_some he
    exact ⟨by rw [exec_e2eRetransmit he rfl, if_neg (Nat.not_lt.mpr hlate), if_pos hsends]; rfl, Block.mem_countAgain hin, Block.countAgain_count u.m e⟩
  · refine ⟨_, fun hother => ?_, by rw [exec_e2eRetransmit he rfl, if_neg (Nat.not_lt.mpr hlate), if_neg (Nat.not_lt.mpr hsends)]⟩
    have himage : ¬ (u.m.giveUp e).imageWrite e.pkt = true := by
      rw [Block.imageWrite_giveUp, Bool.not_eq_true]
      exact hother
    rw [if_neg himage]
    exact ⟨rfl, fun hempty => Block.giveUp_e2e (b := u.m) hempty e⟩

end Sys2Proof.Machine


/-! Neither clock goes back (O34, R346, R348, R353). -/
namespace Sys2Proof.Machine

/-- What a clock runs within 10 ppm of the own clock's rate (R353). -/
theorem Clk.run_steered {c : Clk} (href : c.refRate = 0) (hfrac : c.frac < 1000000000) (hlo : -10000 ≤ c.ppsRate) (hhi : c.ppsRate ≤ 10000) (n : Nat) :
    100000 * ((c.run n).fab - c.fab) ≤ 1600016 * n + 100000 ∧ 1599984 * n ≤ 100000 * ((c.run n).fab - c.fab + 1) := by
  have hrate : 15999840000 ≤ c.rate ∧ c.rate ≤ 16000160000 := by
    unfold Clk.rate
    rw [href]
    split <;> omega
  obtain ⟨hslow, hfast⟩ := hrate
  have hmin : 15999840000 * n ≤ c.rate * n := Nat.mul_le_mul_right n hslow
  have hmax : c.rate * n ≤ 16000160000 * n := Nat.mul_le_mul_right n hfast
  have hfab : (c.run n).fab - c.fab = (c.rate * n + c.frac) / 1000000000 := Nat.add_sub_cancel_left ..
  rw [hfab]
  omega

/-- Two moves of the clock are one. -/
theorem Block.advanceTo_advanceTo (b : Block) {t t' : Nat} (h : t ≤ t') : (b.advanceTo t).advanceTo t' = b.advanceTo t' := by
  have hown : max (max b.clk.own t) t' = max b.clk.own t' := by omega
  have hruns : (b.clk.run (t - b.clk.own)).run (t' - max b.clk.own t) = b.clk.run (t' - b.clk.own) := by
    rw [Clk.run_run]
    congr 1
    omega
  have hmid : b.clk.fab ≤ (b.clk.run (t - b.clk.own)).fab := Clk.fab_le_run ..
  have hend : (b.clk.run (t - b.clk.own)).fab ≤ (b.clk.run (t' - b.clk.own)).fab := hruns ▸ Clk.fab_le_run ..
  have hspan : b.clk.span + (if b.timeValid then (b.clk.run (t - b.clk.own)).fab - b.clk.fab else 16 * (t - b.clk.own))
        + (if b.timeValid then (b.clk.run (t' - b.clk.own)).fab - (b.clk.run (t - b.clk.own)).fab else 16 * (t' - max b.clk.own t))
      = b.clk.span + (if b.timeValid then (b.clk.run (t' - b.clk.own)).fab - b.clk.fab else 16 * (t' - b.clk.own)) := by
    split <;> omega
  calc (b.advanceTo t).advanceTo t'
    _ = { b with clk := { (b.clk.run (t - b.clk.own)).run (t' - max b.clk.own t) with
            own := max (max b.clk.own t) t'
            span := b.clk.span + (if b.timeValid then (b.clk.run (t - b.clk.own)).fab - b.clk.fab else 16 * (t - b.clk.own))
              + (if b.timeValid then ((b.clk.run (t - b.clk.own)).run (t' - max b.clk.own t)).fab - (b.clk.run (t - b.clk.own)).fab else 16 * (t' - max b.clk.own t)) } } := rfl
    _ = b.advanceTo t' := by rw [hruns, hown, hspan, Block.advanceTo]

theorem Clk.slew_bounds {c : Clk} {before : Nat} (h : before ≤ c.fab) (off : Int) (k : Nat) (shown : Bool) :
    before ≤ (c.slew off before k shown).fab ∧ (c.slew off before k shown).fab ≤ c.fab + k ∧ c.fab ≤ (c.slew off before k shown).fab + k := by
  dsimp only [Clk.slew]
  split <;> omega

/-- A clock that is locked follows its parent by slewing alone (R346, R347). -/
theorem Clk.follow_locked {c : Clk} (h : c.locked = true) (off : Int) (m : TimeMsg) (t4 : Nat) (begun : Bool) (before k : Nat) (shown : Bool) :
    ∃ c' : Clk, c'.fab = c.fab ∧ c.follow off m t4 begun before k shown = c'.slew off before k shown := by
  simp only [Clk.follow, h, Bool.not_true, Bool.false_and, Bool.false_eq_true, if_false, if_true]
  split <;> refine ⟨_, ?_, rfl⟩ <;> rfl

theorem Clk.mayslew_bounds (c : Clk) (off : Int) : c.mayslew off ≤ off.natAbs ∧ 1250 * c.mayslew off ≤ c.own - c.slewAt ∧ c.mayslew off ≤ 8 := by
  have hoff : c.mayslew off ≤ off.natAbs := Nat.min_le_left ..
  have hspan : c.mayslew off ≤ Nat.min (c.own - c.slewAt) 10000 / 1250 := Nat.min_le_right ..
  have hown : Nat.min (c.own - c.slewAt) 10000 ≤ c.own - c.slewAt := Nat.min_le_left ..
  have hten : Nat.min (c.own - c.slewAt) 10000 ≤ 10000 := Nat.min_le_right ..
  omega

/-- Settles O34: both clocks only run on, and a slew keeps within what it may. -/
theorem timeNeverGoesBack : Obligations.TimeNeverGoesBack := by
  unfold Obligations.TimeNeverGoesBack
  refine ⟨fun b t t' => ⟨Nat.le_max_left .., Nat.le_max_right .., Clk.fab_le_run .., fun hfrac href hmember hacting => ?_, fun hfrac href hlo hhi => ?_, b.advanceTo_advanceTo⟩,
    fun c off m t4 begun shown before k hlocked hbefore => ?_⟩
  · rw [Block.advanceTo_clk_fab, Clk.run_member _ _ href hfrac hmember hacting, Block.advanceTo_clk_own]
    omega
  · have hown : (b.advanceTo t).clk.own - b.clk.own = t - b.clk.own := by
      rw [Block.advanceTo_clk_own]
      omega
    dsimp only
    rw [hown]
    exact Clk.run_steered href hfrac hlo hhi _
  · obtain ⟨c', hfab, hfollow⟩ := Clk.follow_locked hlocked off m t4 begun before k shown
    obtain ⟨hnotback, hup, hdown⟩ := Clk.slew_bounds (c := c') (hfab ▸ hbefore) off k shown
    rw [hfollow]
    exact ⟨hnotback, hfab ▸ hup, hfab ▸ hdown, c.mayslew_bounds off⟩

end Sys2Proof.Machine


/-! Fabric time (O33, R344 to R353). -/
namespace Sys2Proof.Machine

/-! A port of the block -/

theorem Block.port_onPort_self {b : Block} {n : Nat} (hn : n < 18) (hlen : b.ports.length = 18) (f : Port → Port) : (b.onPort n f).port n = f (b.port n) := by
  have h32 : n < 32 := by omega
  have hport : n < b.ports.length := by omega
  rw [Block.port, Block.port, if_pos h32, if_pos h32, Block.onPort_ports _ _ _ h32, modAt_eq_modify, List.getElem?_modify_eq, List.getElem?_eq_getElem hport]
  rfl

theorem Block.port_onPort_ne {n k : Nat} (h : k ≠ n) (b : Block) (f : Port → Port) : (b.onPort k f).port n = b.port n := by
  unfold Block.onPort Block.port
  by_cases hk : k < 32
  · by_cases hn : n < 32
    · simp only [if_pos hk, if_pos hn, modAt_eq_modify, List.getElem?_modify_ne _ _ h]
    · simp only [if_pos hk, if_neg hn]
  · by_cases hn : n < 32
    · simp only [if_neg hk, if_pos hn]
    · have hne : k - 32 ≠ n - 32 := by omega
      simp only [if_neg hk, if_neg hn, modAt_eq_modify, List.getElem?_modify_ne _ _ hne]

theorem Block.length_onPort (b : Block) (n : Nat) (f : Port → Port) : (b.onPort n f).ports.length = b.ports.length := by
  unfold Block.onPort
  split
  · simp only [modAt_eq_modify, List.length_modify]
  · rfl

theorem Block.port_bump (b : Block) (c : Counter) (k n : Nat) : (b.bump c k).port n = b.port n := by
  rw [Block.port, Block.port, Block.bump_ports, Block.bump_dieLinks]

/-! TIME flits (R345) -/

/-- A flit with the CRC-64 of its bytes is intact (R325). -/
theorem flitOk_sealed (f : Flit) : Machine.flitOk { f with crc := crc64 (flitBytes f) } = true := by
  simp only [Machine.flitOk, flitBytes, beq_self_eq_true]

/-- The TIME flit that a port sends (R345). -/
def Block.timeFlit (b : Block) (n : Nat) : Flit :=
  let p := b.port n
  let v := putBits (putBits (putBits (putBits (putBits (putBits 0 198 198 (b2n b.clk.locked)) 197 196 b.clk.role) 195 192 b.clk.depth)
    191 128 p.echoRx) 127 64 p.echoTx) 63 0 b.clk.fab
  let f : Flit := { head := setFld (setFld (setFld (0 : BitVec 64) 51 40 p.rxAck) 38 36 3) 35 30 0x3F, payload := leBytes 240 v, crc := 0 }
  { f with crc := crc64 (flitBytes f) }

theorem Block.flitOk_timeFlit (b : Block) (n : Nat) : Machine.flitOk (b.timeFlit n) = true := flitOk_sealed _

theorem Block.flitType_timeFlit (b : Block) (n : Nat) : flitType (b.timeFlit n) = 3 := by
  refine (fld_setFld_of_apart (by decide) (by decide) (.inr (by decide)) ..).trans ?_
  exact fld_setFld (by decide) (by decide) ..

/-- A port sends its TIME flit. -/
def Block.sendTime (b : Block) (n : Nat) : Block := (b.onPort n (fun p => { p with sent := p.sent ++ [b.timeFlit n] })).bump (.flitsTx n)

theorem Block.port_sendTime_ne {n k : Nat} (h : k ≠ n) (b : Block) : (b.sendTime k).port n = b.port n := by
  rw [Block.sendTime, Block.port_bump, Block.port_onPort_ne h]

theorem Block.length_sendTime (b : Block) (k : Nat) : (b.sendTime k).ports.length = b.ports.length := by
  rw [Block.sendTime, Block.bump_ports, Block.length_onPort]

theorem Block.port_foldl_sendTime_of_notMem {n : Nat} {ks : List Nat} (h : n ∉ ks) (b : Block) : (ks.foldl Block.sendTime b).port n = b.port n := by
  induction ks generalizing b with
  | nil => rfl
  | cons k ks ih =>
    obtain ⟨hne, hks⟩ := not_or.mp (mt List.mem_cons.mpr h)
    exact (ih hks _).trans (Block.port_sendTime_ne (Ne.symm hne) b)

theorem Block.sent_foldl_sendTime {n : Nat} {ks : List Nat} (hn : n < 18) (hks : ks.Nodup) (h : n ∈ ks) {b : Block} (hlen : b.ports.length = 18) :
    ∃ f, ((ks.foldl Block.sendTime b).port n).sent = (b.port n).sent ++ [f] ∧ Machine.flitOk f = true ∧ flitType f = 3 := by
  induction ks generalizing b with
  | nil => cases h
  | cons k ks ih =>
    obtain ⟨hk, hrest⟩ := List.nodup_cons.mp hks
    obtain rfl | hmem := List.mem_cons.mp h
    · refine ⟨b.timeFlit n, ?_, b.flitOk_timeFlit n, b.flitType_timeFlit n⟩
      rw [List.foldl_cons, Block.port_foldl_sendTime_of_notMem hk, Block.sendTime, Block.port_bump, Block.port_onPort_self hn hlen]
    · obtain ⟨f, hsent, hf⟩ := ih hrest hmem ((b.length_sendTime k).trans hlen)
      have hne : k ≠ n := fun heq => hk (heq ▸ hmem)
      exact ⟨f, hsent.trans (by rw [Block.port_sendTime_ne hne]), hf⟩

section
variable {s : State} {t : Nat}

/-- The first TIME flit of a master starts fabric time (R348). -/
def Block.startTime (b : Block) : Block :=
  if b.clk.role == 1 && !b.clk.locked && b.power.main == .on && (List.range 18).any b.up then { b with clk := { b.clk.stepTo 0 with locked := true, depth := 0 } } else b

theorem Block.startTime_ports (b : Block) : b.startTime.ports = b.ports ∧ b.startTime.power = b.power := by
  unfold Block.startTime
  split <;> exact ⟨rfl, rfl⟩

theorem exec_timeFlitSend : exec (.timeFlitSend t) s = .next (atTime t (fun b =>
    ((List.range 18).filter (fun n => b.startTime.up n && b.startTime.power.main == .on)).foldl Block.sendTime b.startTime) s) := rfl

theorem timeFlit_sent {n : Nat} (hn : n < 18) (hlen : s.m.ports.length = 18) (hpower : s.m.power.main = .on) (hup : s.m.up n = true) :
    Runs (.timeFlitSend t) s (fun u => u.mem = s.mem ∧ ∃ f, (u.m.port n).sent = (s.m.port n).sent ++ [f] ∧ Machine.flitOk f = true ∧ flitType f = 3) := by
  obtain ⟨hports, hpow⟩ := (s.m.advanceTo t).startTime_ports
  have hport : (s.m.advanceTo t).startTime.port n = s.m.port n := by
    rw [Block.port, if_pos (by omega), hports, Block.port, if_pos (by omega)]
    rfl
  have hmem : n ∈ (List.range 18).filter (fun n => (s.m.advanceTo t).startTime.up n && (s.m.advanceTo t).startTime.power.main == .on) := by
    refine List.mem_filter.mpr ⟨List.mem_range.mpr hn, ?_⟩
    rw [Block.up, hport, hpow, Block.advanceTo_power, hpower, ← Block.up, hup]
    rfl
  obtain ⟨f, hsent, hf⟩ := Block.sent_foldl_sendTime hn (List.nodup_range.filter _) hmem (b := (s.m.advanceTo t).startTime) (hports ▸ hlen)
  exact ⟨_, exec_timeFlitSend, rfl, f, hport ▸ hsent, hf⟩

/-! Parents (R351) -/

theorem exec_parentTimeout (hfollows : s.m.clk.follows = true) (hlost : s.m.up s.m.clk.parentInUse = false ∨ s.m.clk.parentFlitAt + 10000 ≤ (s.m.advanceTo t).span)
    {c : Block} (hc : (s.m.advanceTo t).loseParent.followAlt = c) : exec (.parentTimeout t) s = .next { s with m := c } := by
  have hstays : ¬ (!(s.m.advanceTo t).clk.follows || ((s.m.advanceTo t).up (s.m.advanceTo t).clk.parentInUse && decide ((s.m.advanceTo t).span < (s.m.advanceTo t).clk.parentFlitAt + 10000))) = true := by
    have hf : (s.m.advanceTo t).clk.follows = true := hfollows
    rw [hf, Bool.not_true, Bool.false_or, Bool.and_eq_true, decide_eq_true_eq]
    rintro ⟨hup, hheard⟩
    obtain hdown | hlate := hlost
    · exact Bool.false_ne_true (hdown.symm.trans hup)
    · exact absurd hheard (Nat.not_lt.mpr hlate)
  exact congrArg (fun b => Host.Outcome.next { s with m := b }) ((if_neg hstays).trans hc)

/-- A member that loses its parent holds over (R351). -/
theorem Block.loseParent_member {b : Block} (h : b.clk.role = 0) :
    b.loseParent = { b with clk := { b.clk with holdover := true, holdoverAt := some (b.clk.holdoverAt.getD b.span) } } := by
  rw [Block.loseParent, h]
  rfl

/-- A member that has lost its parent follows the alternate that it hears (R351). -/
theorem Block.followAlt_member {b : Block} (h : b.clk.role = 0) : b.loseParent.followAlt =
    if b.hears (fld b.fab.cfg 102 98) && (b.port (fld b.fab.cfg 102 98)).peerLocked then b.loseParent.takeParent (fld b.fab.cfg 102 98) else b.loseParent := by
  rw [Block.loseParent_member h]
  exact ite_congr (by rw [Bool.true_and]; rfl) (fun _ => rfl) (fun _ => rfl)

/-- A backup master that loses its parent and has no alternate becomes acting master (R351). -/
theorem Block.loseParent_backup {b : Block} (h : b.clk.role = 2) (halt : fld b.fab.cfg 102 98 = 0x1F) :
    b.loseParent = { b with clk := { b.clk with role := 3, holdover := false, holdoverAt := none, depth := 0, parentInUse := 0x1F } } := by
  rw [Block.loseParent, h, halt]
  rfl

theorem exec_parentRestore {b : Block} (hb : s.m.advanceTo t = b) {since : Nat} (hsince : b.clk.primarySince = some since) (hlong : since + 1000000000 ≤ b.span)
    (hother : b.clk.parentInUse ≠ fld b.fab.cfg 97 93 ∨ b.clk.holdover = true) (hhears : (b.hears (fld b.fab.cfg 97 93) && (b.port (fld b.fab.cfg 97 93)).peerLocked) = true)
    (hrole : b.clk.role = 0) : exec (.parentRestore t) s = .next (s.on (fun b => (b.advanceTo t).takeParent (fld b.fab.cfg 97 93))) := by
  obtain ⟨hheard, hlocked⟩ := Bool.and_eq_true_iff.mp hhears
  have hcond : (decide (since + 1000000000 ≤ b.span) && (b.clk.parentInUse != fld b.fab.cfg 97 93 || b.clk.holdover) && b.hears (fld b.fab.cfg 97 93)
      && (b.port (fld b.fab.cfg 97 93)).peerLocked && b.clk.role != 1 && b.clk.role != 3) = true := by
    simpa [hlong, hheard, hlocked, hrole] using hother
  have hcfg : s.m.fab.cfg = b.fab.cfg := by rw [← hb]; rfl
  simp only [exec, execParentRestore, atTime, State.on, hb, hsince, hcond, if_true, hcfg]

/-! PPS_IN (R353) -/

/-- How far an edge of PPS_IN comes from a second after the last one (R353). -/
def Block.edgeDeviation (b : Block) : Int :=
  match b.clk.ppsLast with
  | some l => (b.fabNs : Int) - l - 1000000000
  | none => 0

/-- An edge is counted with its deviation (R552). -/
def Block.countEdge (b : Block) : Block := (b.bump (.life 0xC 0)).raiseTo (.life 0xC 1) b.edgeDeviation.natAbs

theorem exec_ppsInEdge (hrole : s.m.clk.role = 1) : exec (.ppsInEdge t) s = .next (atTime t (fun b => { b.countEdge with clk :=
    { b.clk with ppsLast := some b.fabNs, ppsAt := some b.span, ppsLock := true, ppsRate := max (-10000) (min 10000 (b.clk.ppsRate - b.edgeDeviation)) } }) s) := by
  have hclk : (s.m.advanceTo t).countEdge.clk = (s.m.advanceTo t).clk := (Block.bump_clk ..).trans (Block.bump_clk ..)
  have hmaster : (s.m.advanceTo t).countEdge.clk.role = 1 := (congrArg Clk.role hclk).trans hrole
  refine congrArg (fun b => Host.Outcome.next { s with m := b }) ((if_pos ?_).trans ?_)
  · exact Bool.or_eq_true_iff.mpr (.inl (beq_iff_eq.mpr hmaster))
  · have hlock : ((s.m.advanceTo t).countEdge.clk.role == 1 || (s.m.advanceTo t).clk.ppsLock) = true := by
      rw [hmaster]
      rfl
    exact congrArg (fun l => ({ (s.m.advanceTo t).countEdge with clk := { (s.m.advanceTo t).clk with
      ppsLast := some (s.m.advanceTo t).fabNs, ppsAt := some (s.m.advanceTo t).span, ppsLock := l,
      ppsRate := max (-10000) (min 10000 ((s.m.advanceTo t).clk.ppsRate - (s.m.advanceTo t).edgeDeviation)) } } : Block)) hlock

theorem exec_ppsLoss {since : Nat} (hsince : s.m.clk.ppsAt = some since) (hlong : since + 1500000000 ≤ (s.m.advanceTo t).span) :
    exec (.ppsLoss t) s = .next (atTime t (fun b => { b with clk := { b.clk with ppsLock := false, ppsRate := 0, ppsLast := none, ppsAt := none } }) s) := by
  have hsince' : (s.m.advanceTo t).clk.ppsAt = some since := hsince
  simp only [exec, execPpsLoss, atTime, State.on, hsince', hlong, if_true]

/-! What an error of class J does in a job (R459, R494) -/

/-- What a block says of the bell, its state and its name. -/
def Block.alarm (b : Block) : Nat × Bool × Bool × Nat × List BellRec × BitVec 128 :=
  (b.dev.state, b.dev.bellPending, b.dev.bellPassed, b.dev.bellOrigin, b.faults.bells, b.fab.cfg)

theorem Block.bump_alarm (b : Block) (c : Counter) (k : Nat) : (b.bump c k).alarm = b.alarm := by
  unfold Block.bump
  split <;> rfl

theorem Block.sendVector_alarm (b : Block) (v : Nat) : (b.sendVector v).alarm = b.alarm := by
  unfold Block.sendVector
  split <;> rfl

theorem Block.logC_alarm (b : Block) (e : ErrorRec) : (b.logC e).alarm = b.alarm := by
  unfold Block.logC
  split
  · rfl
  · exact Block.bump_alarm ..

theorem Block.detection_alarm (b : Block) (e : ErrorRec) : (b.detection e).alarm = b.alarm := by
  unfold Block.detection
  split
  · rfl
  · exact Block.bump_alarm ..

theorem Block.SendsOnly.dev {b b' : Block} (h : b.SendsOnly b') : b'.dev = b.dev := by
  obtain ⟨ports, links, counts, fab, rfl⟩ := h
  rfl

theorem Block.sendsOnly_launchOrWait (b : Block) (q : Pkt) (io : Nat) (edge : Option (BitVec 16)) (port : Option Nat) : b.SendsOnly (b.launchOrWait q io edge port) := by
  unfold Block.launchOrWait
  split
  · exact ⟨b.ports, b.dieLinks, b.counts, _, rfl⟩
  · exact b.sendsOnly_launch ..

theorem Block.sendsOnly_sendLink (b : Block) (n typ param ext : Nat) (payload : List Byte) : b.SendsOnly (b.sendLink n typ param ext payload) := by
  have hnumbered (q : Pkt) : b.SendsOnly (b.numbered q) := ⟨b.ports, b.dieLinks, b.counts, _, rfl⟩
  unfold Block.sendLink
  exact (hnumbered _).trans (Block.sendsOnly_launchOrWait ..)

theorem State.ite_alarm {a b c : State} {p : Prop} [Decidable p] (ha : a.m.alarm = c.m.alarm) (hb : b.m.alarm = c.m.alarm) : (if p then a else b).m.alarm = c.m.alarm := by
  split
  · exact ha
  · exact hb

theorem State.writeEntry_alarm (s : State) (n : Nat) (c : Completion) : (s.writeEntry n c).m.alarm = s.m.alarm :=
  State.ite_alarm (State.ite_alarm (Block.sendVector_alarm ..) rfl) (State.ite_alarm (Block.sendVector_alarm ..) rfl)

theorem State.postEvent_alarm (s : State) (e : EventRec) : (s.postEvent e).m.alarm = s.m.alarm :=
  State.ite_alarm rfl (State.ite_alarm (State.writeEntry_alarm ..) (State.ite_alarm rfl rfl))

theorem State.tracePlace_alarm (s : State) (typ sub : Nat) (payload : List Byte) : (s.tracePlace typ sub payload).m.alarm = s.m.alarm :=
  State.ite_alarm (a := s.tracePut 6 0 _ []) (b := s) rfl rfl

theorem State.trace_alarm (s : State) (typ sub : Nat) (payload : List Byte) : (s.trace typ sub payload).m.alarm = s.m.alarm :=
  State.ite_alarm rfl (State.ite_alarm rfl ((State.tracePlace_alarm ..).trans (State.ite_alarm (State.tracePlace_alarm ..) rfl)))

theorem State.voidSlot_alarm (s : State) : s.voidSlot.m.alarm = s.m.alarm := by
  unfold State.voidSlot
  split
  · rfl
  · split <;> rfl

theorem State.abandonImage_alarm (s : State) (status : Nat) : (s.abandonImage status).m.alarm = s.m.alarm := by
  unfold State.abandonImage
  split
  · rfl
  · exact (Block.logC_alarm ..).trans s.voidSlot_alarm

theorem State.detect_alarm (s : State) (e : ErrorRec) : (s.detect e).m.alarm = s.m.alarm := by
  unfold State.detect
  extract_lets s'
  have hs : s'.m.alarm = s.m.alarm := State.ite_alarm rfl rfl
  split
  · exact State.ite_alarm (c := s) ((Block.bump_alarm ..).trans ((State.abandonImage_alarm ..).trans hs)) hs
  · exact hs

theorem Block.alarm_eq_iff {b c : Block} : b.alarm = c.alarm ↔ b.dev.state = c.dev.state ∧ b.dev.bellPending = c.dev.bellPending ∧ b.dev.bellPassed = c.dev.bellPassed
    ∧ b.dev.bellOrigin = c.dev.bellOrigin ∧ b.faults.bells = c.faults.bells ∧ b.fab.cfg = c.fab.cfg := by
  simp only [Block.alarm, Prod.mk.injEq]

/-- A first bell makes a job ABORTING, under the name of its origin (R495). -/
theorem State.takeBell_first {s : State} (hbells : s.m.faults.bells = []) (hruns : s.m.jobRuns = true) (origin epoch error raiser : Nat) (host : Bool) (step reason ta : Nat)
    (arrived : Option Nat) (suspectAt : Nat) : let u := s.takeBell origin epoch error raiser host step reason ta arrived suspectAt
    u.m.dev.state = 5 ∧ u.m.dev.bellPending = true ∧ u.m.dev.bellOrigin = origin := by
  unfold State.takeBell
  extract_lets b known earlier first s₁ s₂ s₃ u
  have hearlier : earlier = true := by
    unfold earlier b
    rw [hbells, List.all_nil]
  have h₁ : s₁.m.dev = s.m.dev := by
    have hopened (p : Prop) [Decidable p] (c : Block) (f : Faults) : (if p then { c with faults := f } else c).dev = c.dev := by
      split <;> rfl
    unfold s₁
    rw [State.on_m]
    dsimp only
    split
    · exact (Block.SendsOnly.foldl (fun b n => b.sendsOnly_sendLink n ..) _).dev.trans (hopened ..)
    · rw [Block.bump_dev]
      exact hopened ..
  have h₂ : s₂.m.dev.state = s.m.dev.state ∧ s₂.m.dev.bellPending = true ∧ s₂.m.dev.bellOrigin = origin := by
    simp only [s₂, State.on_m, hearlier, if_true, h₁, and_self]
  have h₃ : s₃.m.dev.state = 5 ∧ s₃.m.dev.bellPending = true ∧ s₃.m.dev.bellOrigin = origin := by
    obtain ⟨hstate, hpending, horigin⟩ := h₂
    have hruns' : s₂.m.jobRuns = true := by
      rw [Block.jobRuns, hstate]
      exact hruns
    simp only [s₃, State.on_m, hruns', if_true, hpending, horigin, and_self]
  have halarm : u.m.alarm = s₃.m.alarm := State.ite_alarm (State.postEvent_alarm ..) rfl
  obtain ⟨hstate, hpending, -, horigin, -⟩ := Block.alarm_eq_iff.mp halarm
  rwa [hstate, hpending, horigin]

/-- An error of class J of a job without a bell raises this module's (R459, R494). -/
theorem State.raiseErr_classJ {s : State} (hbells : s.m.faults.bells = []) (hruns : s.m.jobRuns = true) (hpending : s.m.dev.bellPending = false) (hpassed : s.m.dev.bellPassed = false)
    {e : ErrorRec} (hcls : e.cls = .j) : (s.raiseErr e).m.dev.state = 5 ∧ (s.raiseErr e).m.dev.bellPending = true ∧ (s.raiseErr e).m.dev.bellOrigin = s.m.moduleId := by
  unfold State.raiseErr
  extract_lets e'
  have hcls' : e'.cls = .j := hcls
  split
  · next h => exact absurd (hcls'.symm.trans h) (by decide)
  · next s₀ s₁ s₂ me _ _ =>
    have h₀ : s₀.m.alarm = s.m.alarm :=
      (State.trace_alarm ..).trans ((State.detect_alarm ..).trans ((Block.detection_alarm ..).trans ((Block.bump_alarm ..).trans (Block.bump_alarm ..))))
    have h₁ : s₁.m.alarm = s.m.alarm := (State.postEvent_alarm ..).trans h₀
    obtain ⟨hstate, hpend, hpass, -, hbell, hcfg⟩ := Block.alarm_eq_iff.mp h₁
    have hruns₁ : s₁.m.jobRuns = true := by
      rw [Block.jobRuns, hstate]
      exact hruns
    have hquiet : ¬ (s₂.m.bellPending || s₂.m.dev.bellPassed) = true := by
      rw [Bool.or_eq_true, not_or]
      exact ⟨ne_true_of_eq_false (hpend.trans hpending), ne_true_of_eq_false (hpass.trans hpassed)⟩
    have hme : me = s.m.moduleId := congrArg (fld · 90 77) hcfg
    have hbells₂ : (s₂.on (·.bump .bellsRaised)).m.faults.bells = [] := (congrArg Faults.bells (Block.bump_faults ..)).trans (hbell.trans hbells)
    have hruns₂ : (s₂.on (·.bump .bellsRaised)).m.jobRuns = true := by
      rw [State.on_m, Block.jobRuns, Block.bump_dev]
      exact hruns₁
    rw [if_neg (by rw [hruns₁]; exact Bool.false_ne_true), if_neg hquiet, ← hme]
    exact State.takeBell_first hbells₂ hruns₂ ..
  · next h => exact absurd hcls' h

theorem exec_timeLost {since : Nat} (hstate : s.m.dev.state = 4) (hholds : s.m.clk.holdover = true) (hsince : s.m.clk.holdoverAt = some since)
    (hlong : since + 2000000 ≤ (s.m.advanceTo t).span) : exec (.timeLost t) s = .next ((s.on (·.advanceTo t)).raiseErr { cls := .j, code := 0x31, at_ := 0 }) := by
  have hruns : (s.on (·.advanceTo t)).m.jobRuns = true := by
    rw [State.on_m, Block.jobRuns, Block.advanceTo_dev, hstate]
    rfl
  have hsince' : (s.on (·.advanceTo t)).m.clk.holdoverAt = some since := hsince
  have hholds' : (s.on (·.advanceTo t)).m.clk.holdover = true := hholds
  have hlong' : since + 2000000 ≤ (s.on (·.advanceTo t)).m.span := hlong
  simp only [exec, execTimeLost, hruns, hsince', hholds', hlong', decide_true, Bool.and_self, Bool.true_or, if_true]

end

/-- Settles O33: what fabric time sends, whom it follows, and when it is lost. -/
theorem fabricTime : Obligations.FabricTime := by
  unfold Obligations.FabricTime
  intro s t now hears alt par
  have hfollows (hrole : s.m.clk.role = 0 ∨ s.m.clk.role = 2) (hparent : s.m.clk.parentInUse ≠ 0x1F) : s.m.clk.follows = true := by
    simp only [Clk.follows, Bool.and_eq_true, bne_iff_ne]
    omega
  refine ⟨fun n hn hlen hpower hup => timeFlit_sent hn hlen hpower hup, fun hrole hparent hlost => ⟨fun halt => ?_, fun halt => ?_⟩, fun hrole hparent hdown halt => ?_,
    fun since hsince hlong hother hpar hrole => ?_, fun since hstate hholds hsince hlong hpending hpassed hbells => ?_, fun hrole => ?_, fun l hl hlong => ?_⟩
  · have hmember := Block.loseParent_member (b := s.m.advanceTo t) hrole
    have hheld := (Block.followAlt_member (b := s.m.advanceTo t) hrole).trans ((if_neg (ne_true_of_eq_false halt)).trans hmember)
    exact ⟨_, exec_parentTimeout (hfollows (.inl hrole) hparent) hlost hheld, rfl, rfl, rfl, rfl⟩
  · have hmember := Block.loseParent_member (b := s.m.advanceTo t) hrole
    have htaken := (Block.followAlt_member (b := s.m.advanceTo t) hrole).trans ((if_pos halt).trans (congrArg (·.takeParent alt) hmember))
    exact ⟨_, exec_parentTimeout (hfollows (.inl hrole) hparent) hlost htaken, rfl, rfl, rfl, rfl⟩
  · have hacts := congrArg Block.followAlt (Block.loseParent_backup (b := s.m.advanceTo t) hrole halt)
    exact ⟨_, exec_parentTimeout (hfollows (.inr hrole) hparent) (.inl hdown) hacts, rfl, rfl, rfl⟩
  · exact ⟨_, exec_parentRestore rfl hsince hlong hother hpar hrole, rfl, rfl, rfl⟩
  · have hruns : (s.on (·.advanceTo t)).m.jobRuns = true := by
      rw [State.on_m, Block.jobRuns, Block.advanceTo_dev, hstate]
      rfl
    exact ⟨_, exec_timeLost hstate hholds hsince hlong, State.raiseErr_classJ (s := s.on (·.advanceTo t)) hbells hruns hpending hpassed rfl⟩
  · exact ⟨_, exec_ppsInEdge hrole, rfl, rfl, rfl, rfl, rfl, Int.le_max_left .., Int.max_le.mpr ⟨by decide, Int.min_le_left ..⟩⟩
  · exact ⟨_, exec_ppsLoss hl hlong, rfl, rfl, rfl⟩

end Sys2Proof.Machine


/-! Symbols that the FEC corrects, counted above the stop of their counter (O31, O32, R225, R336). -/
namespace Sys2Proof.Machine

/-! Counters of a port -/

theorem Block.count_onPort (b : Block) (n : Nat) (f : Port → Port) (c : Counter) : (b.onPort n f).count c = b.count c := by
  rw [Block.count, Block.onPort_counts, Block.count]

theorem Block.count_raiseC {c : Counter} (hc : Counter.logLost ≠ c) (b : Block) (code : Nat) (port : Option Nat) (cause : Nat) (package : Option Nat) :
    (b.raiseC code port cause package).count c = b.count c := by
  unfold Block.raiseC Block.logC
  split
  · rfl
  · exact Block.count_bump_ne hc ..

/-- No symbols corrected leave the counters as they are (R336). -/
theorem Block.corrects_none (b : Block) (n lane : Nat) : b.corrects n [(lane, 0)] = b := rfl

theorem Block.count_flitCorrected_none {f : Flit} {lane : Nat} (h : f.corrected = [(lane, 0)]) {c : Counter} (hc : Counter.logLost ≠ c) (b : Block) (n : Nat) :
    (b.flitCorrected n f).count c = b.count c := by
  unfold Block.flitCorrected
  split
  · rfl
  · rw [Block.count_raiseC hc, h, Block.corrects_none]

theorem Block.count_sendLinkFlit {c : Counter} {n : Nat} (hc : Counter.flitsTx n ≠ c) (b : Block) (msg : LinkMsg) : (b.sendLinkFlit n msg).count c = b.count c := by
  unfold Block.sendLinkFlit
  split
  · exact Block.count_onPort ..
  · rw [Block.count_bump_ne hc, Block.count_onPort]

/-- An intact flit without NAK counts as received, and sends nothing again (R326, R328). -/
theorem State.count_goodFlit {f : Flit} (hnak : flag f.head 39 = false) {c : Counter} {n : Nat} (hc : Counter.flitsRx n ≠ c) (s : State) : (s.goodFlit n f).m.count c = s.m.count c := by
  unfold State.goodFlit State.takeAck
  simp only [hnak, Bool.false_and, Bool.false_eq_true, if_false, State.on_m, Block.count_onPort, Block.intactFlit, Block.count_bump_ne hc]

section
variable {s : State} {t n : Nat}

/-- An intact NULL flit whose codewords needed no correction leaves FEC_CORR as it is (R327, R336). -/
theorem nullFlit_count_fecCorr {f : Flit} (hok : Machine.flitOk f = true) (htyp : flitType f = 0) (hnak : flag f.head 39 = false) {lane : Nat} (hnone : f.corrected = [(lane, 0)])
    {u : State} (hu : exec (.nullFlit t n f) s = .next u) : u.m.count (.fecCorr n) = s.m.count (.fecCorr n) := by
  obtain rfl := Host.Outcome.next.inj hu
  split
  · simp only [State.flitRow, hok, htyp, Bool.not_true, Bool.false_eq_true, if_false, bne_self_eq_false, Nat.reduceLeDiff]
    rw [State.count_goodFlit hnak (c := .fecCorr n) nofun, State.on_m, Block.count_flitCorrected_none hnone (c := .fecCorr n) nofun]
    rfl
  · rfl

/-- A lane that asks for its spare sends a LINK flit, and counts nothing else (R337). -/
theorem State.count_laneFails {lane : Nat} (hspare : s.m.hasSpare n lane = true) {c : Counter} (hc : Counter.flitsTx n ≠ c) : (s.laneFails n lane).m.count c = s.m.count c := by
  unfold State.laneFails
  dsimp only
  split
  · rfl
  · rw [State.on_m, Block.count_onPort, Block.count_sendLinkFlit hc, Block.count_onPort]

theorem State.count_physicalFails {lane k : Nat} (hlane : (s.m.port n).phy.lanes.findIdx? (· == lane) = some k) (hspare : s.m.hasSpare n k = true) {c : Counter}
    (hc : Counter.flitsTx n ≠ c) : (s.physicalFails n lane).m.count c = s.m.count c := by
  simp only [State.physicalFails, hlane]
  exact State.count_laneFails hspare hc

theorem Block.port_raiseC (b : Block) (code : Nat) (port : Option Nat) (cause : Nat) (package : Option Nat) (k : Nat) : (b.raiseC code port cause package).port k = b.port k := by
  unfold Block.raiseC Block.logC
  split
  · rfl
  · exact Block.port_bump ..

theorem Block.hasSpare_of_port {b c : Block} (h : b.port n = c.port n) (lane : Nat) : b.hasSpare n lane = c.hasSpare n lane := by
  simp only [Block.hasSpare, h]

theorem exec_laneCorrectionLimit (lane symbols : Nat) : exec (.laneCorrectionLimit t n lane symbols) s = .next (
    if !(s.m.advanceTo t).listens n || decide (32 ≤ n) then s.on (·.advanceTo t)
    else (s.on (fun b => ((b.advanceTo t).corrects n [(lane, symbols)]).raiseC 0x35 (some n) 6)).physicalFails n lane) :=
  (apply_ite Host.Outcome.next ..).symm

/-- A lane that has corrected no symbols, and has a spare, leaves FEC_CORR as it is when it asks for the spare (R336, R337). -/
theorem laneCorrectionLimit_count_fecCorr {lane k : Nat} (hlane : (s.m.port n).phy.lanes.findIdx? (· == lane) = some k) (hspare : s.m.hasSpare n k = true)
    {u : State} (hu : exec (.laneCorrectionLimit t n lane 0) s = .next u) : u.m.count (.fecCorr n) = s.m.count (.fecCorr n) := by
  obtain rfl := Host.Outcome.next.inj ((exec_laneCorrectionLimit lane 0).symm.trans hu)
  split
  · rfl
  · have hport : ((s.m.advanceTo t).raiseC 0x35 (some n) 6).port n = s.m.port n := Block.port_raiseC ..
    have hlane' : ((s.on (fun b => (b.advanceTo t).raiseC 0x35 (some n) 6)).m.port n).phy.lanes.findIdx? (· == lane) = some k := by rw [State.on_m, hport, hlane]
    have hspare' : (s.on (fun b => (b.advanceTo t).raiseC 0x35 (some n) 6)).m.hasSpare n k = true := by rw [State.on_m, Block.hasSpare_of_port hport, hspare]
    exact (State.count_physicalFails hlane' hspare' (c := .fecCorr n) nofun).trans (Block.count_raiseC (c := .fecCorr n) nofun ..)

end

/-- The state after reset, with FEC_CORR of port 0 one above the value at which it stops (R225, R336), and a given port 0. -/
def overcounted (p : Port) : State := State.reset.on (fun b => { b with counts := [(.fecCorr 0, 2 ^ 64)], ports := b.ports.set 0 p })

theorem overcounted_count (p : Port) : (overcounted p).m.count (.fecCorr 0) = 2 ^ 64 := by
  simp only [overcounted, State.on, Block.count, assocGet, List.find?_singleton, beq_self_eq_true, if_true, Option.map_some, Option.getD_some]

/-- An intact NULL flit in one of whose codewords the FEC corrected nothing. -/
def uncorrectedNull : Flit :=
  let f : Flit := { head := 0, payload := List.replicate 240 0, crc := 0, corrected := [(0, 0)] }
  { f with crc := crc64 (flitBytes f) }

theorem flitOk_uncorrectedNull : Machine.flitOk uncorrectedNull = true := flitOk_sealed _

/-- Refutes O31: the state's FEC_CORR is an unbounded number, and a flit in which no symbols were corrected does not bring one above 2^64 - 1 back to its stop. The clause
needs a count of at most 2^64 - 1 before the flit, or a symbol corrected in it: `Block.bump` keeps that bound, but the statement is about every state. -/
theorem not_flitsAreTaken : ¬ Obligations.FlitsAreTaken := by
  unfold Obligations.FlitsAreTaken
  intro h
  obtain ⟨hnull, -⟩ := h (overcounted {}) 0 0 uncorrectedNull true (by decide) rfl rfl (by decide) (by decide) (by decide) (by decide)
  obtain ⟨u, hu, -, -, -, -, hcount⟩ := hnull flitOk_uncorrectedNull (by decide)
  have hstays := nullFlit_count_fecCorr flitOk_uncorrectedNull (by decide) (by decide) rfl hu
  have hstops := hstays.symm.trans (hcount 0 0 rfl)
  rw [overcounted_count] at hstops
  exact absurd hstops (by decide)

/-- Refutes O32: as in O31, a correction limit of 0 symbols, which WellFormed does not admit but the statement does, leaves an FEC_CORR above 2^64 - 1 where it is. -/
theorem not_linksFailAndTrain : ¬ Obligations.LinksFailAndTrain := by
  unfold Obligations.LinksFailAndTrain
  intro h
  obtain ⟨-, -, hlane, -⟩ := h (overcounted { linkState := 2, phy := { spareOk := true } }) 0 0 0 (by decide) rfl rfl nofun
  obtain ⟨-, u, hu, -, hcount⟩ := (hlane 0 0 rfl rfl).1 rfl nofun (by decide)
  have hstays := laneCorrectionLimit_count_fecCorr (s := overcounted { linkState := 2, phy := { spareOk := true } }) rfl rfl hu
  have hstops := hstays.symm.trans hcount
  rw [overcounted_count] at hstops
  exact absurd hstops (by decide)

end Sys2Proof.Machine

/-! What an error or a bell leaves beside what it tells (R429, R447, R493 to R495, R547). -/
namespace Sys2Proof.Machine

/-! Events and the trace -/

/-- A state that differs in host memory, its rings, its events and vectors, and its trace alone. -/
def State.TellsOnly (s u : State) : Prop := ∃ host rings desc safety lost waiting irqDone pending out,
  u = { s with mem := { s.mem with host := host },
               m := { s.m with rings := rings, desc := desc, safety := safety,
                               dev := { s.m.dev with eventsLost := lost, eventsWaiting := waiting, eventIrqDone := irqDone, msixPending := pending, msixOut := out } } }

theorem State.TellsOnly.refl (s : State) : s.TellsOnly s := ⟨_, _, _, _, _, _, _, _, _, rfl⟩

theorem State.TellsOnly.trans {s t u : State} (hst : s.TellsOnly t) (htu : t.TellsOnly u) : s.TellsOnly u := by
  obtain ⟨_, _, _, _, _, _, _, _, _, rfl⟩ := hst
  obtain ⟨host, rings, desc, safety, lost, waiting, irqDone, pending, out, rfl⟩ := htu
  exact ⟨host, rings, desc, safety, lost, waiting, irqDone, pending, out, rfl⟩

theorem State.TellsOnly.ite {s a b : State} {p : Prop} [Decidable p] (ha : s.TellsOnly a) (hb : s.TellsOnly b) : s.TellsOnly (if p then a else b) := by
  split
  · exact ha
  · exact hb

theorem State.TellsOnly.foldl {α : Type} {f : State → α → State} (hf : ∀ (s : State) x, s.TellsOnly (f s x)) (xs : List α) (s : State) : s.TellsOnly (xs.foldl f s) := by
  induction xs generalizing s with
  | nil => exact .refl s
  | cons x xs ih => exact (hf s x).trans (ih _)

theorem State.TellsOnly.counts {s u : State} (h : s.TellsOnly u) : u.m.counts = s.m.counts := by
  obtain ⟨_, _, _, _, _, _, _, _, _, rfl⟩ := h
  rfl

theorem State.TellsOnly.count {s u : State} (h : s.TellsOnly u) (c : Counter) : u.m.count c = s.m.count c := by
  rw [Block.count, h.counts, Block.count]

theorem State.TellsOnly.faults {s u : State} (h : s.TellsOnly u) : u.m.faults = s.m.faults := by
  obtain ⟨_, _, _, _, _, _, _, _, _, rfl⟩ := h
  rfl

theorem State.TellsOnly.crofts {s u : State} (h : s.TellsOnly u) : u.m.crofts = s.m.crofts := by
  obtain ⟨_, _, _, _, _, _, _, _, _, rfl⟩ := h
  rfl

theorem State.tellsOnly_writeHost (s : State) (a : Nat) (bs : List Byte) : s.TellsOnly (s.writeHost a bs) := ⟨_, _, _, _, _, _, _, _, _, rfl⟩

theorem State.tellsOnly_onRing (s : State) (n : Nat) (f : Ring → Ring) : s.TellsOnly (s.on (fun b => b.onRing n f)) := ⟨_, _, _, _, _, _, _, _, _, rfl⟩

theorem State.tellsOnly_sendVector (s : State) (v : Nat) : s.TellsOnly (s.on (fun b => b.sendVector v)) := by
  unfold State.on Block.sendVector
  dsimp only
  split <;> exact ⟨_, _, _, _, _, _, _, _, _, rfl⟩

theorem State.tellsOnly_irqDone (s : State) (done : Bool) : s.TellsOnly (s.on (fun b => { b with dev := { b.dev with eventIrqDone := done } })) :=
  ⟨_, _, _, _, _, _, _, _, _, rfl⟩

theorem State.tellsOnly_writeEntry (s : State) (n : Nat) (c : Completion) : s.TellsOnly (s.writeEntry n c) := by
  unfold State.writeEntry
  extract_lets r s₁ prod s₂ s₃
  have h₃ : s.TellsOnly s₃ := ((s.tellsOnly_writeHost ..).trans (State.tellsOnly_writeHost ..)).trans (State.tellsOnly_onRing ..)
  refine .ite (.ite (h₃.trans ?_) h₃) (.ite (h₃.trans ?_) h₃)
  · exact (s₃.tellsOnly_sendVector _).trans (State.tellsOnly_irqDone _ true)
  · exact (s₃.tellsOnly_sendVector _).trans (State.tellsOnly_onRing ..)

theorem State.tellsOnly_postEvent (s : State) (e : EventRec) : s.TellsOnly (s.postEvent e) := by
  have hqueue (waiting : List EventRec) (lost : Nat) : s.TellsOnly (s.on (fun b => { b with dev := { b.dev with eventsWaiting := waiting, eventsLost := lost } })) :=
    ⟨_, _, _, _, _, _, _, _, _, rfl⟩
  exact .ite (hqueue _ _) (.ite (s.tellsOnly_writeEntry ..) (.ite (hqueue _ _) (hqueue _ _)))

theorem State.tellsOnly_event (s : State) (code cls arg : Nat) : s.TellsOnly (s.event code cls arg) := s.tellsOnly_postEvent _

theorem State.tellsOnly_tracePut (s : State) (typ sub units : Nat) (payload : List Byte) : s.TellsOnly (s.tracePut typ sub units payload) := ⟨_, _, _, _, _, _, _, _, _, rfl⟩

theorem State.tellsOnly_tracePlace (s : State) (typ sub : Nat) (payload : List Byte) : s.TellsOnly (s.tracePlace typ sub payload) := by
  unfold State.tracePlace
  extract_lets units left s₁
  have h₁ : s.TellsOnly s₁ := .ite (s.tellsOnly_tracePut ..) (.refl s)
  exact h₁.trans (State.tellsOnly_tracePut ..)

theorem State.tellsOnly_trace (s : State) (typ sub : Nat) (payload : List Byte) : s.TellsOnly (s.trace typ sub payload) := by
  unfold State.trace
  extract_lets d units ms used s₁
  have h₁ : s.TellsOnly s₁ := .ite ((s.tellsOnly_tracePlace ..).trans ⟨_, _, _, _, _, _, _, _, _, rfl⟩) (.refl s)
  exact .ite (.refl s) (.ite ⟨_, _, _, _, _, _, _, _, _, rfl⟩ (h₁.trans (State.tellsOnly_tracePlace ..)))

theorem State.tellsOnly_traceErr (s : State) (e : ErrorRec) : s.TellsOnly (s.traceErr e) := s.tellsOnly_trace ..

end Sys2Proof.Machine

/-! Class C errors and their log (O50, R460). -/
namespace Sys2Proof.Machine

theorem State.raiseErr_classC {e : ErrorRec} (h : e.cls = .c) (s : State) :
    s.raiseErr e = s.on (·.logC { e with at_ := s.m.now, suspectAt := if e.suspectAt = 0 then s.m.now else e.suspectAt }) := by
  simp only [State.raiseErr, h]

theorem Block.logC_of_room {b : Block} (h : b.faults.logFifo.length < 256) (e : ErrorRec) :
    b.logC e = { b with faults := { b.faults with logFifo := b.faults.logFifo ++ [e] } } := if_pos h

theorem Block.logC_of_full {b : Block} (h : 256 ≤ b.faults.logFifo.length) (e : ErrorRec) :
    b.logC e = ({ b with faults := { b.faults with untraced := b.faults.untraced ++ [e] } } : Block).bump .logLost := if_neg (Nat.not_lt.mpr h)

theorem Block.logC_queue (b : Block) (e : ErrorRec) :
    (b.logC e).faults.arrived = b.faults.arrived ∧ (b.logC e).faults.queue = b.faults.queue ∧ (b.logC e).faults.handling = b.faults.handling := by
  rcases Nat.lt_or_ge b.faults.logFifo.length 256 with h | h
  · rw [Block.logC_of_room h]
    exact ⟨rfl, rfl, rfl⟩
  · rw [Block.logC_of_full h, Block.bump_faults]
    exact ⟨rfl, rfl, rfl⟩

/-! The drain -/

/-- An entry of the log FIFO is counted and traced (R460). -/
def State.drainEntry (s : State) (e : ErrorRec) : State := (s.on (fun b => (b.countErr .c).detection e)).traceErr e

theorem State.drainLog_eq (s : State) : s.drainLog = s.m.faults.untraced.foldl State.traceErr
    (s.m.faults.logFifo.foldl State.drainEntry (s.on (fun b => { b with faults := { b.faults with logFifo := [], untraced := [] } }))) := rfl

theorem Block.detection_faults (b : Block) (e : ErrorRec) : (b.detection e).faults = b.faults := by
  unfold Block.detection
  split
  · rfl
  · exact Block.bump_faults ..

theorem Block.countErr_faults (b : Block) (k : Class_) : (b.countErr k).faults = b.faults := (Block.bump_faults ..).trans (Block.bump_faults ..)

theorem State.drainEntry_faults (s : State) (e : ErrorRec) : (s.drainEntry e).m.faults = s.m.faults :=
  (State.tellsOnly_traceErr ..).faults.trans ((Block.detection_faults ..).trans (Block.countErr_faults ..))

theorem State.foldl_drainEntry_faults (es : List ErrorRec) (s : State) : (es.foldl State.drainEntry s).m.faults = s.m.faults :=
  List.foldlRecOn (motive := fun u : State => u.m.faults = s.m.faults) es _ rfl fun u hu e _ => (u.drainEntry_faults e).trans hu

theorem State.tellsOnly_foldl_traceErr (es : List ErrorRec) (s : State) : s.TellsOnly (es.foldl State.traceErr s) := .foldl State.tellsOnly_traceErr es s

theorem State.drainLog_faults (s : State) : s.drainLog.m.faults = { s.m.faults with logFifo := [], untraced := [] } := by
  rw [State.drainLog_eq, (State.tellsOnly_foldl_traceErr ..).faults, State.foldl_drainEntry_faults]
  rfl

theorem Block.count_detection {c : Counter} (hc : ∀ k, Counter.life 0xA k ≠ c) (b : Block) (e : ErrorRec) : (b.detection e).count c = b.count c := by
  unfold Block.detection
  split
  · rfl
  · exact Block.count_bump_ne (hc _) ..

/-- Every entry drained counts once in the class C counter and once in the lifetime log (R460). -/
theorem State.count_drainEntry {c : Counter} (hc : c = .errorsC ∨ c = .life 7 0) (s : State) (e : ErrorRec) :
    (s.drainEntry e).m.count c = Nat.min (s.m.count c + 1) (2 ^ 64 - 1) := by
  have hdetection : (s.drainEntry e).m.count c = (s.m.countErr .c).count c :=
    ((State.tellsOnly_traceErr ..).count c).trans (Block.count_detection (fun k h => by rcases hc with rfl | rfl <;> cases h) ..)
  rw [hdetection, Block.countErr, Class_.counter, Class_.code]
  rcases hc with rfl | rfl
  · rw [Block.count_bump_ne (k := .errorsC) (j := .life 7 0) nofun, Block.count_bump_self]
  · rw [Block.count_bump_self, Block.count_bump_ne (k := .life 7 0) (j := .errorsC) nofun]

theorem State.count_foldl_drainEntry {c : Counter} (hc : c = .errorsC ∨ c = .life 7 0) (es : List ErrorRec) {s : State} (hs : s.m.count c ≤ 2 ^ 64 - 1) :
    (es.foldl State.drainEntry s).m.count c = Nat.min (s.m.count c + es.length) (2 ^ 64 - 1) := by
  induction es generalizing s with
  | nil => exact (Nat.min_eq_left hs).symm
  | cons e es ih =>
    have hone := State.count_drainEntry hc s e
    rw [List.foldl_cons, ih (hone ▸ Nat.min_le_right ..), hone, List.length_cons]
    change min (min _ _ + _) _ = min _ _
    omega

theorem State.count_drainLog {c : Counter} (hc : c = .errorsC ∨ c = .life 7 0) {s : State} (hs : s.m.count c ≤ 2 ^ 64 - 1) :
    s.drainLog.m.count c = Nat.min (s.m.count c + s.m.faults.logFifo.length) (2 ^ 64 - 1) := by
  rw [State.drainLog_eq, (State.tellsOnly_foldl_traceErr ..).count]
  exact State.count_foldl_drainEntry hc _ hs

/-! HANDLER_TAKE (R460, R461) -/

/-- The state in which pair 2 takes the errors that arrived: the log FIFO is drained, and none is left to arrive. -/
def State.handlerStarts (s : State) (t : Nat) : State :=
  (s.on (fun b => b.advanceTo t)).drainLog.on (fun b => { b with faults := { b.faults with arrived := [] } })

theorem State.handlerStarts_faults (s : State) (t : Nat) : (s.handlerStarts t).m.faults = { s.m.faults with logFifo := [], untraced := [], arrived := [] } :=
  congrArg (fun f : Faults => { f with arrived := [] }) (State.drainLog_faults _)

theorem exec_handlerTake (s : State) (t : Nat) (failed : Bool) : exec (.handlerTake t failed) s = .next (
    let es := (s.on (fun b => b.advanceTo t)).drainLog.m.faults.arrived
    let u := es.foldl (fun s e => s.letIn e) (s.handlerStarts t)
    let last := (u.m.faults.queue.head?).orElse (fun _ => es.getLast?)
    if failed then (u.takeQueued 17).handlerFails last else u.takeQueued 17) := rfl

/-- Settles O50: class C errors go to the log FIFO, and what pair 2 drains is counted. -/
theorem classCErrorsAreLogged : Obligations.ClassCErrorsAreLogged := by
  unfold Obligations.ClassCErrorsAreLogged
  intro s t
  refine ⟨fun e he => ?_, by rw [State.drainLog_faults], State.count_drainLog (.inl rfl), State.count_drainLog (.inr rfl),
    s.handlerStarts t, exec_handlerTake s t false, ⟨_, exec_handlerTake s t true⟩, rfl, ?_, rfl, ?_, ?_⟩
  · rw [State.raiseErr_classC he]
    obtain ⟨harrived, hqueue, hhandling⟩ := s.m.logC_queue { e with at_ := s.m.now, suspectAt := if e.suspectAt = 0 then s.m.now else e.suspectAt }
    refine ⟨rfl, harrived, hqueue, hhandling, fun hroom => ?_, fun hfull => ?_⟩
    · rw [State.on_m, Block.logC_of_room hroom]
      exact ⟨rfl, _, rfl, he, rfl⟩
    · rw [State.on_m, Block.logC_of_full hfull]
      exact ⟨by rw [Block.bump_faults], Block.count_bump_self ..⟩
  all_goals rw [State.handlerStarts_faults]

end Sys2Proof.Machine

/-! Reports by the first row of R489 that applies (O28, R485 to R490). -/
namespace Sys2Proof.Machine

/-- A suspicion asks for the digests of its origin's groups to be compared (R390). -/
def State.asked (s : State) (r : Report) : State :=
  if r.kind = 0 then s.on (fun b => { b with faults := { b.faults with compare := insertNew r.origin b.faults.compare } }) else s

/-- A report enters a record of its origin, is forwarded, and does what the record then asks (R485, R489). -/
def State.recordReport (s : State) (r : Report) (arrived : Option Nat) (x : Suspicion) : State :=
  ((s.asked r).on (fun b => (b.setSuspicion x).forwardReport r arrived)).applyReport r x

/-- The record that the first report of an origin and epoch opens (R485). -/
def Report.opens (r : Report) : Suspicion := ({ origin := r.origin, epoch := r.epoch, closed := r.kind != 0 } : Suspicion).addReport r

section
variable {s : State} {r : Report} {x : Suspicion}

theorem State.takeReport_stale (h : r.epoch ≤ s.m.lastEpoch r.origin) (arrived : Option Nat) : s.takeReport r arrived = s.on (·.bump .staleReports) := if_pos h

theorem State.takeReport_first (hnew : s.m.lastEpoch r.origin < r.epoch) (hopen : ∀ x, s.m.suspicion r.origin = some x → x.epoch < r.epoch) (arrived : Option Nat) :
    s.takeReport r arrived = s.recordReport r arrived r.opens := by
  simp only [State.takeReport, if_neg (Nat.not_le.mpr hnew), beq_iff_eq]
  cases hx : s.m.suspicion r.origin with
  | none => rfl
  | some x => exact if_pos (hopen x hx)

/-- A report of the epoch of the open record is a witness, a close, or nothing new (R489). -/
theorem State.takeReport_sameEpoch (hnew : s.m.lastEpoch r.origin < r.epoch) (hopen : s.m.suspicion r.origin = some x) (hepoch : x.epoch = r.epoch) (arrived : Option Nat) :
    s.takeReport r arrived =
      if r.kind = 0 ∧ r.oport ≠ 0x1F ∧ r.oport ∉ x.witnesses then s.recordReport r arrived (x.addReport r)
      else if r.kind ≠ 0 ∧ x.closed = false then s.recordReport r arrived { x with closed := true }
      else (s.asked r).on (·.bump .suspectsCoalesced) := by
  simp only [State.takeReport, if_neg (Nat.not_le.mpr hnew), beq_iff_eq, hopen, hepoch, Nat.lt_irrefl, if_false, Bool.and_eq_true, bne_iff_ne, ne_eq, Bool.not_eq_true',
    List.contains_eq_mem, decide_eq_false_iff_not, and_assoc]
  rfl

theorem Suspicion.mem_addReport (hkind : r.kind = 0) (hport : r.oport ≠ 0x1F) (x : Suspicion) : r.oport ∈ (x.addReport r).witnesses := by
  rw [Suspicion.addReport, if_pos (by simp only [hkind, beq_self_eq_true, Bool.true_and, bne_iff_ne, ne_eq, hport, not_false_eq_true])]
  exact mem_insertNew ..

theorem State.applyReport_clear (hkind : r.kind = 2) (s : State) (x : Suspicion) : s.applyReport r x = s.on (·.closeRecord r.origin r.epoch) :=
  if_pos (beq_iff_eq.mpr hkind)

theorem Block.suspicion_closeRecord (b : Block) (origin epoch : Nat) : (b.closeRecord origin epoch).suspicion origin = none := by
  refine List.find?_eq_none.mpr fun x hx => ?_
  rw [beq_iff_eq]
  exact bne_iff_ne.mp (List.mem_filter.mp hx).2

theorem Block.lastEpoch_closeRecord (b : Block) (origin epoch : Nat) : (b.closeRecord origin epoch).lastEpoch origin = epoch := by
  rw [Block.lastEpoch, Block.closeRecord, assocGet_assocSet, if_pos rfl, Option.getD_some]

/-- Fewer than four hamlet witnesses are no quorum where no announcement names optical ports (R490). -/
theorem Suspicion.quorum_eq_false (hfew : (x.witnesses.filter (· < 7)).length < 4) (hmasks : x.masks = 0) : x.quorum = false := by
  simp only [Suspicion.quorum, hmasks, bne_self_eq_false, Bool.false_and, Bool.or_false, decide_eq_false_iff_not, Nat.not_le]
  exact hfew

theorem State.applyReport_suspect (hkind : r.kind = 0) (hquorum : x.quorum = false) (s : State) : s.applyReport r x = s := by
  simp only [State.applyReport, hkind, hquorum, Nat.reduceBEq, Bool.or_false, Bool.false_eq_true, if_false]

end

/-- Settles O28: the rows of R489, and what a record does with a report. -/
theorem reportsByFirstRow : Obligations.ReportsByFirstRow := by
  unfold Obligations.ReportsByFirstRow
  intro s r arrived
  refine ⟨fun hstale => State.takeReport_stale hstale arrived, fun hnew hopen => State.takeReport_first hnew hopen arrived, fun x hnew hopen hepoch => ?_,
    fun x hkind => ?_, fun x hkind hfew hmasks => State.applyReport_suspect hkind (Suspicion.quorum_eq_false hfew hmasks) s⟩
  · have hrow := State.takeReport_sameEpoch hnew hopen hepoch arrived
    refine ⟨fun hkind hport hwitness => ⟨hrow.trans (if_pos ⟨hkind, hport, hwitness⟩), x.mem_addReport hkind hport⟩, fun hkind hclosed => ?_, fun hkind hwitness => ?_,
      fun hkind hclosed => ?_⟩
    · exact hrow.trans ((if_neg fun h => hkind h.1).trans (if_pos ⟨hkind, hclosed⟩))
    · exact hrow.trans ((if_neg fun h => h.2.2 hwitness).trans (if_neg fun h => h.1 hkind))
    · rw [hrow, if_neg (fun h => hkind h.1), if_neg (fun h => by rw [hclosed] at h; cases h.2), State.asked, if_neg hkind]
  · rw [State.applyReport_clear hkind]
    exact ⟨Block.suspicion_closeRecord .., Block.lastEpoch_closeRecord ..⟩

end Sys2Proof.Machine

/-! Bells, and which of them decides (O29, R490, R493 to R495). -/
namespace Sys2Proof.Machine

/-! What a bell leaves -/

/-- The faults once a bell is taken (R485, R495): its epoch closes the records of its origin, and it is held unless it is known and not the earliest. -/
def Block.bellFaults (b : Block) (r : BellRec) : Faults :=
  let f := if b.lastEpoch r.origin < r.epoch then
      { b.faults with epochs := assocSet r.origin r.epoch b.faults.epochs, open_ := b.faults.open_.filter (fun x => !(x.origin == r.origin && x.epoch ≤ r.epoch)) }
    else b.faults
  if !b.faults.bells.any (fun q => q.origin == r.origin && q.epoch == r.epoch) || b.faults.bells.all (fun q => decide (r.ta < q.ta)) then { f with bells := f.bells ++ [r] }
  else f

/-- The bell's registers once a bell is taken: they show it where it is the earliest (R495). -/
def Block.shownBell (b : Block) (r : BellRec) : Dev :=
  if b.faults.bells.all (fun q => decide (r.ta < q.ta)) then
    { b.dev with bellOrigin := r.origin, bellEpoch := r.epoch, bellTa := r.ta, bellPending := true, bellPassed := false, bellDone := false }
  else b.dev

/-- The registers once a bell is taken: a job that runs is in ABORTING (R495). -/
def Block.bellDev (b : Block) (r : BellRec) : Dev := if b.jobRuns then { b.shownBell r with state := 5 } else b.shownBell r

theorem Block.bellFaults_reset (b : Block) (r : BellRec) : (b.bellFaults r).reset = b.faults.reset ∧ (b.bellFaults r).handling = b.faults.handling := by
  unfold Block.bellFaults
  split <;> split <;> exact ⟨rfl, rfl⟩

theorem Block.bellFaults_first {b : Block} (h : b.faults.bells = []) (r : BellRec) : (b.bellFaults r).bells = [r] := by
  simp only [Block.bellFaults, h, List.any_nil, Bool.not_false, Bool.true_or, if_true]
  split
  · rfl
  · exact congrArg (· ++ [r]) h

theorem Block.shownBell_earliest {b : Block} {r : BellRec} (h : ∀ q ∈ b.faults.bells, r.ta < q.ta) :
    b.shownBell r = { b.dev with bellOrigin := r.origin, bellEpoch := r.epoch, bellTa := r.ta, bellPending := true, bellPassed := false, bellDone := false } :=
  if_pos (List.all_eq_true.mpr fun q hq => decide_eq_true (h q hq))

theorem Block.shownBell_later {b : Block} {r q : BellRec} (hq : q ∈ b.faults.bells) (h : q.ta ≤ r.ta) : b.shownBell r = b.dev :=
  if_neg fun hall => Nat.not_lt.mpr h (of_decide_eq_true (List.all_eq_true.mp hall q hq))

theorem Block.bellDev_of_jobRuns {b : Block} (h : b.jobRuns = true) (r : BellRec) : b.bellDev r = { b.shownBell r with state := 5 } := if_pos h

/-- A state that has taken a bell: the bell has changed the faults and the registers, is sent on, and is told (R495, R447). -/
def State.BellTaken (s : State) (r : BellRec) (u : State) : Prop :=
  ∃ v : State, ({ s.m with faults := s.m.bellFaults r, dev := s.m.bellDev r } : Block).SendsOnly v.m ∧ v.mem = s.mem ∧ v.pending = s.pending ∧ v.TellsOnly u

theorem State.bellTaken_takeBell (s : State) (origin epoch error raiser : Nat) (host : Bool) (step reason ta : Nat) (arrived : Option Nat) (suspectAt : Nat) :
    s.BellTaken { origin := origin, epoch := epoch, ta := ta, error := error, suspectAt := suspectAt }
      (s.takeBell origin epoch error raiser host step reason ta arrived suspectAt) := by
  unfold State.takeBell
  extract_lets b known earlier first s₁ s₂ s₃
  generalize hr : ({ origin := origin, epoch := epoch, ta := ta, error := error, suspectAt := suspectAt } : BellRec) = r
  refine ⟨s₃, ?_, rfl, rfl, .ite (State.tellsOnly_postEvent ..) (.refl _)⟩
  have h₁ : ({ s.m with faults := s.m.bellFaults r } : Block).SendsOnly s₁.m := by
    subst hr
    unfold s₁ Block.bellFaults
    rw [State.on_m]
    extract_lets old f b₁ opened b₂
    have hopened : b₁ = { s.m with faults := f } := by
      unfold b₁ f
      split <;> rfl
    clear_value b₁
    subst hopened
    by_cases hheld : (!known || earlier) = true
    · rw [if_pos hheld, if_pos hheld]
      exact .foldl (fun b n => b.sendsOnly_sendLink n ..) _
    · rw [if_neg hheld, if_neg hheld]
      exact Block.sendsOnly_bump ..
  obtain ⟨ports, links, counts, fab, hm₁⟩ := h₁
  have hm₂ : s₂.m = { s₁.m with dev := s.m.shownBell r } := by
    subst hr
    unfold s₂ Block.shownBell
    rw [State.on_m, hm₁]
    split <;> rfl
  have hruns : s₂.m.jobRuns = s.m.jobRuns := by
    rw [Block.jobRuns, hm₂]
    unfold Block.shownBell
    split <;> rfl
  refine ⟨ports, links, counts, fab, ?_⟩
  unfold s₃ Block.bellDev
  rw [State.on_m, hruns, hm₂, hm₁]
  split <;> rfl

section
variable {s u : State} {r : BellRec} (h : s.BellTaken r u)
include h

theorem State.BellTaken.faults : u.m.faults = s.m.bellFaults r := by
  obtain ⟨v, ⟨_, _, _, _, hv⟩, -, -, htold⟩ := h
  rw [htold.faults, hv]

theorem State.BellTaken.crofts : u.m.crofts = s.m.crofts := by
  obtain ⟨v, ⟨_, _, _, _, hv⟩, -, -, htold⟩ := h
  rw [htold.crofts, hv]

theorem State.BellTaken.registers (hruns : s.m.jobRuns = true) : u.m.dev.state = 5 ∧ u.m.dev.bellOrigin = (s.m.shownBell r).bellOrigin
    ∧ u.m.dev.bellEpoch = (s.m.shownBell r).bellEpoch ∧ u.m.dev.bellTa = (s.m.shownBell r).bellTa ∧ u.m.dev.bellPending = (s.m.shownBell r).bellPending := by
  obtain ⟨v, ⟨_, _, _, _, hv⟩, -, -, ⟨_, _, _, _, _, _, _, _, _, rfl⟩⟩ := h
  rw [hv, Block.bellDev_of_jobRuns hruns]
  exact ⟨rfl, rfl, rfl, rfl, rfl⟩

end

/-! The bell of a CONFIRM (R490) -/

/-- A bell raised here is the module's own, 250 us ahead (R494). -/
theorem State.bellTaken_raiseBell (s : State) (origin epoch error : Nat) (host : Bool) (reason suspectAt : Nat) :
    (s.on (·.bump .bellsRaised)).BellTaken { origin := origin, epoch := epoch, ta := s.m.newTa, error := error, suspectAt := suspectAt }
      (s.raiseBell origin epoch error host reason suspectAt) := State.bellTaken_takeBell ..

theorem State.applyReport_confirm {s : State} {r : Report} (hkind : r.kind = 1) (hruns : s.m.jobRuns = true) (hbells : s.m.faults.bells = []) (x : Suspicion) :
    s.applyReport r x = s.raiseBell r.origin r.epoch 0 false 0 := by
  simp only [State.applyReport, State.quorumBell, hkind, hruns, hbells, Nat.reduceBEq, Bool.true_or, Bool.false_eq_true, if_false, if_true, Bool.not_true, List.any_nil,
    Bool.or_false]

/-- Settles O29: the earliest bell is shown, and a CONFIRM raises one. -/
theorem bellsDecideByEarliestTa : Obligations.BellsDecideByEarliestTa := by
  unfold Obligations.BellsDecideByEarliestTa
  intro s origin epoch error raiser step reason ta host arrived hruns
  have htaken := s.bellTaken_takeBell origin epoch error raiser host step reason ta arrived 0
  obtain ⟨hstate, horigin, hepoch, hta, hpending⟩ := htaken.registers hruns
  refine ⟨fun hnone => ?_, fun q hq hle => ?_, fun _ _ _ hall => ?_, fun r x hkind hnone => ?_⟩
  · have hshown := Block.shownBell_earliest (b := s.m) (r := { origin := origin, epoch := epoch, ta := ta, error := error }) (by rw [hnone]; nofun)
    rw [hshown] at horigin hepoch hta hpending
    exact ⟨horigin, hepoch, hta, hpending, hstate, (congrArg Faults.bells htaken.faults).trans (Block.bellFaults_first hnone _)⟩
  · rw [Block.shownBell_later hq hle] at horigin hta hpending
    exact ⟨hta, horigin, hpending, hstate⟩
  · rw [Block.shownBell_earliest hall] at hta
    exact hta
  · have hruns' : (s.on (·.bump .bellsRaised)).m.jobRuns = true := by rw [State.on_m, Block.jobRuns, Block.bump_dev]; exact hruns
    obtain ⟨hstate, horigin, hepoch, hta, -⟩ := (s.bellTaken_raiseBell r.origin r.epoch 0 false 0 0).registers hruns'
    rw [Block.shownBell_earliest (by rw [State.on_m, Block.bump_faults, hnone]; nofun)] at horigin hepoch hta
    dsimp only
    rw [State.applyReport_confirm hkind hruns hnone]
    exact ⟨hstate, horigin, hepoch, hta⟩

end Sys2Proof.Machine

/-! Resets, from their begin to the replay (O52, R461 to R468, R476). -/
namespace Sys2Proof.Machine

/-! The begin of a reset (R467, R476) -/

theorem Block.linksOnly_setLinks (b : Block) (d : Domain) (state : Nat) : b.LinksOnly (b.setLinks d state) :=
  Block.linksOnly_foldl (fun b _ _ => (b.linksOnly_onPort (by omega) _).trans (Block.linksOnly_onPort (by omega) ..)) b

theorem Block.linksOnly_countReset (b : Block) (d : Domain) : b.LinksOnly (b.countReset d) := by
  cases d with
  | module => exact .refl b
  | _ => exact (b.linksOnly_bump ..).trans (Block.linksOnly_bump ..)

theorem Block.stopped_haltCroft (b : Block) (n faultAt c : Nat) :
    ((b.haltCroft n faultAt).croft c).stopped = if n = c ∧ c < b.crofts.length then true else (b.croft c).stopped :=
  (congrArg Croft.stopped (Block.croft_onCroft ..)).trans (apply_ite ..)

theorem Block.length_crofts_haltCroft (b : Block) (n faultAt : Nat) : (b.haltCroft n faultAt).crofts.length = b.crofts.length := by
  change (modAt n _ b.crofts).length = _
  rw [modAt_eq_modify, List.length_modify]

/-- Of the crofts that halt one after the other every one is stopped. -/
theorem Block.stopped_foldl_haltCroft {n : Nat} {ns : List Nat} (faultAt : Nat) {b : Block} (hn : n < b.crofts.length) (h : n ∈ ns ∨ (b.croft n).stopped = true) :
    ((ns.foldl (fun b n => b.haltCroft n faultAt) b).croft n).stopped = true := by
  induction ns generalizing b with
  | nil => exact h.resolve_left List.not_mem_nil
  | cons k ns ih =>
    refine ih (by rwa [Block.length_crofts_haltCroft]) ?_
    rw [Block.stopped_haltCroft]
    rcases h with h | h
    · rcases List.mem_cons.mp h with rfl | h
      · exact .inr (if_pos ⟨rfl, hn⟩)
      · exact .inl h
    · exact .inr (by rw [h, ite_self])

theorem Block.foldl_haltCroft_faults (ns : List Nat) (faultAt : Nat) (b : Block) : (ns.foldl (fun b n => b.haltCroft n faultAt) b).faults = b.faults :=
  List.foldlRecOn (motive := fun d : Block => d.faults = b.faults) ns _ rfl fun _ hd _ _ => hd

theorem State.foldl_wipeCroft_faults (ns : List Nat) (s : State) : (ns.foldl (fun s n => s.wipeCroft n) s).m.faults = s.m.faults :=
  List.foldlRecOn (motive := fun u : State => u.m.faults = s.m.faults) ns _ rfl fun _ hu _ _ => hu

theorem State.foldl_wipeCroft_stopped (ns : List Nat) (s : State) (c : Nat) : ((ns.foldl (fun s n => s.wipeCroft n) s).m.croft c).stopped = (s.m.croft c).stopped :=
  List.foldlRecOn (motive := fun u : State => (u.m.croft c).stopped = (s.m.croft c).stopped) ns _ rfl
    fun u hu n _ => (Block.croft_onCroft_of_keeps (g := Croft.stopped) (fun _ => by rfl) u.m n c).trans hu

/-- A state in which a reset has begun: it is the one handled, and the crofts of its domain are stopped (R467, R476). -/
structure State.ResetBegun (u : State) (d : Domain) (since : Nat) (e : ErrorRec) (crofts : Nat) : Prop where
  handling : u.m.faults.handling = some e
  reset : u.m.faults.reset = some { domain := d, since := since, error := e }
  stopped : ∀ n ∈ d.crofts, n < crofts → (u.m.croft n).stopped = true

theorem State.BellTaken.resetBegun {s u : State} {r : BellRec} (h : s.BellTaken r u) {d : Domain} {since : Nat} {e : ErrorRec} {crofts : Nat}
    (hs : s.ResetBegun d since e crofts) : u.ResetBegun d since e crofts where
  handling := by rw [h.faults, (s.m.bellFaults_reset r).2, hs.handling]
  reset := by rw [h.faults, (s.m.bellFaults_reset r).1, hs.reset]
  stopped n hn hlt := by rw [Block.croft, h.crofts]; exact hs.stopped n hn hlt

theorem State.resetBegun_beginReset (s : State) (d : Domain) (e : ErrorRec) : (s.beginReset d e).ResetBegun d s.m.span e s.m.crofts.length := by
  unfold State.beginReset
  extract_lets s₁ s₂ s₃
  have h₁ : s₁.ResetBegun d s.m.span e s.m.crofts.length := by
    unfold s₁
    rw [State.on]
    extract_lets b₁ f b₂ b₃ k b₄ b₅
    obtain ⟨links, counts, hb₁⟩ := s.m.linksOnly_countReset d
    have hb₂ : b₂.faults.handling = some e ∧ b₂.faults.reset = some { domain := d, since := s.m.span, error := e } ∧ b₂.crofts.length = s.m.crofts.length := by
      unfold b₂ b₁
      rw [hb₁]
      exact ⟨rfl, rfl, rfl⟩
    have hb₅ : b₅.faults.handling = b₂.faults.handling ∧ b₅.faults.reset = b₂.faults.reset ∧ b₅.crofts.length = b₂.crofts.length := by
      cases d with
      | compute => exact ⟨rfl, rfl, List.length_map ..⟩
      | _ => exact ⟨rfl, rfl, rfl⟩
    obtain ⟨hhandling, hreset, hlength⟩ := hb₂
    obtain ⟨hhandling₅, hreset₅, hlength₅⟩ := hb₅
    obtain ⟨links, counts, hset⟩ := (d.crofts.foldl (fun b n => b.haltCroft n e.at_) b₅).linksOnly_setLinks d 1
    have hfaults := Block.foldl_haltCroft_faults d.crofts e.at_ b₅
    constructor
    · rw [hset]
      exact (congrArg Faults.handling hfaults).trans (hhandling₅.trans hhandling)
    · rw [hset]
      exact (congrArg Faults.reset hfaults).trans (hreset₅.trans hreset)
    · intro n hn hlt
      rw [hset]
      exact Block.stopped_foldl_haltCroft e.at_ (by rw [hlength₅, hlength]; exact hlt) (.inl hn)
  have h₂ : s₂.ResetBegun d s.m.span e s.m.crofts.length :=
    { handling := (congrArg Faults.handling (State.foldl_wipeCroft_faults ..)).trans h₁.handling
      reset := (congrArg Faults.reset (State.foldl_wipeCroft_faults ..)).trans h₁.reset
      stopped := fun n hn hlt => (State.foldl_wipeCroft_stopped ..).trans (h₁.stopped n hn hlt) }
  have h₃ : s₃.ResetBegun d s.m.span e s.m.crofts.length := ⟨h₂.handling, h₂.reset, h₂.stopped⟩
  split
  · split
    · exact (State.bellTaken_raiseBell ..).resetBegun ⟨(congrArg Faults.handling (Block.bump_faults ..)).trans h₃.handling,
        (congrArg Faults.reset (Block.bump_faults ..)).trans h₃.reset, fun n hn hlt => (congrArg Croft.stopped (Block.bump_croft ..)).trans (h₃.stopped n hn hlt)⟩
    · exact h₃
  · exact h₂

/-! HANDLER_TAKE with nothing to take (R461, R463) -/

theorem State.handlerStarts_of_quiet {s : State} (hlog : s.m.faults.logFifo = []) (huntraced : s.m.faults.untraced = []) (harrived : s.m.faults.arrived = []) (t : Nat) :
    (s.on (fun b => b.advanceTo t)).drainLog = s.on (fun b => b.advanceTo t) ∧ s.handlerStarts t = s.on (fun b => b.advanceTo t) := by
  have hlog' : (s.on (fun b => b.advanceTo t)).m.faults.logFifo = [] := hlog
  have huntraced' : (s.on (fun b => b.advanceTo t)).m.faults.untraced = [] := huntraced
  have hemptied (f : Faults) (hl : f.logFifo = []) (hu : f.untraced = []) (ha : f.arrived = []) :
      ({ f with logFifo := [], untraced := [] } : Faults) = f ∧ ({ f with arrived := [] } : Faults) = f := by
    cases f
    cases hl
    cases hu
    cases ha
    exact ⟨rfl, rfl⟩
  obtain ⟨hfifo, hnone⟩ := hemptied s.m.faults hlog huntraced harrived
  have hdrain : (s.on (fun b => b.advanceTo t)).drainLog = s.on (fun b => b.advanceTo t) := by
    rw [State.drainLog_eq, hlog', huntraced', List.foldl_nil, List.foldl_nil]
    exact State.on_eq_self (congrArg (fun f => { s.m.advanceTo t with faults := f }) hfifo)
  refine ⟨hdrain, ?_⟩
  rw [State.handlerStarts, hdrain]
  exact State.on_eq_self (congrArg (fun f => { s.m.advanceTo t with faults := f }) hnone)

theorem State.takeQueued_of_empty {s : State} (h : s.m.faults.queue = []) (n : Nat) : s.takeQueued n = s := by
  cases n with
  | zero => rfl
  | succ n =>
    unfold State.takeQueued
    split
    · next hq => cases h.symm.trans hq
    · rfl

theorem State.handlerFails_of_idle {s : State} (h : s.m.faults.reset = none) : s.handlerFails none = s := by
  simp only [State.handlerFails, h]

theorem State.handlerFails_of_reset {s : State} {r : Reset} (h : s.m.faults.reset = some r) (hdomain : r.domain ≠ .module) (handled : Option ErrorRec) :
    s.handlerFails handled = s.escalate r false := by
  simp only [State.handlerFails, h, beq_iff_eq, if_neg hdomain]

theorem exec_handlerTake_of_quiet {s : State} (hlog : s.m.faults.logFifo = []) (huntraced : s.m.faults.untraced = []) (harrived : s.m.faults.arrived = [])
    (hqueue : s.m.faults.queue = []) (t : Nat) (failed : Bool) :
    exec (.handlerTake t failed) s = .next (if failed then (s.on (fun b => b.advanceTo t)).handlerFails none else s.on (fun b => b.advanceTo t)) := by
  obtain ⟨hdrain, hstarts⟩ := State.handlerStarts_of_quiet hlog huntraced harrived t
  have harrived' : (s.on (fun b => b.advanceTo t)).m.faults.arrived = [] := harrived
  have hqueue' : (s.on (fun b => b.advanceTo t)).m.faults.queue = [] := hqueue
  rw [exec_handlerTake, hdrain, hstarts, harrived']
  simp only [List.foldl_nil, hqueue', State.takeQueued_of_empty, List.head?_nil, List.getLast?_nil, Option.orElse_none]

/-! RESET_TIMEOUT (R459, R463, R468) -/

theorem exec_resetTimeout_early {s : State} {t : Nat} {r : Reset} {n : Nat} (hreset : s.m.faults.reset = some r) (htimeout : r.domain.timeout = some n)
    (h : (s.m.advanceTo t).span < r.since + n) : exec (.resetTimeout t) s = .next (s.on (fun b => b.advanceTo t)) := by
  simp only [exec, execResetTimeout, State.on_m, Block.advanceTo_faults, hreset, htimeout, h, if_true]

theorem exec_resetTimeout_late {s : State} {t : Nat} {r : Reset} {n : Nat} (hreset : s.m.faults.reset = some r) (htimeout : r.domain.timeout = some n)
    (h : r.since + n ≤ (s.m.advanceTo t).span) :
    exec (.resetTimeout t) s = .next (((s.on (fun b => b.advanceTo t)).on (fun b => (b.bump .resetTimeouts).bump (.life 0xA 0))).escalate r true) := by
  simp only [exec, execResetTimeout, State.on_m, Block.advanceTo_faults, hreset, htimeout, Nat.not_lt.mpr h, if_false]

/-- The block in which a reset that ran past its time escalates: both counters have counted it (R498, R552). -/
def Block.timedOut (b : Block) (e : ErrorRec) : Block := ((((b.bump .resetTimeouts).bump (.life 0xA 0)).bump .handlerFaults).bump (.life 0xA 2)).detection e

theorem Block.count_timedOut (b : Block) (e : ErrorRec) : (b.timedOut e).count .resetTimeouts = Nat.min (b.count .resetTimeouts + 1) (2 ^ 64 - 1)
    ∧ (b.timedOut e).count .handlerFaults = Nat.min (b.count .handlerFaults + 1) (2 ^ 64 - 1) := by
  constructor <;> simp (disch := simp) only [Block.timedOut, Block.count_detection, Block.count_bump_ne, Block.count_bump_self]

/-! RESET_COMPLETE (R476, R497) -/

theorem State.cross_of_quiet {s : State} (hcrossing : s.m.fab.crossing = []) (hinner : s.m.mill.inner = []) (hcompare : s.m.faults.compare = [])
    (hissued : s.m.mill.scalarIssued ≠ none) : s.cross = s := by
  have hemptied (f : Faults) (h : f.compare = []) : ({ f with compare := [] } : Faults) = f := by
    cases f
    cases h
    rfl
  have hemptied' (f : Fab) (h : f.crossing = []) : ({ f with crossing := [] } : Fab) = f := by
    cases f
    cases h
    rfl
  have hcontribute : s.contributeAll = s := by
    simp only [State.contributeAll, hinner, List.isEmpty_nil, if_true]
  have hcompared : s.compareAll = s := by
    rw [State.compareAll, hcompare, List.foldl_nil]
    exact State.on_eq_self (congrArg (fun f => { s.m with faults := f }) (hemptied s.m.faults hcompare))
  have hcrossed : s.on (fun b => { b with fab := { b.fab with crossing := [] } }) = s :=
    State.on_eq_self (congrArg (fun f => { s.m with fab := f }) (hemptied' s.m.fab hcrossing))
  have hscalars : s.maybeScalars = s := by
    simp only [State.maybeScalars, Option.isNone_iff_eq_none, hissued, Bool.and_eq_true, false_and, if_false]
  rw [State.cross, hcontribute, hcompared]
  dsimp only
  rw [hcrossing, List.foldl_nil, hcrossed, hscalars]

/-- The end of an abort leaves the crofts, and what is handled, as they are. -/
theorem State.abortSettle_handled (s : State) : s.abortSettle.m.crofts = s.m.crofts ∧ s.abortSettle.m.faults.reset = s.m.faults.reset
    ∧ s.abortSettle.m.faults.handling = s.m.faults.handling := by
  have hoos (u : State) (reason : Nat) : (u.enterOos reason).m.crofts = u.m.crofts ∧ (u.enterOos reason).m.faults.reset = u.m.faults.reset
      ∧ (u.enterOos reason).m.faults.handling = u.m.faults.handling := by
    unfold State.enterOos
    rw [(State.tellsOnly_event ..).crofts, (State.tellsOnly_event ..).faults, State.on_m, Block.bump_crofts, Block.bump_faults]
    exact ⟨rfl, rfl, rfl⟩
  unfold State.abortSettle
  split
  · dsimp only
    split
    · exact hoos ..
    · exact ⟨rfl, rfl, rfl⟩
  · exact ⟨rfl, rfl, rfl⟩

/-- The state in which a reset has ended, and nothing is being handled (R461). -/
def State.resetEnds (s : State) (t : Nat) : State := s.on (fun b => { b.advanceTo t with faults := { b.faults with reset := none, handling := none } })

/-- A croft runs again after its reset, its entries to be replayed (R476). -/
def Block.resume (b : Block) (n : Nat) : Block := (b.planReplay n true).onCroft n (fun c => { c with stopped := false })

theorem exec_resetComplete_croft {s : State} {t n since : Nat} {e : ErrorRec} (hreset : s.m.faults.reset = some { domain := .croft n, since := since, error := e })
    (failing : List Nat) : exec (.resetComplete t failing) s =
      .next ((((s.resetEnds t).cross.settleSuspect n (!failing.contains n)).on (fun b => b.resume n)).cross.abortSettle) := by
  simp only [exec, execResetComplete, State.on_m, Block.advanceTo_faults, hreset]
  rfl

theorem Block.stopped_resume {b : Block} {n : Nat} (hn : n < b.crofts.length) : ((b.resume n).croft n).stopped = false := by
  have hlength : (b.planReplay n true).crofts.length = b.crofts.length := by
    change (modAt n _ b.crofts).length = _
    rw [modAt_eq_modify, List.length_modify]
  rw [Block.resume, Block.croft_onCroft_self (hlength ▸ hn)]

/-- A croft that is not suspect has no remap before it (R480). -/
theorem State.settleSuspect_of_trusted {s : State} {n : Nat} (h : (s.m.croft n).suspect = false) (ok : Bool) : s.settleSuspect n ok = s := by
  simp only [State.settleSuspect, h, Bool.not_false, if_true]

/-- Where nothing waits to cross the package and nothing is to be compared, a reset that is complete ends its handling and lets its croft run (R476). -/
theorem resetComplete_croft {s : State} {t n since : Nat} {e : ErrorRec} (hreset : s.m.faults.reset = some { domain := .croft n, since := since, error := e }) (hn : n < s.m.crofts.length)
    (htrusted : (s.m.croft n).suspect = false) (hcrossing : s.m.fab.crossing = []) (hinner : s.m.mill.inner = []) (hcompare : s.m.faults.compare = [])
    (hissued : s.m.mill.scalarIssued ≠ none) (failing : List Nat) :
    Runs (.resetComplete t failing) s (fun v => v.m.faults.reset = none ∧ v.m.faults.handling = none ∧ (v.m.croft n).stopped = false) := by
  have hended : (s.resetEnds t).cross = s.resetEnds t := State.cross_of_quiet hcrossing hinner hcompare hissued
  have hresumed : ((s.resetEnds t).on (fun b => b.resume n)).cross = (s.resetEnds t).on (fun b => b.resume n) := State.cross_of_quiet hcrossing hinner hcompare hissued
  refine ⟨_, exec_resetComplete_croft hreset failing, ?_⟩
  rw [hended, State.settleSuspect_of_trusted (s := s.resetEnds t) htrusted, hresumed]
  obtain ⟨hcrofts, hreset', hhandling⟩ := State.abortSettle_handled ((s.resetEnds t).on (fun b => b.resume n))
  refine ⟨hreset', hhandling, ?_⟩
  rw [Block.croft, hcrofts]
  exact Block.stopped_resume (b := (s.resetEnds t).m) hn

/-- Settles O52: resets begin, end and time out, and entries are replayed. -/
theorem faultHandling : Obligations.FaultHandling := by
  unfold Obligations.FaultHandling
  intro s t
  refine ⟨fun d e => ?_, fun hlog huntraced harrived hqueue => ?_, fun r n hreset htimeout => ⟨exec_resetTimeout_early hreset htimeout, fun hlate => ?_⟩,
    fun r n failing hreset hdomain hn htrusted hcrossing hinner hcompare hissued => ?_, fun r n failing hreset hdomain => ?_, fun c i a hredo acc => ?_⟩
  · obtain ⟨hhandling, hreset, hstopped⟩ := s.resetBegun_beginReset d e
    exact ⟨hhandling, (State.beginReset_keeps d e (.refl s)).1, ⟨_, hreset, rfl, rfl⟩, hstopped⟩
  · have htake := exec_handlerTake_of_quiet hlog huntraced harrived hqueue t
    refine ⟨fun failed hquiet => ?_, fun r hreset hdomain => ?_⟩
    · rw [htake]
      rcases hquiet with rfl | hidle
      · rfl
      · rw [State.handlerFails_of_idle hidle, ite_self]
    · rw [htake, if_pos rfl, State.handlerFails_of_reset hreset hdomain]
  · obtain ⟨hresets, hhandler⟩ := (s.m.advanceTo t).count_timedOut { r.error with cls := r.domain.next.2, code := 0x0A, cause := 12 }
    exact ⟨s.on (fun b => (b.advanceTo t).timedOut { r.error with cls := r.domain.next.2, code := 0x0A, cause := 12 }), rfl, hresets, hhandler,
      exec_resetTimeout_late hreset htimeout hlate⟩
  · obtain ⟨_, since, e⟩ := r
    cases hdomain
    exact resetComplete_croft (s := s) hreset hn htrusted hcrossing hinner hcompare hissued failing
  · obtain ⟨_, since, e⟩ := r
    cases hdomain
    exact exec_resetComplete_croft (s := s) hreset failing
  · simp only [exec, execReplay, hredo]

end Sys2Proof.Machine

/-! Watchdogs (O49, R461 to R466, R477, R478). -/
namespace Sys2Proof.Machine

section
variable {s u : State} {t c : Nat} {un : CroftUnit} (hu : s.on (fun b => b.advanceTo t) = u)
include hu

/-! A croft's own timers (R464) -/

theorem exec_croftWatchdog {i : Nat} (hworks : u.working c un = some i) (hruns : (u.m.croft c).stopped = false) (counted : Nat) :
    exec (.croftWatchdog t c un counted) s =
      if u.m.now < Nat.max ((assocGet un (u.m.croft c).beats).getD u.m.now) counted + 20000 then .next u
      else .next ((u.on (fun b => b.bump .badgerFires)).stopCroft c i { cls := .t, code := 0x0A, at_ := 0, croftSide := true, cause := 12 }) := by
  simp only [exec, execCroftWatchdog, hu, hworks, hruns, Bool.false_or, decide_eq_true_eq]

theorem exec_localStallLimit {x : Stall} (hstall : (u.m.croft c).stalls.find? (fun x => x.unit == un && x.tier != 3) = some x) :
    exec (.localStallLimit t c un) s =
      if u.m.now < x.since + 10000000 then .next u
      else .next ((u.on (fun b => (b.bump .badgerFires).endStall c un)).raiseErr { cls := .d, code := 0x0A, at_ := 0, croft := some c, cause := 12 }) := by
  simp only [exec, execLocalStallLimit, hu, hstall]

/-! The fault step of a croft (R478) -/

theorem exec_croftFaultWindow {at_ : Nat} (hlast : (u.m.croft c).lastFault = some at_) : exec (.croftFaultWindow t c) s = .next (
    if at_ + 10000000000 ≤ u.m.span then
      u.on (fun b => b.onCroft c (fun k => { k with faultStep := 0, lastFault := none, faultEntry := none, domainEntry := none }))
    else u) := by
  subst hu
  rw [State.on_m] at hlast
  simp only [exec, execCroftFaultWindow, atTime, State.on, hlast]
  exact congrArg Host.Outcome.next (apply_ite (fun b : Block => ({ s with m := b } : State)) ..)

end

/-! Waits on other modules (R464, R491) -/

/-- The watch of a producer is kept anew, and counts as a detection of the badger (R464, R491). -/
def Block.watch (b : Block) (w : Watch) : Block :=
  { b.bump .badgerFires with faults := { b.faults with watches := b.faults.watches.filter (fun x => x.producer != w.producer) ++ [w] } }

theorem Block.mem_watches_watch (b : Block) (w : Watch) : w ∈ (b.watch w).faults.watches := List.mem_append_right _ List.mem_cons_self

/-- Is a wait watched that has reached its bound (R464)? -/
def Block.bounded (b : Block) (p since : Nat) : Bool := b.faults.watches.any (fun w => w.producer == p && w.since == since && w.bound)

theorem Block.bounded_eq_false {b : Block} {p since : Nat} (h : ∀ w ∈ b.faults.watches, ¬(w.producer = p ∧ w.since = since ∧ w.bound = true)) : b.bounded p since = false := by
  refine List.any_eq_false.mpr fun w hw => ?_
  simpa only [Bool.and_eq_true, beq_iff_eq, and_assoc] using h w hw

section
variable {s u : State} {t p since : Nat} (hu : s.on (fun b => b.advanceTo t) = u) (hwait : u.waitSince p = some since)
include hu hwait

theorem exec_remoteWatch : exec (.remoteWatch t p) s =
    if u.m.now < since + 5000000 || !u.m.jobRuns || !u.m.maySuspect p since then .next u
    else .next ((u.on (fun b => b.watch { producer := p, since := since, bound := u.m.bounded p since })).raiseSuspect p 2 0x1F 0) := by
  simp only [exec, execRemoteWatch, hu, hwait]
  rfl

theorem exec_remoteBound : exec (.remoteBound t p) s =
    if u.m.now < since + 100000000 || !u.m.jobRuns || u.m.bounded p since then .next u
    else .next ((u.on (fun b => b.watch { producer := p, since := since, bound := true })).raiseErr { cls := .j, code := 0x0A, at_ := 0, cause := 12 }) := by
  simp only [exec, execRemoteBound, hu, hwait]
  rfl

theorem exec_remoteWatch_due (hruns : u.m.jobRuns = true) (hlong : since + 5000000 ≤ u.m.now) (hmay : u.m.maySuspect p since = true) : exec (.remoteWatch t p) s =
    .next ((u.on (fun b => b.watch { producer := p, since := since, bound := u.m.bounded p since })).raiseSuspect p 2 0x1F 0) := by
  rw [exec_remoteWatch hu hwait, decide_eq_false (Nat.not_lt.mpr hlong), hruns, hmay]
  rfl

theorem exec_remoteWatch_quiet (h : u.m.now < since + 5000000 ∨ u.m.maySuspect p since = false) : exec (.remoteWatch t p) s = .next u := by
  rw [exec_remoteWatch hu hwait]
  refine if_pos ?_
  rcases h with h | h
  · rw [decide_eq_true h, Bool.true_or, Bool.true_or]
  · rw [h, Bool.not_false, Bool.or_true]

theorem exec_remoteBound_due (hruns : u.m.jobRuns = true) (hlong : since + 100000000 ≤ u.m.now) (hfirst : u.m.bounded p since = false) : exec (.remoteBound t p) s =
    .next ((u.on (fun b => b.watch { producer := p, since := since, bound := true })).raiseErr { cls := .j, code := 0x0A, at_ := 0, cause := 12 }) := by
  rw [exec_remoteBound hu hwait, decide_eq_false (Nat.not_lt.mpr hlong), hruns, hfirst]
  rfl

theorem exec_remoteBound_early (h : u.m.now < since + 100000000) : exec (.remoteBound t p) s = .next u := by
  rw [exec_remoteBound hu hwait, decide_eq_true h]
  rfl

end

section
variable {s : State} {t : Nat}

/-! An error that arrives alone (R461, R462, R477) -/

theorem State.tellsOnly_countError (e : ErrorRec) (hcls : e.cls ≠ .m) (s : State) : (s.on (·.countErr e.cls)).TellsOnly (s.countError e) := by
  unfold State.countError
  extract_lets s₁ s₂
  have h₂ : s₁.TellsOnly s₂ := by
    unfold s₂
    rw [if_neg (fun h => hcls (beq_iff_eq.mp h))]
    exact State.tellsOnly_traceErr ..
  exact .ite (h₂.trans (State.tellsOnly_event ..)) h₂

theorem Block.noteWriter_faults (b : Block) (e : ErrorRec) : (b.noteWriter e).faults = b.faults := by
  unfold Block.noteWriter
  split
  · split <;> rfl
  · rfl

theorem Block.merges_of_idle {b : Block} (hreset : b.faults.reset = none) (hqueue : b.faults.queue = []) (e : ErrorRec) : b.merges e = false := by
  simp only [Block.merges, hreset, hqueue, List.any_nil, Bool.or_self]

theorem State.grade_of_not_croftSide {e : ErrorRec} (h : e.croftSide = false) (s : State) : s.grade e = (s, e) := by
  simp only [State.grade, h]

/-- An error of class D that arrives while nothing is handled begins the reset of the compute domain at once (R461, R477). -/
theorem State.letIn_classD {e : ErrorRec} (hcls : e.cls = .d) (hside : e.croftSide = false) (hreset : s.m.faults.reset = none) (hqueue : s.m.faults.queue = [])
    (hidle : s.m.faults.handling = none) : s.letIn e = ((s.on (fun b => (b.noteWriter e).detection e)).countError e).beginReset .compute e := by
  have hnoted : ((s.m.noteWriter e).detection e).faults = s.m.faults := (Block.detection_faults ..).trans (Block.noteWriter_faults ..)
  have hcounted : ((s.on (fun b => (b.noteWriter e).detection e)).countError e).m.faults = s.m.faults :=
    (State.tellsOnly_countError e (by rw [hcls]; decide) _).faults.trans ((Block.countErr_faults ..).trans hnoted)
  have hmerges (b : Block) (h : b.faults = s.m.faults) : b.merges e = false := Block.merges_of_idle (by rw [h, hreset]) (by rw [h, hqueue]) e
  have hplace : ((s.on (fun b => (b.noteWriter e).detection e)).countError e).place e =
      some (((s.on (fun b => (b.noteWriter e).detection e)).countError e).beginReset .compute e) := by
    simp only [State.place, hmerges _ hcounted, hcounted, hidle, State.startHandling, ErrorRec.domain, hcls, Bool.false_eq_true, if_false]
  simp only [State.letIn, State.on_m, hmerges _ hnoted, State.grade_of_not_croftSide hside, Bool.false_eq_true, if_false]
  rw [if_neg (by rw [hcls]; decide), hplace]

theorem State.takeQueued_of_handling {e : ErrorRec} (h : s.m.faults.handling = some e) (n : Nat) : s.takeQueued n = s := by
  cases n with
  | zero => rfl
  | succ n =>
    unfold State.takeQueued
    split
    · next hnone _ => cases h.symm.trans hnone
    · rfl

theorem exec_handlerTake_classD {e : ErrorRec} (harrived : (s.on (fun b => b.advanceTo t)).drainLog.m.faults.arrived = [e]) (hqueue : (s.handlerStarts t).m.faults.queue = [])
    (hreset : (s.handlerStarts t).m.faults.reset = none) (hidle : (s.handlerStarts t).m.faults.handling = none) (hcls : e.cls = .d) (hside : e.croftSide = false) :
    exec (.handlerTake t false) s = .next ((((s.handlerStarts t).on (fun b => (b.noteWriter e).detection e)).countError e).beginReset .compute e) := by
  rw [exec_handlerTake, harrived]
  simp only [List.foldl_cons, List.foldl_nil, Bool.false_eq_true, if_false]
  rw [State.letIn_classD hcls hside hreset hqueue hidle, State.takeQueued_of_handling (State.resetBegun_beginReset ..).handling]

end

/-- Settles O49: each timer fires at its limit, and an error of class D alone begins the compute domain's reset. -/
theorem watchdogs : Obligations.Watchdogs := by
  unfold Obligations.Watchdogs
  intro s t c un
  refine ⟨fun i counted hworks hruns => ?_, fun x hstall => ?_, fun p since hwait hruns => ⟨fun hlong hmay => ?_, exec_remoteWatch_quiet rfl hwait, fun hlong hfirst => ?_,
    exec_remoteBound_early rfl hwait⟩, fun at_ hlast hc => ⟨fun hlong => ?_, fun hshort => ?_⟩, fun e harrived hqueue hreset hidle hcls hside =>
      exec_handlerTake_classD harrived hqueue hreset hidle hcls hside⟩
  · have hdog := exec_croftWatchdog rfl hworks hruns counted
    exact ⟨fun hlong => hdog.trans (if_neg (Nat.not_lt.mpr hlong)), fun hshort => hdog.trans (if_pos hshort)⟩
  · have hlimit := exec_localStallLimit rfl hstall
    exact ⟨fun hlong => hlimit.trans (if_neg (Nat.not_lt.mpr hlong)), fun hshort => hlimit.trans (if_pos hshort)⟩
  · exact ⟨_, exec_remoteWatch_due rfl hwait hruns hlong hmay, rfl, _, Block.mem_watches_watch .., rfl, rfl⟩
  · exact ⟨_, exec_remoteBound_due rfl hwait hruns hlong (Block.bounded_eq_false hfirst), rfl, _, Block.mem_watches_watch .., rfl, rfl, rfl⟩
  · refine ⟨_, (exec_croftFaultWindow rfl hlast).trans (congrArg Host.Outcome.next (if_pos hlong)), rfl, ?_⟩
    rw [State.on_m, Block.croft_onCroft_self hc]
    exact ⟨rfl, rfl, rfl, rfl⟩
  · exact (exec_croftFaultWindow rfl hlast).trans (congrArg Host.Outcome.next (if_neg (Nat.not_le.mpr hshort)))

end Sys2Proof.Machine

/-! What errors, events and bells leave beside what they tell (R447, R458, R495, R548). -/
namespace Sys2Proof.Machine

/-- What an error, an event or a bell leads to: a job that runs goes on, in ABORTING at most, the fault line stays asserted, and time, power, the management plane, crofts and
dies, the errors on their way to the handler, parcel space, the croft stores and the queue are as before. -/
structure State.AlertsOnly (s u : State) : Prop where
  clk : u.m.clk = s.m.clk
  power : u.m.power = s.m.power
  boot : u.m.boot = s.m.boot
  crofts : u.m.crofts = s.m.crofts
  dies : u.m.dies = s.m.dies
  arrived : u.m.faults.arrived = s.m.faults.arrived
  jobRuns : u.m.jobRuns = s.m.jobRuns
  exportSeq : u.m.safety.exportSeq = s.m.safety.exportSeq
  faultLine : s.m.safety.faultLine = true → u.m.safety.faultLine = true
  parcel : u.mem.parcel = s.mem.parcel
  stores : u.mem.stores = s.mem.stores
  pending : u.pending = s.pending

theorem State.AlertsOnly.refl (s : State) : s.AlertsOnly s := ⟨rfl, rfl, rfl, rfl, rfl, rfl, rfl, rfl, id, rfl, rfl, rfl⟩

theorem State.AlertsOnly.trans {s t u : State} (h : s.AlertsOnly t) (k : t.AlertsOnly u) : s.AlertsOnly u :=
  ⟨k.clk.trans h.clk, k.power.trans h.power, k.boot.trans h.boot, k.crofts.trans h.crofts, k.dies.trans h.dies, k.arrived.trans h.arrived, k.jobRuns.trans h.jobRuns,
    k.exportSeq.trans h.exportSeq, fun hs => k.faultLine (h.faultLine hs), k.parcel.trans h.parcel, k.stores.trans h.stores, k.pending.trans h.pending⟩

theorem State.AlertsOnly.ite {s a b : State} {p : Prop} [Decidable p] (ha : s.AlertsOnly a) (hb : s.AlertsOnly b) : s.AlertsOnly (if p then a else b) := by
  split
  · exact ha
  · exact hb

theorem State.AlertsOnly.foldl {α : Type} {f : State → α → State} (hf : ∀ (s : State) x, s.AlertsOnly (f s x)) (xs : List α) (s : State) : s.AlertsOnly (xs.foldl f s) := by
  induction xs generalizing s with
  | nil => exact .refl s
  | cons x xs ih => exact (hf s x).trans (ih _)

theorem State.AlertsOnly.span {s u : State} (h : s.AlertsOnly u) : u.m.span = s.m.span := congrArg (fun c : Clk => c.span / 16) h.clk

theorem State.AlertsOnly.croft {s u : State} (h : s.AlertsOnly u) (n : Nat) : u.m.croft n = s.m.croft n := congrArg (fun cs : List Croft => (cs[n]?).getD {}) h.crofts

theorem State.AlertsOnly.powered {s u : State} (h : s.AlertsOnly u) : u.m.powered = s.m.powered := congrArg (fun p : Power => p.main == .on || p.main == .island) h.power

theorem State.AlertsOnly.spareFree {s u : State} (h : s.AlertsOnly u) (d : Nat) : u.m.spareFree d = s.m.spareFree d :=
  congrArg (fun ds : List Die => fld ((ds[d]?).getD {}).remap 51 50 == 0) h.dies

/-! Changes of single parts -/

/-- The parts of the block that an alert may change. -/
theorem State.alertsOnly_update {s : State} {host : Mem} {ports links : List Port} {fab : Fab} {rings : List Ring} {desc : Desc} {counts : List (Counter × Nat)} {tiers : Tiers}
    {snap : Snap} {dev : Dev} {faults : Faults} {safety : Safety} (hstate : dev.state = s.m.dev.state) (harrived : faults.arrived = s.m.faults.arrived)
    (hseq : safety.exportSeq = s.m.safety.exportSeq) (hline : s.m.safety.faultLine = true → safety.faultLine = true) :
    s.AlertsOnly { s with mem := { s.mem with host := host },
                          m := { s.m with ports := ports, dieLinks := links, fab := fab, rings := rings, desc := desc, counts := counts, tiers := tiers, snap := snap, dev := dev,
                                          faults := faults, safety := safety } } :=
  ⟨rfl, rfl, rfl, rfl, rfl, harrived, by rw [Block.jobRuns, hstate, Block.jobRuns], hseq, hline, rfl, rfl, rfl⟩

theorem State.alertsOnly_sends (s : State) {b : Block} (h : s.m.SendsOnly b) : s.AlertsOnly (s.on fun _ => b) := by
  obtain ⟨ports, links, counts, fab, rfl⟩ := h
  exact State.alertsOnly_update rfl rfl rfl id

theorem State.AlertsOnly.sends {s : State} {b c : Block} (h : b.SendsOnly c) (hs : s.AlertsOnly { s with m := b }) : s.AlertsOnly { s with m := c } :=
  hs.trans (State.alertsOnly_sends { s with m := b } h)

theorem State.alertsOnly_bump (s : State) (c : Counter) (k : Nat) : s.AlertsOnly (s.on (·.bump c k)) := s.alertsOnly_sends (Block.sendsOnly_bump ..)

theorem State.alertsOnly_detection (s : State) (e : ErrorRec) : s.AlertsOnly (s.on (·.detection e)) := by
  unfold Block.detection
  refine s.alertsOnly_sends ?_
  split
  · exact .refl _
  · exact Block.sendsOnly_bump ..

theorem State.alertsOnly_countErr (s : State) (k : Class_) : s.AlertsOnly (s.on (·.countErr k)) :=
  s.alertsOnly_sends ((Block.sendsOnly_bump ..).trans (Block.sendsOnly_bump ..))

theorem State.alertsOnly_logC (s : State) (e : ErrorRec) : s.AlertsOnly (s.on (·.logC e)) := by
  unfold State.on Block.logC
  dsimp only
  split
  · exact State.alertsOnly_update rfl rfl rfl id
  · exact .sends (Block.sendsOnly_bump ..) (State.alertsOnly_update rfl rfl rfl id)

/-! Events and the trace -/

theorem State.alertsOnly_writeEntry (s : State) (n : Nat) (c : Completion) : s.AlertsOnly (s.writeEntry n c) := by
  unfold State.writeEntry
  extract_lets r s₁ prod s₂ s₃
  have h₃ : s.AlertsOnly s₃ := State.alertsOnly_update rfl rfl rfl id
  have hvector (v : Nat) : s₃.AlertsOnly (s₃.on (fun b => b.sendVector v)) := by
    unfold State.on Block.sendVector
    dsimp only
    split <;> exact State.alertsOnly_update rfl rfl rfl id
  refine .ite (.ite (h₃.trans ((hvector s₃.m.dev.eventVector).trans ?_)) h₃) (.ite (h₃.trans ((hvector r.vector).trans ?_)) h₃) <;>
    exact State.alertsOnly_update rfl rfl rfl id

theorem State.alertsOnly_postEvent (s : State) (e : EventRec) : s.AlertsOnly (s.postEvent e) := by
  refine .ite ?_ (.ite (s.alertsOnly_writeEntry ..) (.ite ?_ ?_)) <;> exact State.alertsOnly_update rfl rfl rfl id

theorem State.alertsOnly_event (s : State) (code cls arg : Nat) : s.AlertsOnly (s.event code cls arg) := s.alertsOnly_postEvent _

theorem State.alertsOnly_tracePut (s : State) (typ sub units : Nat) (payload : List Byte) : s.AlertsOnly (s.tracePut typ sub units payload) :=
  State.alertsOnly_update rfl rfl rfl id

theorem State.alertsOnly_tracePlace (s : State) (typ sub : Nat) (payload : List Byte) : s.AlertsOnly (s.tracePlace typ sub payload) := by
  unfold State.tracePlace
  extract_lets units left s₁
  have h₁ : s.AlertsOnly s₁ := .ite (s.alertsOnly_tracePut ..) (.refl s)
  exact h₁.trans (State.alertsOnly_tracePut ..)

theorem State.alertsOnly_trace (s : State) (typ sub : Nat) (payload : List Byte) : s.AlertsOnly (s.trace typ sub payload) := by
  unfold State.trace
  extract_lets d units ms used s₁
  have h₁ : s.AlertsOnly s₁ := .ite ((s.alertsOnly_tracePlace ..).trans (State.alertsOnly_update rfl rfl rfl id)) (.refl s)
  exact .ite (.refl s) (.ite (State.alertsOnly_update rfl rfl rfl id) (h₁.trans (State.alertsOnly_tracePlace ..)))

theorem State.alertsOnly_traceErr (s : State) (e : ErrorRec) : s.AlertsOnly (s.traceErr e) := s.alertsOnly_trace ..

/-! Bells -/

theorem State.alertsOnly_takeBell (s : State) (origin epoch error raiser : Nat) (host : Bool) (step reason ta : Nat) (arrived : Option Nat) (suspectAt : Nat) :
    s.AlertsOnly (s.takeBell origin epoch error raiser host step reason ta arrived suspectAt) := by
  unfold State.takeBell
  extract_lets b known earlier first s₁ s₂ s₃
  have h₁ : s.AlertsOnly s₁ := by
    have hsends (b : Block) : b.SendsOnly ((b.upPorts arrived).foldl (fun b n => b.sendLink n 0x11 epoch (bellExt origin error raiser host) (bellPayload step reason ta)) b) :=
      .foldl (fun b n => b.sendsOnly_sendLink n ..) _
    unfold s₁ State.on
    dsimp only
    split <;> split
    · exact .sends (hsends _) (State.alertsOnly_update rfl rfl rfl id)
    · exact .sends (hsends _) (State.alertsOnly_update rfl rfl rfl id)
    · exact .sends (Block.sendsOnly_bump ..) (State.alertsOnly_update rfl rfl rfl id)
    · exact s.alertsOnly_bump ..
  have h₂ : s₁.AlertsOnly s₂ := by
    unfold s₂ State.on
    dsimp only
    split
    · exact State.alertsOnly_update rfl rfl rfl id
    · exact .refl s₁
  have h₃ : s₂.AlertsOnly s₃ := by
    unfold s₃ State.on
    dsimp only
    split
    · next hruns => exact ⟨rfl, rfl, rfl, rfl, rfl, rfl, hruns.symm, rfl, id, rfl, rfl, rfl⟩
    · exact .refl s₂
  have hs := h₁.trans (h₂.trans h₃)
  exact .ite (hs.trans (State.alertsOnly_postEvent ..)) hs

theorem State.alertsOnly_raiseBell (s : State) (origin epoch error : Nat) (host : Bool) (reason suspectAt : Nat) :
    s.AlertsOnly (s.raiseBell origin epoch error host reason suspectAt) := (s.alertsOnly_bump ..).trans (State.alertsOnly_takeBell ..)

/-! Images that errors end, and errors -/

theorem State.alertsOnly_voidSlot (s : State) : s.AlertsOnly s.voidSlot := by
  unfold State.voidSlot
  split
  · exact .refl s
  · exact .ite (.refl s) (State.alertsOnly_update rfl rfl rfl id)

theorem State.alertsOnly_abandonImage (s : State) (status : Nat) : s.AlertsOnly (s.abandonImage status) := by
  unfold State.abandonImage
  split
  · exact .refl s
  · exact s.alertsOnly_voidSlot.trans ((State.alertsOnly_update rfl rfl rfl id).trans (State.alertsOnly_logC ..))

theorem State.alertsOnly_detect (s : State) (e : ErrorRec) : s.AlertsOnly (s.detect e) := by
  unfold State.detect
  extract_lets s'
  have hs : s.AlertsOnly s' := .ite (.refl s) (State.alertsOnly_update rfl rfl rfl id)
  split
  · exact .ite (hs.trans ((s'.alertsOnly_abandonImage ..).trans (State.alertsOnly_bump ..))) hs
  · exact hs

theorem State.alertsOnly_countError (s : State) (e : ErrorRec) : s.AlertsOnly (s.countError e) := by
  unfold State.countError
  extract_lets s₁ s₂
  have h₂ : s.AlertsOnly s₂ := (s.alertsOnly_countErr _).trans ((State.AlertsOnly.ite (s₁.alertsOnly_detect e) (.refl s₁)).trans (State.alertsOnly_traceErr ..))
  exact .ite (h₂.trans (State.alertsOnly_event ..)) h₂

theorem State.alertsOnly_raiseErr_classJ {e : ErrorRec} (hcls : e.cls = .j) (s : State) : s.AlertsOnly (s.raiseErr e) := by
  unfold State.raiseErr
  extract_lets e'
  have hcls' : e'.cls = .j := hcls
  split
  · next h => cases hcls'.symm.trans h
  · next s₁ s₂ s₃ me _ _ =>
    have h₁ : s.AlertsOnly s₁ := ((s.alertsOnly_countErr _).trans (State.alertsOnly_detection ..)).trans ((State.alertsOnly_detect ..).trans (State.alertsOnly_traceErr ..))
    have h₂ : s.AlertsOnly s₂ := h₁.trans (State.alertsOnly_postEvent ..)
    have h₃ : s.AlertsOnly s₃ := h₂.trans (State.alertsOnly_update rfl rfl rfl fun _ => rfl)
    exact .ite h₂ (.ite h₃ (h₃.trans (State.alertsOnly_raiseBell ..)))
  · next h => exact absurd hcls' h

theorem State.raiseErr_arrives {e : ErrorRec} (hc : e.cls ≠ .c) (hj : e.cls ≠ .j) (s : State) : s.raiseErr e = s.on (fun b => { b with faults := { b.faults with
    arrived := b.faults.arrived ++ [{ e with at_ := s.m.now, suspectAt := if e.suspectAt = 0 then s.m.now else e.suspectAt }] } }) := by
  unfold State.raiseErr
  extract_lets e'
  split
  · next h => exact absurd h hc
  · next h => exact absurd h hj
  · rfl

end Sys2Proof.Machine

/-! The front of the queue (O1, log 1), and the end of a restore without a twin (O20, R523, R524). -/
namespace Sys2Proof.Machine

/-- Settles O1: step looks at the front of the queue first (log 1). -/
theorem stepRunsFront : Obligations.StepRunsFront := fun _ _ => rfl

/-- RESULT of a RESTORE that verified by the recorded digest (R524): digest, SNAP_ID, no stream repaired, not VERIFIED by a twin, and the twin absent. -/
def restoreResult (id : Nat) (digest : BitVec 64) : BitVec 128 :=
  setFld (setFld (setFld (setFld (setFld (0 : BitVec 128) 63 0 digest.toNat) 95 64 (id % 2 ^ 32)) 111 96 0) 112 112 0) 113 113 1

theorem restoreResult_fields (id : Nat) (digest : BitVec 64) : fld (restoreResult id digest) 63 0 = digest.toNat ∧ fld (restoreResult id digest) 95 64 = id % 2 ^ 32
    ∧ fld (restoreResult id digest) 112 112 = 0 ∧ fld (restoreResult id digest) 113 113 = 1 := by
  unfold restoreResult
  simp (disch := omega) only [fld_setFld, fld_setFld_of_apart]
  exact ⟨Nat.mod_eq_of_lt digest.isLt, Nat.mod_mod .., rfl, rfl⟩

/-- A restore whose recorded digest is the restored state's, and whose table holds no stream that could be out of step (R523, R524, R527). -/
theorem State.recordedDigest_of_equal {s : State} {w : Wait} {id barrier shift twin since : Nat} {digest key : BitVec 64}
    (hwait : w.wait = .restore id digest digest key barrier shift twin since) (hstreams : s.m.streamTable.2 = 0) :
    s.recordedDigest w =
      (s.on (fun b => { b with job := { b.job with restored := .done id key barrier shift, postAbort := false } })).endWait w 0 (restoreResult id digest) := by
  simp only [State.recordedDigest, hwait, beq_self_eq_true, if_true, State.acceptRestore, hstreams, List.range_zero, State.checkStreams]
  rfl

theorem State.recordedDigest_of_differ {s : State} {w : Wait} {id barrier shift twin since : Nat} {own recorded key : BitVec 64}
    (hwait : w.wait = .restore id own recorded key barrier shift twin since) (hdiffer : own ≠ recorded) : s.recordedDigest w = s.failRestore w 0x2B := by
  simp only [State.recordedDigest, hwait, beq_eq_false_iff_ne.mpr hdiffer, Bool.false_eq_true, if_false]

/-- Settles O20, by what a recorded digest says of the restored state. -/
theorem restoreVerdict : Obligations.RestoreVerdict := by
  unfold Obligations.RestoreVerdict
  intro s w id own recorded key barrier shift twin since hwait
  refine ⟨fun hdiffer => State.recordedDigest_of_differ hwait hdiffer, fun hequal hstreams => ?_⟩
  subst hequal
  obtain ⟨hdigest, hid, hverified, habsent⟩ := restoreResult_fields id own
  exact ⟨_, hdigest, hid, hverified, habsent, State.recordedDigest_of_equal hwait hstreams⟩

end Sys2Proof.Machine

/-! Firmware staged, committed and written (O23, R569 to R571, R575). -/
namespace Sys2Proof.Machine

theorem State.tellsOnly_complete (s : State) (n : Nat) (c : Completion) : s.TellsOnly (s.complete n c) := by
  refine State.TellsOnly.trans (t := s.postCompletion n { c with tDone := s.m.now }) ?_ (State.tellsOnly_onRing ..)
  exact .ite (.refl s) (.ite (s.tellsOnly_writeEntry ..) (s.tellsOnly_onRing ..))

theorem State.TellsOnly.devState {s u : State} (h : s.TellsOnly u) : u.m.dev.state = s.m.dev.state := by
  obtain ⟨_, _, _, _, _, _, _, _, _, rfl⟩ := h
  rfl

theorem State.endWait_devState (s : State) (w : Wait) (status : Nat) (result : BitVec 128) : (s.endWait w status result).m.dev.state = s.m.dev.state :=
  (State.tellsOnly_complete ..).devState

section
variable {s : State} {h : Hdr}

/-- A block whose staging area has taken bytes (R569). -/
def Block.stages (b : Block) (off n : Nat) (pl : List Byte) : Block :=
  { b with boot := { b.boot with staged := b.boot.staged.writeBytes off (slice pl 0 n), highWater := Nat.max b.boot.highWater (off + n) } }

theorem Block.stagingBusy_of_ring {b : Block} (hring : b.boot.session ≠ .pldm) (hidle : b.boot.committing = false) : b.stagingBusy = false := by
  rw [Block.stagingBusy, hidle, Bool.or_false]
  exact beq_eq_false_iff_ne.mpr hring

theorem exec_fwStage {off : Nat} {pl : List Byte} (hacc : Accepts s 0x38) (hring : s.m.boot.session = .ring) (hidle : s.m.boot.committing = false)
    (hoff : off % 64 = 0) (hlen : h.payloadLen % 64 = 0) (hfits : off + h.payloadLen ≤ 33554432) :
    exec (.fwStage h off pl) s = .next ((s.on (·.stages off h.payloadLen pl)).finish h 0x38 0
      (setFld (0 : BitVec 128) 31 0 (Nat.max s.m.boot.highWater (off + h.payloadLen)))) := by
  have hbusy := Block.stagingBusy_of_ring (b := s.m) (by rw [hring]; decide) hidle
  have hopen : (s.m.boot.session == .closed) = false := by rw [hring]; rfl
  simp only [exec, execFwStage, State.host_of_accepts hacc, hbusy, hoff, hlen, Nat.not_lt.mpr hfits, bne_self_eq_false, Bool.false_eq_true, if_false, State.on, hopen, Block.stages]

theorem exec_fwCommit_closed {n : Nat} (hacc : Accepts s 0x39) (hclosed : s.m.boot.session = .closed) (hidle : s.m.boot.committing = false) :
    exec (.fwCommit h n) s = .next (s.finish h 0x39 0x05) := by
  have hbusy := Block.stagingBusy_of_ring (b := s.m) (by rw [hclosed]; decide) hidle
  have hnone : (s.m.boot.session == .closed) = true := by rw [hclosed]; rfl
  simp only [exec, execFwCommit, State.host_of_accepts hacc, hbusy, hnone, Bool.false_eq_true, if_false, if_true]

theorem exec_fwCommit {n : Nat} (hacc : Accepts s 0x39) (hring : s.m.boot.session = .ring) (hidle : s.m.boot.committing = false) (hn : n = imageLen (s.m.stagedBytes 64))
    (hstaged : n ≤ s.m.boot.highWater) (hok : s.m.imageOk (s.m.stagedBytes n) = true) :
    exec (.fwCommit h n) s = .next ((s.on (fun b => { b with boot := { b.boot with committing := true } })).await h 0x39
      (.fwCommit (imageVersion (s.m.stagedBytes 64)) (imageSvn (s.m.stagedBytes 64)))) := by
  have hbusy := Block.stagingBusy_of_ring (b := s.m) (by rw [hring]; decide) hidle
  have hopen : (s.m.boot.session == .closed) = false := by rw [hring]; rfl
  subst hn
  simp only [exec, execFwCommit, State.host_of_accepts hacc, hbusy, hopen, hok, Nat.not_lt.mpr hstaged, bne_self_eq_false, decide_false, Bool.or_self, Bool.not_true,
    Bool.false_eq_true, if_false]

/-- A power failure has ended the write before (R575). -/
theorem exec_imageRegionWriteDone_idle {t svn : Nat} {w : Wait} {v : BitVec 64} (hwaits : s.m.path.waits = [w]) (hwait : w.wait = .fwCommit v svn)
    (hidle : s.m.boot.committing = false) (ok : Bool) : exec (.imageRegionWriteDone t ok) s = .next (s.on (·.advanceTo t)) := by
  have hdone : (s.on (·.advanceTo t)).m.path.waits = [w] := hwaits
  have hidle' : (s.on (·.advanceTo t)).m.boot.committing = false := hidle
  simp only [exec, execImageRegionWriteDone, hdone, hidle', List.find?, hwait]

/-- The end of the write of an image that no power failure has ended (R571, R575). -/
theorem exec_imageRegionWriteDone {t svn : Nat} {w : Wait} {v : BitVec 64} (hwaits : s.m.path.waits = [w]) (hwait : w.wait = .fwCommit v svn) (hwrites : s.m.boot.committing = true)
    (hready : s.m.dev.state = 2) (ok : Bool) : let u := s.on (fun b => ((b.advanceTo t).flashWritten ok).closeSession)
    exec (.imageRegionWriteDone t ok) s = .next (if ok then u.endWait w 0 (setFld (setFld (0 : BitVec 128) 63 0 v.toNat) 79 64 svn) else u.endWait w 0x28) := by
  intro u
  have hdone : (s.on (·.advanceTo t)).m.path.waits = [w] := hwaits
  have hwrites' : (s.on (·.advanceTo t)).m.boot.committing = true := hwrites
  simp only [exec, execImageRegionWriteDone, hdone, hwrites', List.find?, hwait]
  cases ok
  · rfl
  · have hstays : (u.endWait w 0 (setFld (setFld (0 : BitVec 128) 63 0 v.toNat) 79 64 svn)).m.dev.state ≠ 0 := by
      rw [State.endWait_devState, show u.m.dev.state = 2 from hready]
      decide
    exact congrArg Host.Outcome.next (State.on_eq_self (if_neg fun h => hstays (beq_iff_eq.mp h)))

end

/-- Settles O23, by the row of each command and of the end of the write. -/
theorem firmwareStaging : Obligations.FirmwareStaging := by
  unfold Obligations.FirmwareStaging
  intro s h
  refine ⟨fun off pl hacc hring hidle hoff hlen hfits => ?_, fun n hacc hclosed hidle => exec_fwCommit_closed hacc hclosed hidle,
    fun n hacc hring hidle hn hstaged hok => ?_, fun t w v svn ok hwaits hwait hidle => exec_imageRegionWriteDone_idle hwaits hwait hidle ok,
    fun t w v svn ok hwaits hwait hwrites hready => exec_imageRegionWriteDone hwaits hwait hwrites hready ok⟩
  · exact ⟨s.on (·.stages off h.payloadLen pl), ⟨rfl, rfl, hring, rfl, rfl, rfl⟩, exec_fwStage hacc hring hidle hoff hlen hfits⟩
  · exact ⟨_, exec_fwCommit hacc hring hidle hn hstaged hok, ⟨rfl, rfl, rfl⟩, List.mem_append_right _ List.mem_cons_self⟩

end Sys2Proof.Machine

/-! The copier notes its traffic in the image (O57, R506, R513). -/
namespace Sys2Proof.Machine

theorem Block.bump_image (b : Block) (c : Counter) (k : Nat) : (b.bump c k).snap.image = b.snap.image := congrArg Snap.image (Block.bump_snap ..)

/-- The image of a copy that begins has one more span of bear traffic (R506). -/
theorem Block.copyBegins_traffic {b : Block} {i : Image} (h : b.snap.image = some i) (page : Nat) :
    ∃ x, (b.copyBegins page).snap.image = some { i with traffic := i.traffic ++ [x] } := ⟨_, congrArg (Option.map _) h⟩

theorem Block.copyBegins_image_ne {b : Block} {i : Image} (h : b.snap.image = some i) (page : Nat) : (b.copyBegins page).snap.image ≠ some i := by
  obtain ⟨x, hx⟩ := Block.copyBegins_traffic h page
  intro hsame
  have htraffic : i.traffic ++ [x] = i.traffic := congrArg Image.traffic (Option.some.inj (hx.symm.trans hsame))
  exact List.cons_ne_nil _ _ (List.append_right_eq_self.mp htraffic)

theorem exec_bearBackgroundCopy_takes {s u : State} {t p tries : Nat} {i : Image} (hu : s.on (fun b => b.advanceTo t) = u) (himage : u.m.snap.image = some i)
    (hnext : u.nextCopy = some p) (htries : tries < 3) : exec (.bearBackgroundCopy t tries) s = .next (u.on (fun b => (b.bump .retries tries).copyBegins p)) := by
  simp only [exec, execBearBackgroundCopy, hu, himage, hnext, htries, Option.isNone_some, Bool.false_eq_true, if_false, if_true]

/-- An image without a byte yet, for the partner. -/
def emptyImage : Image := { snapId := 0, barrier := 0, section_ := [], jobPart := 0, dest := 1, slot := 0 }

/-- The state after reset, with an image under way and one protected larder page. -/
def protecting : State :=
  State.reset.on (fun b => { b with snap := { b.snap with image := some emptyImage },
                                    tiers := { b.tiers with pages := [{ page := 1, parcel := 0, tier := 1, frame := 0, bear := .protected_ }] } })

/-- Refutes O57: a copy that begins adds its span of bear traffic (R506) to the image, so the image does not stay what it was, whatever the state. The clause needs
`v.m.snap.image` to agree with i but for `traffic`. -/
theorem not_bearImages : ¬ Obligations.BearImages := by
  unfold Obligations.BearImages
  intro h
  obtain ⟨hcopies, -⟩ := h protecting 0
  have himage : (protecting.on (fun b => b.advanceTo 0)).m.snap.image = some emptyImage := rfl
  have hnext : (protecting.on (fun b => b.advanceTo 0)).nextCopy = some 1 := by decide
  obtain ⟨htakes, -⟩ := hcopies emptyImage 1 0 himage hnext
  obtain ⟨v, hv, -, hkept, -⟩ := htakes (by decide)
  obtain rfl := Host.Outcome.next.inj ((exec_bearBackgroundCopy_takes rfl himage hnext (by decide)).symm.trans hv)
  exact Block.copyBegins_image_ne ((Block.bump_image ..).trans himage) 1 hkept

end Sys2Proof.Machine

/-! Self-checks that run and report (O24, R606 to R611). -/
namespace Sys2Proof.Machine

section
variable {s : State} {h : Hdr} {set croft : Nat}

/-- The state in which a self-check waits: its class J errors raised, and the values it drew counted (R609; log 8). -/
def State.checked (s : State) (errors : List Nat) : State :=
  (errors.foldl (fun s e => s.millErr e 0) s).on (fun b => { b with tiers := { b.tiers with openCtr := b.tiers.openCtr + 2 } })

theorem exec_selfCheck (hacc : Accepts s 0x40) (hok : s.checkBad set croft = none) (run : CheckRun) :
    exec (.selfCheck h set croft run) s = .next ((s.checked (s.checkRun set croft run []).2).await h 0x40
      (.selfCheck set croft h.payloadLen ((s.checked (s.checkRun set croft run []).2).suiteVersion set) h.ptrAddr (s.checkRun set croft run []).1)) := by
  simp only [exec, execSelfCheck, State.host_of_accepts hacc, hok]
  rfl

theorem State.checkRun_of_bootRom (hrom : set % 65536 = 0xFFFF) (s : State) (croft : Nat) (run : CheckRun) (late : List (Nat × Nat)) : s.checkRun set croft run late = (run, []) := by
  simp only [State.checkRun, hrom, beq_self_eq_true, if_true]

theorem State.alertsOnly_checked (s : State) (errors : List Nat) : s.AlertsOnly (s.checked errors) :=
  (State.AlertsOnly.foldl (fun s e => State.alertsOnly_raiseErr_classJ (e := { cls := .j, code := e, at_ := 0, cause := 0 }) rfl s) errors s).trans
    (State.alertsOnly_update rfl rfl rfl id)

theorem State.checked_parcel (s : State) (errors : List Nat) (id : Nat) : (s.checked errors).m.parcel id = s.m.parcel id :=
  Block.parcel_of_lasting (State.foldl_lasting (fun s e => State.raiseErr_lasting s { cls := .j, code := e, at_ := 0, cause := 0 }) (xs := errors) s) id

/-- The suite's version is read from the file, which the errors of its vectors do not touch (R606). -/
theorem State.checked_suiteVersion (s : State) (errors : List Nat) (set : Nat) : (s.checked errors).suiteVersion set = s.suiteVersion set := by
  simp only [State.suiteVersion, State.checked_parcel, (s.alertsOnly_checked errors).parcel]

/-- A vector of a check that waits times out, and the check goes on (R608). -/
theorem exec_vectorTimeout {u : State} {t v c room version addr : Nat} {w : Wait} {run : CheckRun} (hu : s.on (fun b => b.advanceTo t) = u) (hwaits : u.m.path.waits = [w])
    (hwait : w.wait = .selfCheck set croft room version addr run) (hgoes : set / 2 ^ 24 % 2 = 0) : exec (.vectorTimeout t v c) s = .next (u.on (fun b => { b with path :=
      { b.path with waits := [{ w with wait := .selfCheck set croft room version addr (u.lateRun set croft run v c) }] } })) := by
  have hgoes' : (bitsOf set 24 24 == 1) = false := by
    rw [bitsOf, Nat.shiftRight_eq_div_pow, show 24 + 1 - 24 = 1 from rfl, Nat.pow_one, hgoes]
    rfl
  simp only [exec, execVectorTimeout, hu, hwaits, List.find?, hwait, hgoes', Bool.false_eq_true, if_false]
  refine congrArg Host.Outcome.next (State.on_congr ?_)
  simp only [hwaits, List.map_cons, List.map_nil, beq_self_eq_true, if_true]

theorem State.lateRun_of_file (hfile : set % 65536 ≠ 0xFFFF) (s : State) (croft : Nat) (run : CheckRun) (v c : Nat) :
    s.lateRun set croft run v c = (s.checkRun set croft run ((v, c) :: lateVectors run)).1 := by
  simp only [State.lateRun, beq_eq_false_iff_ne.mpr hfile, Bool.false_eq_true, if_false]

theorem State.lateRun_of_bootRom (hrom : set % 65536 = 0xFFFF) (s : State) (croft : Nat) (run : CheckRun) (v c : Nat) :
    s.lateRun set croft run v c = { run := run.run + 1, failed := run.failed + 1, entries := run.entries ++ [checkEntry v c 0 0x0A] } := by
  simp only [State.lateRun, hrom, beq_self_eq_true, if_true]

/-- The entry of a vector: its VECTOR_ID and its KIND (R609). -/
theorem checkEntry_fields (v croft kind status : Nat) : fld (checkEntry v croft kind status) 31 0 = v % 2 ^ 32 ∧ fld (checkEntry v croft kind status) 55 48 = status % 2 ^ 8 := by
  unfold checkEntry
  constructor <;> simp (disch := omega) only [fld_setFld, fld_setFld_of_apart]

end

/-- Settles O24, by the state in which a check waits, by its run after a timeout, and by its report. -/
theorem selfCheckRuns : Obligations.SelfCheckRuns := by
  unfold Obligations.SelfCheckRuns
  intro s h set croft run
  refine ⟨fun hacc hok => ⟨fun hrom => State.checkRun_of_bootRom hrom .., ?_⟩, fun t v c w room version addr hwaits hwait hgoes => ?_, fun w room version addr hwait => ?_⟩
  · have hchecked := s.alertsOnly_checked (s.checkRun set croft run []).2
    refine ⟨_, exec_selfCheck hacc hok run, ⟨hchecked.parcel, hchecked.stores, fun hnone => ?_, hchecked.pending⟩, List.mem_append_right _ (List.mem_singleton.mpr ?_)⟩
    · rw [hnone]
      rfl
    · rw [State.checked_suiteVersion]
  · refine ⟨_, exec_vectorTimeout rfl hwaits hwait hgoes, rfl, _, _, rfl, rfl, rfl, fun hfile => State.lateRun_of_file hfile .., fun hrom => ?_⟩
    rw [State.lateRun_of_bootRom hrom]
    obtain ⟨hid, hkind⟩ := checkEntry_fields v c 0 0x0A
    exact ⟨rfl, rfl, _, rfl, hid, hkind⟩
  · simp only [State.endCheck, hwait]

end Sys2Proof.Machine

/-! The main domain that is to power down (R541, R578, R584, R587). -/
namespace Sys2Proof.Machine

/-- A class M error that the safety monitor carries out is an alert, and asserts the fault line (R458, R541). -/
theorem State.classM_alerts (s : State) (e : ErrorRec) : s.AlertsOnly (s.classM e) ∧ (s.classM e).m.safety.faultLine = true := by
  unfold State.classM
  extract_lets e' s₁
  have h₁ : s.AlertsOnly s₁ := ((s.alertsOnly_countError e').trans (State.alertsOnly_detection _ e')).trans (State.alertsOnly_update rfl rfl rfl fun _ => rfl)
  have hline : s₁.m.safety.faultLine = true := rfl
  split
  · have hbell := s₁.alertsOnly_raiseBell s₁.m.moduleId (s₁.m.lastEpoch s₁.m.moduleId + 1) e'.code false 0 e'.suspectAt
    exact ⟨h₁.trans hbell, hbell.faultLine hline⟩
  · exact ⟨h₁, hline⟩

/-- When the main domain powers down, if it does so `delay` ns from now at the latest (R579, R584). -/
def Block.shedTime (b : Block) (delay : Nat) : Option Nat :=
  if b.powered then some (Nat.min (b.power.downAt.getD (b.span + delay)) (b.span + delay)) else b.power.downAt

theorem Block.shedAt_power (b : Block) (delay : Nat) : (b.shedAt delay).power = { b.power with downAt := b.shedTime delay } := rfl

theorem Block.shedTime_first {b : Block} (hpowered : b.powered = true) (hdown : b.power.downAt = none) (delay : Nat) : b.shedTime delay = some (b.span + delay) := by
  rw [Block.shedTime, if_pos hpowered, hdown, Option.getD_none]
  exact congrArg some (Nat.min_self _)

theorem Block.shedTime_le {b : Block} (hpowered : b.powered = true) (delay : Nat) : ∃ d, b.shedTime delay = some d ∧ d ≤ b.span + delay :=
  ⟨_, if_pos hpowered, Nat.min_le_right ..⟩

theorem Block.shedTime_congr {b c : Block} (hclk : b.clk = c.clk) (hmain : b.power.main = c.power.main) (hdown : b.power.downAt = c.power.downAt) (delay : Nat) :
    b.shedTime delay = c.shedTime delay := by
  have hpowered : b.powered = c.powered := by rw [Block.powered, hmain, Block.powered]
  have hspan : b.span = c.span := by rw [Block.span, hclk, Block.span]
  rw [Block.shedTime, hpowered, hspan, hdown, Block.shedTime]

/-- A shutdown asserts the fault line, powers the main domain down at once, and owes a module reset (R587). -/
theorem State.shutdown_of_powered {s : State} (hpowered : s.m.powered = true) (hdown : s.m.power.downAt = none) :
    s.shutdown.m.safety.faultLine = true ∧ s.shutdown.m.power.downAt = some s.m.span ∧ s.shutdown.m.boot.resetDueAt = some s.m.clk.own := by
  obtain ⟨halerts, hline⟩ := s.classM_alerts { cls := .m, code := 0x0A, at_ := 0 }
  have hshed : ((s.classM { cls := .m, code := 0x0A, at_ := 0 }).m.bump (.life 2 201)).shedTime 0 = some s.m.span := by
    rw [Block.shedTime_congr (c := s.m) (by rw [Block.bump_clk, halerts.clk]) (by rw [Block.bump_power, halerts.power]) (by rw [Block.bump_power, halerts.power])]
    exact Block.shedTime_first hpowered hdown 0
  refine ⟨?_, hshed, congrArg some ?_⟩
  · exact (congrArg Safety.faultLine (Block.bump_safety ..)).trans hline
  · exact congrArg Clk.own ((Block.bump_clk ..).trans halerts.clk)

end Sys2Proof.Machine

/-! The power cap and the thermal throttles (O55, R585 to R588). -/
namespace Sys2Proof.Machine

/-! Fields of the power descriptor -/

theorem fld_lt {n : Nat} (v : BitVec n) (hi lo : Nat) : fld v hi lo < 2 ^ (hi + 1 - lo) := Nat.mod_lt _ (Nat.two_pow_pos _)

theorem flag_setFld_self {n i : Nat} (hi : i < n) (v : BitVec n) (x : Bool) : flag (setFld v i i (b2n x)) i = x := by
  rw [flag, fld_setFld (Nat.le_refl i) hi, Nat.add_sub_cancel_left]
  cases x <;> rfl

theorem flag_setFld_of_apart {n i hi lo : Nat} (h : lo ≤ hi) (hn : i < n) (hapart : i < lo ∨ hi < i) (v : BitVec n) (x : Nat) : flag (setFld v hi lo x) i = flag v i :=
  congrArg (· == 1) (fld_setFld_of_apart h hn hapart v x)

/-- Writing the throttle counts of R585 leaves every field below them. -/
theorem Block.fld_onPower {hi : Nat} (hhi : hi < 160) (lo : Nat) (b : Block) (f : BitVec 256 → BitVec 256) : fld (b.onPower f).desc.power hi lo = fld (f b.desc.power) hi lo := by
  unfold Block.onPower
  extract_lets d
  split
  · exact fld_setFld_of_apart (by omega) (by omega) (.inl hhi) ..
  · exact fld_setFld_of_apart (by omega) (by omega) (.inl (by omega)) ..
  · rfl

theorem Block.flag_onPower {i : Nat} (hi : i < 160) (b : Block) (f : BitVec 256 → BitVec 256) : flag (b.onPower f).desc.power i = flag (f b.desc.power) i :=
  congrArg (· == 1) (Block.fld_onPower hi ..)

/-! One step down, and one up (R586, R588) -/

theorem throttleDown_above_floor {d : BitVec 256} (h : 1500 < fld d 95 80) : throttleDown d = setFld d 95 80 (Nat.max 1500 (fld d 95 80 - 100)) :=
  if_pos (by rwa [Nat.blt_eq])

theorem throttleDown_at_floor {d : BitVec 256} (h : fld d 95 80 ≤ 1500) : throttleDown d = setFld d 79 64 (Nat.max 0x40 (fld d 79 64 - 0x10)) :=
  if_neg (by rw [Nat.blt_eq]; omega)

theorem throttleDown_clock {d : BitVec 256} (h : 1500 < fld d 95 80) :
    fld (throttleDown d) 95 80 = Nat.max 1500 (fld d 95 80 - 100) ∧ fld (throttleDown d) 79 64 = fld d 79 64 := by
  have hclock := fld_lt d 95 80
  rw [throttleDown_above_floor h, fld_setFld (by omega) (by omega), fld_setFld_of_apart (by omega) (by omega) (by omega)]
  exact ⟨Nat.mod_eq_of_lt (Nat.max_lt.mpr ⟨by omega, by omega⟩), rfl⟩

theorem throttleDown_duty {d : BitVec 256} (h : fld d 95 80 ≤ 1500) :
    fld (throttleDown d) 95 80 = fld d 95 80 ∧ fld (throttleDown d) 79 64 = Nat.max 0x40 (fld d 79 64 - 0x10) := by
  have hduty := fld_lt d 79 64
  rw [throttleDown_at_floor h, fld_setFld (by omega) (by omega), fld_setFld_of_apart (by omega) (by omega) (by omega)]
  exact ⟨rfl, Nat.mod_eq_of_lt (Nat.max_lt.mpr ⟨by omega, by omega⟩)⟩

theorem fld_throttleDown {hi lo : Nat} (hhi : hi < 256) (hapart : hi < 64 ∨ 95 < lo) (d : BitVec 256) : fld (throttleDown d) hi lo = fld d hi lo := by
  unfold throttleDown
  split <;> exact fld_setFld_of_apart (by omega) hhi (by omega) ..

/-- Where nothing is throttled any more, POWER_CAP is 0 (R586). -/
def capReleased (d : BitVec 256) : BitVec 256 := if throttled d then d else setFld d 0 0 0

/-- One step of the duty up, to its full value (R586). -/
def dutyUp (d : BitVec 256) : BitVec 256 := capReleased (setFld d 79 64 (Nat.min 256 (fld d 79 64 + 0x10)))

/-- One step of the clock up, to its full value (R586). -/
def clockUp (d : BitVec 256) : BitVec 256 := capReleased (setFld d 95 80 (Nat.min 3000 (fld d 95 80 + 100)))

theorem fld_capReleased {hi lo : Nat} (hhi : hi < 256) (hlo : 0 < lo) (d : BitVec 256) : fld (capReleased d) hi lo = fld d hi lo := by
  unfold capReleased
  split
  · rfl
  · exact fld_setFld_of_apart (by omega) hhi (.inr hlo) ..

theorem dutyUp_fields (d : BitVec 256) : fld (dutyUp d) 95 80 = fld d 95 80 ∧ fld (dutyUp d) 79 64 = Nat.min 256 (fld d 79 64 + 0x10) := by
  unfold dutyUp
  simp (disch := omega) only [fld_capReleased, fld_setFld, fld_setFld_of_apart]
  exact ⟨trivial, Nat.mod_eq_of_lt (Nat.lt_of_le_of_lt (Nat.min_le_left ..) (by decide))⟩

theorem clockUp_fields (d : BitVec 256) : fld (clockUp d) 95 80 = Nat.min 3000 (fld d 95 80 + 100) ∧ fld (clockUp d) 79 64 = fld d 79 64 := by
  unfold clockUp
  simp (disch := omega) only [fld_capReleased, fld_setFld, fld_setFld_of_apart]
  exact ⟨Nat.mod_eq_of_lt (Nat.lt_of_le_of_lt (Nat.min_le_left ..) (by decide)), trivial⟩

theorem fld_dutyUp {hi lo : Nat} (hhi : hi < 256) (hlo : 95 < lo) (d : BitVec 256) : fld (dutyUp d) hi lo = fld d hi lo := by
  unfold dutyUp
  simp (disch := omega) only [fld_capReleased, fld_setFld_of_apart]

theorem fld_clockUp {hi lo : Nat} (hhi : hi < 256) (hlo : 95 < lo) (d : BitVec 256) : fld (clockUp d) hi lo = fld d hi lo := by
  unfold clockUp
  simp (disch := omega) only [fld_capReleased, fld_setFld_of_apart]

/-! THERMAL_THROTTLE_STEP (R588) -/

/-- A block that the junction throttle has stepped down (R588). -/
def Block.stepsDown (b : Block) : Block :=
  { b.onPower throttleDown with power := { (b.onPower throttleDown).power with movedAt := b.span, causeAt := some b.span, stepAt := some b.span } }

theorem exec_thermalThrottleStep {s u : State} {t : Nat} (hu : s.on (fun b => b.advanceTo t) = u) :
    exec (.thermalThrottleStep t) s = .next (if flag u.m.desc.power 1 && u.m.periodPast u.m.power.stepAt 100000 then u.on (·.stepsDown) else u) := by
  subst hu
  exact congrArg Host.Outcome.next (apply_ite (fun b : Block => ({ s with m := b } : State)) ..)

/-! POWER_CAP_CHECK (R585, R586) -/

theorem Block.capCheck_over {b : Block} {p100 : Nat} (h : 97 * powerLimit b.desc.power < 100 * p100) :
    (b.capCheck p100).desc = (b.onPower (fun d => setFld (throttleDown d) 0 0 1)).desc := by
  unfold Block.capCheck
  extract_lets d lim
  rw [if_pos (by rwa [Nat.blt_eq])]

/-- Within the limit the descriptor keeps what it says, or the duty or the clock takes a step up (R586). -/
theorem Block.capCheck_within {b : Block} {p100 : Nat} (h : 100 * p100 ≤ 97 * powerLimit b.desc.power) :
    (b.capCheck p100).desc = b.desc ∨ (b.capCheck p100).desc = (b.onPower dutyUp).desc ∨ (b.capCheck p100).desc = (b.onPower clockUp).desc := by
  unfold Block.capCheck
  extract_lets d lim
  rw [if_neg (by rw [Nat.blt_eq]; exact Nat.not_lt.mpr h)]
  split
  · split
    · exact .inr (.inl rfl)
    · split
      · exact .inr (.inr rfl)
      · exact .inl rfl
  · exact .inl rfl

/-- Above 97 percent of the limit POWER_CAP is set, and the clock or the duty takes a step down (R586). -/
theorem Block.capCheck_over_fields {b : Block} {p100 : Nat} (h : 97 * powerLimit b.desc.power < 100 * p100) : flag (b.capCheck p100).desc.power 0 = true
    ∧ (1500 < fld b.desc.power 95 80 → fld (b.capCheck p100).desc.power 95 80 = Nat.max 1500 (fld b.desc.power 95 80 - 100))
    ∧ (fld b.desc.power 95 80 ≤ 1500 → fld (b.capCheck p100).desc.power 79 64 = Nat.max 0x40 (fld b.desc.power 79 64 - 0x10)) := by
  have hfld {hi lo : Nat} (hhi : hi < 160) (hlo : 0 < lo) : fld (b.capCheck p100).desc.power hi lo = fld (throttleDown b.desc.power) hi lo := by
    rw [Block.capCheck_over h, Block.fld_onPower hhi, fld_setFld_of_apart (by omega) (by omega) (.inr hlo)]
  refine ⟨?_, fun habove => ?_, fun hfloor => ?_⟩
  · rw [Block.capCheck_over h, Block.flag_onPower (by decide)]
    exact flag_setFld_self (by decide) _ true
  · rw [hfld (by decide) (by decide), (throttleDown_clock habove).1]
  · rw [hfld (by decide) (by decide), (throttleDown_duty hfloor).2]

/-- Within 97 percent of the limit neither the clock nor the duty goes down, where both are within their ranges (R586). -/
theorem Block.capCheck_within_fields {b : Block} {p100 : Nat} (h : 100 * p100 ≤ 97 * powerLimit b.desc.power) (hclock : fld b.desc.power 95 80 ≤ 3000)
    (hduty : fld b.desc.power 79 64 ≤ 256) : fld b.desc.power 95 80 ≤ fld (b.capCheck p100).desc.power 95 80 ∧ fld b.desc.power 79 64 ≤ fld (b.capCheck p100).desc.power 79 64 := by
  rcases Block.capCheck_within h with hsame | hup | hup
  · rw [hsame]
    exact ⟨Nat.le_refl _, Nat.le_refl _⟩
  · obtain ⟨hkept, hraised⟩ := dutyUp_fields b.desc.power
    rw [hup, Block.fld_onPower (by decide), Block.fld_onPower (by decide), hkept, hraised]
    exact ⟨Nat.le_refl _, Nat.le_min.mpr ⟨hduty, Nat.le_add_right ..⟩⟩
  · obtain ⟨hraised, hkept⟩ := clockUp_fields b.desc.power
    rw [hup, Block.fld_onPower (by decide), Block.fld_onPower (by decide), hraised, hkept]
    exact ⟨Nat.le_min.mpr ⟨hclock, Nat.le_add_right ..⟩, Nat.le_refl _⟩

/-- A comparison moves no field above the clock (R585, R586). -/
theorem Block.fld_capCheck {hi lo : Nat} (hhi : hi < 160) (hlo : 95 < lo) (b : Block) (p100 : Nat) : fld (b.capCheck p100).desc.power hi lo = fld b.desc.power hi lo := by
  rcases Nat.lt_or_ge (97 * powerLimit b.desc.power) (100 * p100) with h | h
  · rw [Block.capCheck_over h, Block.fld_onPower hhi, fld_setFld_of_apart (by omega) (by omega) (by omega), fld_throttleDown (by omega) (by omega)]
  · rcases Block.capCheck_within h with hsame | hduty | hclock
    · rw [hsame]
    · rw [hduty, Block.fld_onPower hhi, fld_dutyUp (by omega) hlo]
    · rw [hclock, Block.fld_onPower hhi, fld_clockUp (by omega) hlo]

/-- A block that shows a reading of the input, at the time of a comparison (R585, R586). -/
def Block.showsInput (b : Block) (p1ms vin : Nat) : Block :=
  { b with desc := { b.desc with power := setFld (setFld b.desc.power 159 144 p1ms) 111 96 vin }, power := { b.power with comparedAt := some b.span } }

theorem Block.fld_showsInput {hi lo : Nat} (hhi : hi < 96) (b : Block) (p1ms vin : Nat) : fld (b.showsInput p1ms vin).desc.power hi lo = fld b.desc.power hi lo := by
  unfold Block.showsInput
  simp (disch := omega) only [fld_setFld_of_apart]

theorem Block.powerLimit_showsInput (b : Block) (p1ms vin : Nat) : powerLimit (b.showsInput p1ms vin).desc.power = powerLimit b.desc.power := by
  have hstage : flag (b.showsInput p1ms vin).desc.power 2 = flag b.desc.power 2 := congrArg (· == 1) (Block.fld_showsInput (by decide) ..)
  rw [powerLimit, hstage, Block.fld_showsInput (by decide), powerLimit]

theorem Block.showsInput_fields (b : Block) (p1ms vin : Nat) : fld (b.showsInput p1ms vin).desc.power 159 144 = p1ms % 65536
    ∧ fld (b.showsInput p1ms vin).desc.power 111 96 = vin % 65536 := by
  unfold Block.showsInput
  simp (disch := omega) only [fld_setFld, fld_setFld_of_apart]
  exact ⟨rfl, rfl⟩

theorem exec_powerCapCheck {s u : State} {t p100 p1ms vin : Nat} (hu : s.on (fun b => b.advanceTo t) = u) : exec (.powerCapCheck t p100 p1ms vin) s = .next (
    if u.m.power.main != .on || !u.m.periodPast u.m.power.comparedAt 10000 then u else u.on (fun b => (b.showsInput p1ms vin).capCheck p100)) := by
  subst hu
  exact congrArg Host.Outcome.next (apply_ite (fun b : Block => ({ s with m := b } : State)) ..)

/-! THERMAL_SENSOR_READ (R585, R587, R588) -/

theorem unsigned_lt (w : Nat) (x : Int) : unsigned w x < 2 ^ w := by
  have hpos : (0 : Int) < (2 ^ w : Nat) := by exact_mod_cast Nat.two_pow_pos w
  have hlow := Int.emod_nonneg x hpos.ne'
  have hhigh := Int.emod_lt_of_pos x hpos
  unfold unsigned
  omega

theorem Block.countThrottle_eq (b : Block) (before after : Bool) : ∃ counts, b.countThrottle before after = { b with counts := counts } := by
  unfold Block.countThrottle Block.bump
  split <;> exact ⟨_, rfl⟩

/-- A throttle that has judged: its flag is written, and the clock, and what powers the main domain, are as before (R587). -/
structure Block.Judged (b c : Block) (i : Nat) (on : Bool) : Prop where
  clk : c.clk = b.clk
  main : c.power.main = b.power.main
  downAt : c.power.downAt = b.power.downAt
  power : c.desc.power = setFld b.desc.power i i (b2n on)

theorem Block.judged_junctions (b : Block) (hot : Int) : ∃ on, b.Judged (b.junctions hot) 1 on ∧ (1000 ≤ hot → on = true) := by
  unfold Block.junctions
  extract_lets was _ b₁ cool on b₂ _ b₃
  have hcounts : ∃ counts, b₂ = { b₁ with counts := counts } := b₁.countThrottle_eq was on
  clear_value b₂
  obtain ⟨counts, rfl⟩ := hcounts
  refine ⟨on, ?_, fun h => if_pos h⟩
  split <;> exact ⟨rfl, rfl, rfl, rfl⟩

theorem Block.judged_stageThrottle (b : Block) (x : Int) : ∃ on, b.Judged (b.stageThrottle x) 2 on ∧ (1200 ≤ x → on = true) ∧ (x ≤ 1170 → on = false) := by
  unfold Block.stageThrottle
  extract_lets was on b₁
  have hcounts : ∃ counts, b₁ = { b with counts := counts } := b.countThrottle_eq was on
  clear_value b₁
  obtain ⟨counts, rfl⟩ := hcounts
  exact ⟨on, ⟨rfl, rfl, rfl, rfl⟩, fun h => if_pos h, fun h => (if_neg (by omega)).trans (if_pos h)⟩

/-- The packages that the package throttle holds, by the temperatures of all (R587). -/
def throttledPackages (held : List Nat) (temps : List Int) : List Nat :=
  (((List.range temps.length).zip temps).filter (fun ((k, x) : Nat × Int) => 950 ≤ x || (920 < x && held.contains k))).map (·.1)

theorem throttledPackages_of_hot {temps : List Int} (h : ∃ p ∈ temps, 950 ≤ p) (held : List Nat) : (throttledPackages held temps).isEmpty = false := by
  obtain ⟨p, hp, hhot⟩ := h
  obtain ⟨k, hk, rfl⟩ := List.getElem_of_mem hp
  have hmem : (k, temps[k]) ∈ (List.range temps.length).zip temps := by
    refine List.mem_iff_getElem.mpr ⟨k, by simpa using hk, ?_⟩
    simp
  refine List.isEmpty_eq_false_iff_exists_mem.mpr ⟨k, List.mem_map.mpr ⟨_, List.mem_filter.mpr ⟨hmem, ?_⟩, rfl⟩⟩
  exact Bool.or_eq_true_iff.mpr (.inl (decide_eq_true hhot))

theorem throttledPackages_of_cool {temps : List Int} (h : ∀ p ∈ temps, p ≤ 920) (held : List Nat) : (throttledPackages held temps).isEmpty = true := by
  have hnone : ((List.range temps.length).zip temps).filter (fun ((k, x) : Nat × Int) => 950 ≤ x || (920 < x && held.contains k)) = [] := by
    refine List.filter_eq_nil_iff.mpr fun x hx => ?_
    have hcool := h x.2 (List.of_mem_zip hx).2
    have hbelow : ¬ 950 ≤ x.2 ∧ ¬ 920 < x.2 := by omega
    obtain ⟨k, y⟩ := x
    simp only [decide_eq_false hbelow.1, decide_eq_false hbelow.2, Bool.false_and, Bool.or_self, Bool.false_eq_true, not_false_eq_true]
  rw [throttledPackages, hnone]
  rfl

theorem Block.judged_packageThrottle (b : Block) (temps : List Int) :
    b.Judged (b.packageThrottle temps) 3 (!(throttledPackages b.power.packages temps).isEmpty) := by
  unfold Block.packageThrottle
  extract_lets now b₁
  have hcounts : ∃ counts, b₁ = { b with counts := counts } := by
    unfold b₁ Block.bump
    split <;> exact ⟨_, rfl⟩
  clear_value b₁
  obtain ⟨counts, rfl⟩ := hcounts
  exact ⟨rfl, rfl, rfl, rfl⟩

theorem Block.inletCheck_eq (b : Block) (x : Int) : ∃ counts faults logged, b.inletCheck x =
    { b with counts := counts, faults := faults, power := { b.power with inletLoggedAt := logged } } := by
  unfold Block.inletCheck Block.raiseC Block.logC Block.bump
  extract_lets due
  split
  · split <;> exact ⟨_, _, _, rfl⟩
  · exact ⟨_, _, _, rfl⟩

/-- A block whose sensors are shown (R585). -/
def Block.showsThermals (b : Block) (r : Thermals) : Block :=
  { b with power := { b.power with thermals := [hottest (r.junctions.take 16), hottest (r.junctions.drop 16), hottest r.packages, r.stage, r.inlet],
                                   junctions := r.junctions ++ r.ioControl },
           desc := { b.desc with power := setFld (setFld b.desc.power 143 128 (unsigned 16 (hottest r.junctions))) 127 112 (unsigned 16 r.inlet) } }

/-- A block whose throttles have judged the sensors (R587, R588). -/
def Block.senses (b : Block) (r : Thermals) : Block :=
  ((((b.showsThermals r).junctions (hottest r.junctions)).packageThrottle r.packages).stageThrottle r.stage).inletCheck r.inlet

/-- The throttles that a sensor pass leaves set: of the junctions, the power stage and the packages (R587, R588). -/
structure ThrottlesSet (r : Thermals) (hot stage packages : Bool) : Prop where
  hot : 1000 ≤ hottest r.junctions → hot = true
  stageHot : 1200 ≤ r.stage → stage = true
  stageCool : r.stage ≤ 1170 → stage = false
  packagesHot : (∃ p ∈ r.packages, 950 ≤ p) → packages = true
  packagesCool : (∀ p ∈ r.packages, p ≤ 920) → packages = false

theorem Block.senses_eq (b : Block) (r : Thermals) : (b.senses r).clk = b.clk ∧ (b.senses r).power.main = b.power.main ∧ (b.senses r).power.downAt = b.power.downAt
    ∧ ∃ hot stage packages, ThrottlesSet r hot stage packages
      ∧ (b.senses r).desc.power = setFld (setFld (setFld (b.showsThermals r).desc.power 1 1 (b2n hot)) 3 3 (b2n packages)) 2 2 (b2n stage) := by
  unfold Block.senses
  obtain ⟨hot, hj, hhot⟩ := (b.showsThermals r).judged_junctions (hottest r.junctions)
  generalize (b.showsThermals r).junctions (hottest r.junctions) = b₁ at hj ⊢
  have hp := b₁.judged_packageThrottle r.packages
  have hwarm := throttledPackages_of_hot (temps := r.packages) (held := b₁.power.packages)
  have hcool := throttledPackages_of_cool (temps := r.packages) (held := b₁.power.packages)
  generalize b₁.packageThrottle r.packages = b₂ at hp ⊢
  obtain ⟨stage, hs, hstage⟩ := b₂.judged_stageThrottle r.stage
  generalize b₂.stageThrottle r.stage = b₃ at hs ⊢
  obtain ⟨counts, faults, logged, hi⟩ := b₃.inletCheck_eq r.inlet
  rw [hi]
  refine ⟨hs.clk.trans (hp.clk.trans hj.clk), hs.main.trans (hp.main.trans hj.main), hs.downAt.trans (hp.downAt.trans hj.downAt), hot, stage,
    !(throttledPackages b₁.power.packages r.packages).isEmpty,
    ⟨hhot, hstage.1, hstage.2, fun h => ?_, fun h => ?_⟩, ?_⟩
  · exact congrArg Bool.not (hwarm h)
  · exact congrArg Bool.not (hcool h)
  · rw [← hj.power, ← hp.power, ← hs.power]

theorem exec_thermalSensorRead {s u : State} {t : Nat} {r : Thermals} (hu : s.on (fun b => b.advanceTo t) = u) (hon : u.m.power.main = .on) (hoptics : r.optics = []) :
    exec (.thermalSensorRead t r) s = .next (if tooHot r && (u.on (·.senses r)).m.power.downAt.isNone then (u.on (·.senses r)).shutdown else u.on (·.senses r)) := by
  simp only [exec, execThermalSensorRead, hu, hon, hoptics, bne_self_eq_false, Bool.false_eq_true, if_false, List.foldl_nil]
  rfl

/-- What a sensor pass shows in the descriptor (R585, R587, R588). -/
theorem Block.senses_fields (b : Block) (r : Thermals) : let d := (b.senses r).desc.power
    fld d 127 112 = unsigned 16 r.inlet ∧ fld d 143 128 = unsigned 16 (hottest r.junctions) ∧ ThrottlesSet r (flag d 1) (flag d 2) (flag d 3) := by
  intro d
  obtain ⟨-, -, -, hot, stage, packages, hset, hpower⟩ := b.senses_eq r
  have hd : d = setFld (setFld (setFld (b.showsThermals r).desc.power 1 1 (b2n hot)) 3 3 (b2n packages)) 2 2 (b2n stage) := hpower
  have hhot : flag d 1 = hot := by
    rw [hd, flag_setFld_of_apart (by omega) (by omega) (by omega), flag_setFld_of_apart (by omega) (by omega) (by omega), flag_setFld_self (by omega)]
  have hstage : flag d 2 = stage := by rw [hd, flag_setFld_self (by omega)]
  have hpackages : flag d 3 = packages := by rw [hd, flag_setFld_of_apart (by omega) (by omega) (by omega), flag_setFld_self (by omega)]
  rw [hhot, hstage, hpackages, hd]
  unfold Block.showsThermals
  simp (disch := omega) only [fld_setFld, fld_setFld_of_apart]
  exact ⟨Nat.mod_eq_of_lt (unsigned_lt 16 _), Nat.mod_eq_of_lt (unsigned_lt 16 _), hset⟩

/-- Settles O55: one step down at a time, one comparison with the limit, and each throttle at its threshold. -/
theorem throttlesAndCap : Obligations.ThrottlesAndCap := by
  unfold Obligations.ThrottlesAndCap
  intro s t u d
  refine ⟨fun hset hdue => ?_, fun hquiet => ?_, fun p100 p1ms vin hsoon => ?_, fun p100 p1ms vin hon hdue => ?_, fun r hon hoptics hcool => ?_, fun r hon hoptics hhot hdown => ?_⟩
  · have hexec := exec_thermalThrottleStep (s := s) (u := u) (t := t) rfl
    rw [show flag u.m.desc.power 1 = true from hset, hdue, Bool.and_self, if_pos rfl] at hexec
    have hfld {hi : Nat} (hhi : hi < 160) (lo : Nat) : fld (u.on (·.stepsDown)).m.desc.power hi lo = fld (throttleDown d) hi lo := Block.fld_onPower hhi ..
    refine ⟨_, hexec, rfl, ?_, fun habove => ?_, fun hfloor => ?_⟩
    · exact (congrArg (· == 1) ((hfld (by omega) 1).trans (fld_throttleDown (by omega) (by omega) d))).trans hset
    · rw [hfld (by decide), hfld (by decide)]
      exact throttleDown_clock habove
    · rw [hfld (by decide), hfld (by decide)]
      exact throttleDown_duty hfloor
  · refine (exec_thermalThrottleStep rfl).trans (congrArg Host.Outcome.next (if_neg (ne_true_of_eq_false ?_)))
    exact Bool.and_eq_false_iff.mpr hquiet
  · rw [exec_powerCapCheck (u := u) rfl, hsoon, Bool.not_false, Bool.or_true, if_pos rfl]
  · have hexec := exec_powerCapCheck (s := s) (u := u) (t := t) (p100 := p100) (p1ms := p1ms) (vin := vin) rfl
    rw [hon, hdue, bne_self_eq_false, Bool.not_true, Bool.or_self, if_neg Bool.false_ne_true] at hexec
    have hclock : fld (u.m.showsInput p1ms vin).desc.power 95 80 = fld d 95 80 := Block.fld_showsInput (by decide) ..
    have hduty : fld (u.m.showsInput p1ms vin).desc.power 79 64 = fld d 79 64 := Block.fld_showsInput (by decide) ..
    have hlimit : powerLimit (u.m.showsInput p1ms vin).desc.power = powerLimit d := Block.powerLimit_showsInput ..
    obtain ⟨hwatts, hvin⟩ := u.m.showsInput_fields p1ms vin
    have hover := Block.capCheck_over_fields (b := u.m.showsInput p1ms vin) (p100 := p100)
    have hwithin := Block.capCheck_within_fields (b := u.m.showsInput p1ms vin) (p100 := p100)
    rw [hlimit, hclock, hduty] at hover hwithin
    exact ⟨_, hexec, rfl, (Block.fld_capCheck (by decide) (by decide) ..).trans hwatts, (Block.fld_capCheck (by decide) (by decide) ..).trans hvin, hover, hwithin⟩
  · have hexec := exec_thermalSensorRead (s := s) (u := u) (t := t) rfl hon hoptics
    rw [hcool, Bool.false_and, if_neg Bool.false_ne_true] at hexec
    obtain ⟨hinlet, hjunctions, hset⟩ := u.m.senses_fields r
    exact ⟨_, hexec, rfl, hinlet, hjunctions, hset.hot, hset.stageHot, hset.stageCool, hset.packagesHot, hset.packagesCool⟩
  · obtain ⟨hclk, hmain, hdownAt, -⟩ := u.m.senses_eq r
    have hnone : (u.on (·.senses r)).m.power.downAt = none := hdownAt.trans hdown
    have hpowered : (u.on (·.senses r)).m.powered = true := by
      rw [State.on_m, Block.powered, hmain, hon]
      rfl
    have hexec := exec_thermalSensorRead (s := s) (u := u) (t := t) rfl hon hoptics
    rw [hhot, hnone, Option.isNone_none, Bool.and_self, if_pos rfl] at hexec
    obtain ⟨hline, hdownNow, howed⟩ := State.shutdown_of_powered hpowered hnone
    refine ⟨_, hexec, hline, hdownNow.trans ?_, howed.trans ?_⟩
    · exact congrArg (fun c : Clk => some (c.span / 16)) hclk
    · exact congrArg (fun c : Clk => some c.own) hclk

end Sys2Proof.Machine

/-! Input conditions, PERST_N and the power-down (O54, R576 to R584, R593). -/
namespace Sys2Proof.Machine

/-! An input condition (R578) -/

/-- An input condition raises at most an alert, and then marks the input and the time of the power-down. -/
theorem State.shedInput_eq (s : State) (delay : Nat) : ∃ v, s.AlertsOnly v
    ∧ s.shedInput delay = v.on (fun b => ({ b with power := { b.power with inputShed := true } } : Block).shedAt delay) := by
  unfold State.shedInput
  extract_lets v
  exact ⟨v, .ite (s.classM_alerts _).1 (.refl s), rfl⟩

theorem State.shedInput_power (s : State) (delay : Nat) : (s.shedInput delay).m.power = { s.m.power with inputShed := true, downAt := s.m.shedTime delay } := by
  obtain ⟨v, halerts, hv⟩ := s.shedInput_eq delay
  have hshed : ({ v.m with power := { v.m.power with inputShed := true } } : Block).shedTime delay = s.m.shedTime delay :=
    Block.shedTime_congr halerts.clk (congrArg Power.main halerts.power) (congrArg Power.downAt halerts.power) delay
  rw [hv, State.on_m, Block.shedAt_power, hshed, halerts.power]

theorem State.shedInput_clk (s : State) (delay : Nat) : (s.shedInput delay).m.clk = s.m.clk := by
  obtain ⟨v, halerts, hv⟩ := s.shedInput_eq delay
  rw [hv]
  exact halerts.clk

theorem State.shedInput_faultLine {s : State} (h : s.m.safety.faultLine = true) (delay : Nat) : (s.shedInput delay).m.safety.faultLine = true := by
  obtain ⟨v, halerts, hv⟩ := s.shedInput_eq delay
  rw [hv]
  exact halerts.faultLine h

/-! The power-fail warning (R579, R580) -/

/-- A block that has the warning: FAULT_N is low (R579). -/
def Block.warned (b : Block) : Block := { b with safety := { b.safety with faultLine := true }, power := { b.power with warnedAt := some b.span } }

/-- A block that saves what it can at the warning: a flash write ends, and the lifetime log is committed, once where that is due at this instant anyway (R575, R580, R600). -/
def Block.saves (b : Block) : Block :=
  let b : Block := if b.boot.committing then { b with boot := { b.boot with committing := false, flashImage := [] } } else b
  let scheduled := b.life.savedSpan == b.span && Nat.ble 600000000000 b.span
  let was := b.life
  let b := b.commitLife
  if scheduled then { b with life := { b.life with copyB := was.copyB, before := was.before } } else b

theorem Block.saves_fields (b : Block) : b.saves.power = b.power ∧ b.saves.safety = b.safety ∧ b.saves.boot.committing = false ∧ b.saves.life.saved.at_ = b.clk.own := by
  have hended : ∃ boot, (if b.boot.committing then ({ b with boot := { b.boot with committing := false, flashImage := [] } } : Block) else b) = { b with boot := boot }
      ∧ boot.committing = false := by
    split
    · exact ⟨_, rfl, rfl⟩
    · next h => exact ⟨b.boot, rfl, eq_false_of_ne_true h⟩
  obtain ⟨boot, hboot, hidle⟩ := hended
  unfold Block.saves
  rw [hboot]
  extract_lets scheduled was b₁
  split <;> exact ⟨rfl, rfl, hidle, rfl⟩

section
variable {s u : State} {t : Nat} (hu : s.on (fun b => b.advanceTo t) = u)
include hu

theorem exec_powerFailWarning (hstandby : u.m.power.standby = true) (hfirst : u.m.power.warnedAt = none) :
    exec (.powerFailWarning t) s = .next (((u.on (·.warned)).shedInput 50000).on (·.saves)) := by
  simp only [exec, execPowerFailWarning, hu, hstandby, hfirst, Option.isSome_none, Bool.not_true, Bool.or_self, Bool.false_eq_true, if_false]
  rfl

theorem exec_inputOvervoltage (hstandby : u.m.power.standby = true) : exec (.inputOvervoltage t) s = .next (u.shedInput 0) := by
  simp only [exec, execInputOvervoltage, hu, hstandby, if_true]

theorem exec_inputOvercurrent (hstandby : u.m.power.standby = true) : exec (.inputOvercurrent t) s = .next (u.shedInput 0) := by
  simp only [exec, execInputOvercurrent, hu, hstandby, if_true]

/-- A broken contact powers the main domain down at once, after the bell of a job (R578, R599). -/
theorem exec_prsntNBreak (hmade : u.m.power.prsntOk = true) : ∃ v, u.AlertsOnly v
    ∧ exec (.prsntNBreak t) s = .next (v.on (fun b => ({ b with power := { b.power with prsntOk := false } } : Block).shedAt 0)) := by
  refine ⟨if u.m.jobRuns then u.classM { cls := .m, code := 0x0A, at_ := 0 } else u, .ite (u.classM_alerts _).1 (.refl u), ?_⟩
  simp only [exec, execPrsntNBreak, hu, hmade, Bool.not_true, Bool.false_eq_true, if_false]

theorem exec_powerDownStart {d : Nat} (hdown : u.m.power.downAt = some d) (hpowered : u.m.powered = true) :
    exec (.powerDownStart t) s = .next (if d ≤ u.m.span then u.powerDown else u) := by
  simp only [exec, execPowerDownStart, hu, hdown, hpowered, Bool.true_and, Nat.ble_eq]

end

/-! The power-down (R584) -/

/-- A slot voided holds other bytes of host memory, and nothing else but the count of free values changes (R520; log 8). -/
theorem State.voidSlot_eq (s : State) : ∃ host tiers, s.voidSlot = { s with mem := { s.mem with host := host }, m := { s.m with tiers := tiers } } := by
  unfold State.voidSlot
  split
  · exact ⟨_, _, rfl⟩
  · split <;> exact ⟨_, _, rfl⟩

theorem State.dropMain_eq (s : State) : ∃ host tiers, s.dropMain =
    { s with mem := { parcel := [], host := host, stores := [] }, m := ({ s.m with tiers := tiers } : Block).mainLost } := by
  obtain ⟨host, tiers, hv⟩ := s.voidSlot_eq
  exact ⟨host, tiers, by rw [State.dropMain, hv]⟩

theorem assocGet_filter {α β : Type} [BEq α] [LawfulBEq α] {p : α → Bool} {k : α} (h : p k = true) (l : List (α × β)) : assocGet k (l.filter (fun x => p x.1)) = assocGet k l := by
  rw [assocGet, List.find?_filter, assocGet]
  refine congrArg (Option.map _) (List.find?_congr fun x _ => ?_)
  by_cases hk : x.1 = k
  · simp only [hk, h, true_and, Bool.decide_eq_true]
  · simp only [beq_eq_false_iff_ne.mpr hk, Bool.false_eq_true, and_false, decide_false]

theorem State.powerDown_fields (s : State) : s.powerDown.mem.parcel = [] ∧ s.powerDown.mem.stores = [] ∧ s.powerDown.m.power.main = .falling
    ∧ s.powerDown.m.power.downAt = none ∧ s.powerDown.pending = s.pending ∧ s.powerDown.m.power.standby = s.m.power.standby
    ∧ s.powerDown.m.power.perstLow = s.m.power.perstLow ∧ s.powerDown.m.power.prsntOk = s.m.power.prsntOk ∧ s.powerDown.m.dev.moduleResets = s.m.dev.moduleResets := by
  obtain ⟨host, tiers, h⟩ := s.dropMain_eq
  rw [State.powerDown, h]
  exact ⟨rfl, rfl, rfl, rfl, rfl, rfl, rfl, rfl, rfl⟩

theorem State.powerDown_mem {s : State} (h : s.m.snap.image = none) : s.powerDown.mem = { s.mem with parcel := [], stores := [] } := by
  simp only [State.powerDown, State.dropMain, State.voidSlot, h, State.on_mem]

/-- The counters of the standby domain outlast the main domain (R467, R498). -/
theorem State.powerDown_count {c : Counter} (hc : c.standby = true) (s : State) : s.powerDown.m.count c = s.m.count c := by
  obtain ⟨host, tiers, h⟩ := s.dropMain_eq
  rw [State.powerDown, h]
  exact congrArg (·.getD 0) (assocGet_filter hc s.m.counts)

/-! The module reset that follows (R456, R468, R581, R593) -/

/-- What a boot leaves of the pins' sheds and of MODULE_RESETS. -/
def Block.resetMarks (b : Block) : Bool × Option Nat × Nat := (b.power.inputShed, b.power.downAt, b.dev.moduleResets)

theorem Block.resetMarks_eq_iff {b : Block} {input : Bool} {down : Option Nat} {n : Nat} :
    b.resetMarks = (input, down, n) ↔ b.power.inputShed = input ∧ b.power.downAt = down ∧ b.dev.moduleResets = n := by
  simp only [Block.resetMarks, Prod.mk.injEq]

theorem State.TellsOnly.resetMarks {s u : State} (h : s.TellsOnly u) : u.m.resetMarks = s.m.resetMarks := by
  obtain ⟨_, _, _, _, _, _, _, _, _, rfl⟩ := h
  rfl

theorem State.enterOos_resetMarks (s : State) (reason : Nat) : (s.enterOos reason).m.resetMarks = s.m.resetMarks :=
  (State.tellsOnly_event ..).resetMarks

theorem State.powerMain_resetMarks (s : State) (x : BootSense) : (s.powerMain x).m.resetMarks = s.m.resetMarks := by
  unfold State.powerMain
  extract_lets s₁ s₂
  split
  · rfl
  · split
    · exact State.enterOos_resetMarks ..
    · split
      · exact State.enterOos_resetMarks ..
      · rfl

theorem State.moduleReset_resetMarks (s : State) (x : BootSense) : (s.moduleReset x).m.resetMarks = (false, none, Nat.min (s.m.dev.moduleResets + 1) 65535) := by
  obtain ⟨host, tiers, h⟩ := s.dropMain_eq
  rw [State.moduleReset, h, State.bootFrom3, State.powerMain_resetMarks]
  rfl

/-- A block whose input is back, the power-down complete (R581). -/
def Block.inputBack (b : Block) : Block := { b with power := { b.power with main := .off, downAt := none, warnedAt := none, inputShed := false } }

/-- A block that owes a module reset until it may boot (R581, R593). -/
def Block.owesReset (b : Block) : Block := { b with boot := { b.boot with resetDueAt := some b.clk.own } }

theorem Block.mayBoot_inputBack {b : Block} (hstandby : b.power.standby = true) (hperst : b.power.perstLow = false) (hprsnt : b.power.prsntOk = true) :
    b.inputBack.mayBoot = true := by
  simp only [Block.mayBoot, Block.inputBack, hstandby, hperst, hprsnt]
  rfl

section
variable {s u : State} {t : Nat} (hu : s.on (fun b => b.advanceTo t) = u)
include hu

theorem exec_powerDownComplete (hfalls : u.m.power.main = .falling) :
    exec (.powerDownComplete t) s = .next (u.on (fun b => { b with power := { b.power with main := .off } })) := by
  subst hu
  have hfalls' : (s.m.advanceTo t).power.main = .falling := hfalls
  simp only [exec, execPowerDownComplete, atTime, State.on, hfalls', beq_self_eq_true, if_true]

/-- The module that the returned input finds, whose power-down is complete, boots or owes a reset (R581). -/
theorem exec_inputReturn (hstandby : u.m.power.standby = true) (hshed : u.m.power.inputShed = true) (x : BootSense) : ∃ v : State, v.m.power.standby = true
    ∧ v.m.power.perstLow = u.m.power.perstLow ∧ v.m.power.prsntOk = u.m.power.prsntOk ∧ v.m.dev.moduleResets = u.m.dev.moduleResets
    ∧ exec (.inputReturn t x) s = .next (if v.m.inputBack.mayBoot then (v.on (·.inputBack)).moduleReset x else (v.on (·.inputBack)).on (·.owesReset)) := by
  obtain ⟨-, -, -, -, -, hstandby', hperst, hprsnt, hresets⟩ := u.powerDown_fields
  refine ⟨if u.m.powered then u.powerDown else u, ?_, ?_, ?_, ?_, ?_⟩
  rotate_left 4
  · simp only [exec, execInputReturn, hu, hstandby, hshed, Bool.not_true, Bool.or_self, Bool.false_eq_true, if_false]
    rfl
  all_goals split
  · exact hstandby'.trans hstandby
  · exact hstandby
  · exact hperst
  · rfl
  · exact hprsnt
  · rfl
  · exact hresets
  · rfl

/-- The bell of a job comes before the power-down (R593). -/
theorem exec_perstNAssert (hstandby : u.m.power.standby = true) (hhigh : u.m.power.perstLow = false) : ∃ v, u.AlertsOnly v
    ∧ exec (.perstNAssert t) s = .next ((if v.m.powered then v.powerDown else v).on (fun b => { b with power := { b.power with perstLow := true } })) := by
  have hbell (e : Nat) (b : Block) (hb : u.AlertsOnly { u with m := b }) :
      u.AlertsOnly (State.raiseBell { u with m := b } b.moduleId (b.lastEpoch b.moduleId + 1) e false 0) := hb.trans (State.alertsOnly_raiseBell ..)
  refine ⟨if u.m.jobRuns then State.raiseBell { u with m := (u.m.freeNat 256).2 } (u.m.freeNat 256).2.moduleId
    ((u.m.freeNat 256).2.lastEpoch (u.m.freeNat 256).2.moduleId + 1) (u.m.freeNat 256).1 false 0 else u, .ite (hbell _ _ (State.alertsOnly_update rfl rfl rfl id)) (.refl u), ?_⟩
  simp only [exec, execPerstNAssert, hu, hstandby, hhigh, Bool.not_true, Bool.or_self, Bool.false_eq_true, if_false]

theorem exec_perstNRelease (hlow : u.m.power.perstLow = true) (x : BootSense) : exec (.perstNRelease t x) s = .next (
    let w := u.on (fun b => { b with power := { b.power with perstLow := false } })
    if w.m.mayBoot then w.moduleReset x else w.on (·.owesReset)) := by
  simp only [exec, execPerstNRelease, hu, hlow, Bool.not_true, Bool.false_eq_true, if_false]
  rfl

end

/-- Settles O54: each condition, the power-down, and the boot that follows once nothing forbids it. -/
theorem powerDown : Obligations.PowerDown := by
  unfold Obligations.PowerDown
  intro s t x u
  have hu : s.on (fun b => b.advanceTo t) = u := rfl
  have hmem : u.mem = s.mem := rfl
  have hpending : u.pending = s.pending := rfl
  clear_value u
  refine ⟨fun hstandby hfirst => ?_, fun hstandby => ⟨exec_inputOvervoltage hu hstandby, exec_inputOvercurrent hu hstandby⟩, ⟨?_, fun hpowered => ?_⟩, ?_, fun hmade => ?_,
    fun d hdown hpowered => ?_, ⟨fun himage => hmem ▸ State.powerDown_mem himage, ?_⟩, fun hfalls => ?_, fun hstandby hshed => ?_, fun hstandby hhigh => ?_, fun hlow => ?_⟩
  · obtain ⟨hsaves, hsafety, hidle, hsaved⟩ := ((u.on (·.warned)).shedInput 50000).m.saves_fields
    have hpower := hsaves.trans (State.shedInput_power ..)
    exact ⟨_, exec_powerFailWarning hu hstandby hfirst, (congrArg Safety.faultLine hsafety).trans (State.shedInput_faultLine rfl _), congrArg Power.warnedAt hpower,
      congrArg Power.inputShed hpower, hidle, hsaved.trans (congrArg Clk.own (State.shedInput_clk ..)),
      fun hpowered hdown => (congrArg Power.downAt hpower).trans (Block.shedTime_first (b := (u.on (·.warned)).m) hpowered hdown 50000)⟩
  · rw [State.shedInput_power]
  · rw [State.shedInput_power]
    exact Block.shedTime_le hpowered 0
  · subst hu
    exact ⟨_, rfl, rfl, (Block.count_raiseC (c := .life 3 28) nofun ..).trans (Block.count_bump_self ..)⟩
  · obtain ⟨v, halerts, hexec⟩ := exec_prsntNBreak hu hmade
    refine ⟨_, hexec, rfl, fun hpowered => ?_⟩
    rw [← halerts.span]
    exact Block.shedTime_le (b := { v.m with power := { v.m.power with prsntOk := false } }) (halerts.powered.trans hpowered) 0
  · have hexec := exec_powerDownStart hu hdown hpowered
    exact ⟨fun hdue => hexec.trans (congrArg Host.Outcome.next (if_pos hdue)), fun hearly => hexec.trans (congrArg Host.Outcome.next (if_neg (Nat.not_le.mpr hearly)))⟩
  · obtain ⟨hparcel, hstores, hmain, hdown, hqueue, -⟩ := u.powerDown_fields
    exact ⟨hparcel, hstores, hmain, hdown, hqueue.trans hpending, fun c hc => State.powerDown_count hc u⟩
  · exact ⟨_, exec_powerDownComplete hu hfalls, hmem, rfl⟩
  · obtain ⟨v, hpowers, hperst, hprsnt, hresets, hexec⟩ := exec_inputReturn hu hstandby hshed x
    have hmarks := (v.on (·.inputBack)).moduleReset_resetMarks x
    rw [State.on_m, show v.m.inputBack.dev.moduleResets = u.m.dev.moduleResets from hresets] at hmarks
    obtain ⟨hinput, hdown, hcount⟩ := Block.resetMarks_eq_iff.mp hmarks
    refine ⟨_, hexec, ?_⟩
    split
    · exact ⟨hinput, hdown, fun _ _ => hcount⟩
    · next hwaits => exact ⟨rfl, rfl, fun hhigh hmade => absurd (Block.mayBoot_inputBack hpowers (hperst.trans hhigh) (hprsnt.trans hmade)) hwaits⟩
  · obtain ⟨v, halerts, hexec⟩ := exec_perstNAssert hu hstandby hhigh
    refine ⟨_, hexec, rfl, fun hpowered => ?_⟩
    rw [if_pos (halerts.powered.trans hpowered)]
    obtain ⟨hparcel, -, hmain, -⟩ := v.powerDown_fields
    exact ⟨hmain, hparcel⟩
  · have hexec := exec_perstNRelease hu hlow x
    exact ⟨fun hmay => hexec.trans (congrArg Host.Outcome.next (if_pos hmay)),
      fun hwaits => ⟨_, hexec.trans (congrArg Host.Outcome.next (if_neg (ne_true_of_eq_false hwaits))), hmem, rfl, rfl⟩⟩

end Sys2Proof.Machine

/-! Self-test slots (O56, R354, R481, R482, R534, R535). -/
namespace Sys2Proof.Machine

/-! A croft that leaves service or runs its diagnostic (R482) -/

theorem State.leaveService_fields (s : State) (reason : Nat) : (s.leaveService reason).m.crofts = s.m.crofts
    ∧ (s.leaveService reason).m.faults.arrived = s.m.faults.arrived ∧ (s.m.jobRuns = true → (s.leaveService reason).m.faults.oosPending = reason)
    ∧ (s.m.jobRuns = false → (s.leaveService reason).m.dev.state = 6 ∧ (s.leaveService reason).m.dev.oosReason = reason) := by
  unfold State.leaveService
  by_cases hruns : s.m.jobRuns = true
  · rw [if_pos hruns]
    exact ⟨rfl, rfl, fun _ => rfl, fun h => absurd (hruns.symm.trans h) Bool.true_eq_false.mp⟩
  · rw [if_neg hruns]
    have htells : (s.on (fun b => ({ b with dev := { b.dev with state := 6, oosReason := reason }, faults := { b.faults with oosPending := 0 } } : Block).bump
        (.life 7 (9 + reason)))).TellsOnly (s.enterOos reason) := State.tellsOnly_event ..
    generalize s.enterOos reason = u at htells
    obtain ⟨_, _, _, _, _, _, _, _, _, rfl⟩ := htells
    exact ⟨rfl, rfl, fun h => absurd h hruns, fun _ => ⟨rfl, rfl⟩⟩

theorem Block.length_onCroft (b : Block) (n : Nat) (f : Croft → Croft) : (b.onCroft n f).crofts.length = b.crofts.length := by
  rw [Block.onCroft_crofts, modAt_eq_modify, List.length_modify]

/-- A suspect croft without a spare is suspect no more; where it fails its diagnostic the module leaves service (R482). -/
theorem State.diagnosed_fields {s : State} {n : Nat} (hn : n < s.m.crofts.length) (ok : Bool) : ((s.diagnosed n ok).m.croft n).stopped = (s.m.croft n).stopped
    ∧ ((s.diagnosed n ok).m.croft n).suspect = false ∧ (s.diagnosed n ok).m.faults.arrived = s.m.faults.arrived
    ∧ (ok = false → s.m.jobRuns = true → (s.diagnosed n ok).m.faults.oosPending = 3)
    ∧ (ok = false → s.m.jobRuns = false → (s.diagnosed n ok).m.dev.state = 6 ∧ (s.diagnosed n ok).m.dev.oosReason = 3) := by
  unfold State.diagnosed
  extract_lets code s₁
  have hcroft : s₁.m.croft n = { s.m.croft n with suspect := false } := Block.croft_onCroft_self hn _
  cases ok
  · have halerts := s₁.alertsOnly_raiseErr_classJ (e := { cls := .j, code := code, at_ := 0, croft := some n, cause := 2 }) rfl
    generalize s₁.raiseErr { cls := .j, code := code, at_ := 0, croft := some n, cause := 2 } = v at halerts
    obtain ⟨hcrofts, harrived, hpending, hleaves⟩ := v.leaveService_fields 3
    have hcroft' : (v.leaveService 3).m.croft n = { s.m.croft n with suspect := false } := by
      rw [Block.croft, hcrofts, halerts.crofts]
      exact hcroft
    rw [if_neg Bool.false_ne_true, hcroft']
    exact ⟨rfl, rfl, harrived.trans halerts.arrived, fun _ hruns => hpending (halerts.jobRuns.trans hruns), fun _ hidle => hleaves (halerts.jobRuns.trans hidle)⟩
  · rw [if_pos rfl, hcroft]
    exact ⟨rfl, rfl, rfl, nofun, nofun⟩

/-! The slot of an active croft (R534, R535) -/

/-- A croft in its slot: its timers stand still (R534). -/
def Croft.inSlot (c : Croft) : Croft := { c with slotOwed := false, beats := c.beats.map (fun ((u, x) : CroftUnit × Nat) => (u, x + 5000)) }

/-- A block in which the slot of a croft begins. -/
def Block.slotBegins (b : Block) (n : Nat) : Block := (b.bump .slotsRun).onCroft n (·.inSlot)

/-- A block in which the slot of a croft has failed, and the croft is marked. -/
def Block.slotFails (b : Block) (n : Nat) (mark : Croft → Croft) : Block := ((b.slotBegins n).bump .slotsFailed).onCroft n mark

/-- The error of a slot that fails after its unit has released output (R535). -/
def slotErrorJ (n since : Nat) : ErrorRec := { cls := .j, code := 0x21, at_ := 0, croft := some n, croftSide := true, cause := 2, suspectAt := since }

/-- The error of a slot that fails with nothing released (R535). -/
def slotErrorT (n : Nat) : ErrorRec := { cls := .t, code := 0x21, at_ := 0, croft := some n, croftSide := true, cause := 2 }

/-- A croft that is to be remapped, stopped until then (R482, R535). -/
def Croft.suspected (c : Croft) : Croft := { c with suspect := true, suspectCode := 0x21, stopped := true }

theorem Block.slotBegins_croft {b : Block} {n : Nat} (hn : n < b.crofts.length) : (b.slotBegins n).croft n = (b.croft n).inSlot := by
  rw [Block.slotBegins, Block.croft_onCroft_self (by rwa [Block.bump_crofts]), Block.bump_croft]

theorem Block.length_slotBegins (b : Block) (n : Nat) : (b.slotBegins n).crofts.length = b.crofts.length := by
  rw [Block.slotBegins, Block.length_onCroft, Block.bump_crofts]

theorem Block.slotFails_croft {b : Block} {n : Nat} (hn : n < b.crofts.length) (mark : Croft → Croft) : (b.slotFails n mark).croft n = mark (b.croft n).inSlot := by
  rw [Block.slotFails, Block.croft_onCroft_self (by rwa [Block.bump_crofts, Block.length_slotBegins]), Block.bump_croft, Block.slotBegins_croft hn]

theorem Block.length_slotFails (b : Block) (n : Nat) (mark : Croft → Croft) : (b.slotFails n mark).crofts.length = b.crofts.length := by
  rw [Block.slotFails, Block.length_onCroft, Block.bump_crofts, Block.length_slotBegins]

section
variable {s : State} {n : Nat} (hfree : (s.m.croft n).deferring = false) (rel diag : Bool)
include hfree

theorem State.activeSlot_passes : s.activeSlot n true rel diag =
    s.on (fun b => (b.slotBegins n).onCroft n (fun c => { c with lastPass := (b.slotBegins n).span + 5000 })) := by
  simp only [State.activeSlot, hfree, Bool.false_eq_true, if_false, if_true]
  rfl

theorem State.activeSlot_fails_held : s.activeSlot n false false diag = (s.on (fun b => b.slotFails n (fun c => { c with stopped := true }))).raiseErr (slotErrorT n) := by
  simp only [State.activeSlot, hfree, Bool.false_eq_true, if_false]
  rfl

theorem State.activeSlot_fails_released : s.activeSlot n false true diag =
    let v := (s.on (fun b => b.slotFails n (·.suspected))).raiseErr (slotErrorJ n (s.m.instant (s.m.croft n).lastPass))
    if v.m.spareFree (dieOf n) then v else v.diagnosed n diag := by
  simp only [State.activeSlot, hfree, Bool.false_eq_true, if_false, if_true]
  rfl

end

/-- A croft whose slot fails after its unit has released output is suspect and stopped; the error of class J is no error for the handler (R461, R482, R535). -/
theorem State.slotErrorJ_raised {s : State} {n : Nat} (hn : n < s.m.crofts.length) (since : Nat) :
    let v := (s.on (fun b => b.slotFails n (·.suspected))).raiseErr (slotErrorJ n since)
    v.m.croft n = (s.m.croft n).inSlot.suspected ∧ v.m.crofts.length = s.m.crofts.length ∧ v.m.faults.arrived = s.m.faults.arrived ∧ v.m.jobRuns = s.m.jobRuns
      ∧ v.m.spareFree (dieOf n) = s.m.spareFree (dieOf n) := by
  intro v
  have halerts := (s.on (fun b => b.slotFails n (·.suspected))).alertsOnly_raiseErr_classJ (e := slotErrorJ n since) rfl
  exact ⟨(halerts.croft n).trans (Block.slotFails_croft hn _), (congrArg List.length halerts.crofts).trans (Block.length_slotFails ..), halerts.arrived, halerts.jobRuns,
    halerts.spareFree _⟩

theorem State.activeSlot_deferred {s : State} {n : Nat} (hdefers : (s.m.croft n).deferring = true) (passed rel diag : Bool) : s.activeSlot n passed rel diag =
    s.on (fun b => (b.bump .slotsDeferred).onCroft n (fun c => { c with slotOwed := true })) := by
  simp only [State.activeSlot, hdefers, if_true]

section
variable {s u : State} {t slot : Nat} (hu : s.on (fun b => b.advanceTo t) = u) (hon : u.m.power.main = .on)
include hu hon

theorem exec_selfTestSlot (hslot : slot < 192) (htime : u.m.slotTime slot = true) (passed rel diag : Bool) :
    exec (.selfTestSlot t slot passed rel diag) s = .next (u.activeSlot slot passed rel diag) := by
  have hport : (slot == 208) = false := beq_eq_false_iff_ne.mpr (by omega)
  simp only [exec, execSelfTestSlot, hu, hon, hport, htime, hslot, bne_self_eq_false, Bool.not_true, Bool.false_eq_true, if_false, if_true]

theorem exec_selfTestSlot_otherwise (hslot : slot < 192) (htime : u.m.slotTime slot = false) (passed rel diag : Bool) : exec (.selfTestSlot t slot passed rel diag) s = .next u := by
  have hport : (slot == 208) = false := beq_eq_false_iff_ne.mpr (by omega)
  simp only [exec, execSelfTestSlot, hu, hon, hport, htime, bne_self_eq_false, Bool.not_false, Bool.false_eq_true, if_false, if_true]

theorem exec_selfTestSlot_spare {d : Nat} (hd : d < 16) (htime : u.m.slotTime (192 + d) = true) (passed rel diag : Bool) :
    exec (.selfTestSlot t (192 + d) passed rel diag) s = .next (u.spareSlotTest d passed) := by
  have hport : (192 + d == 208) = false := beq_eq_false_iff_ne.mpr (by omega)
  have hactive : ¬ 192 + d < 192 := by omega
  have hspare : 192 + d < 208 := by omega
  simp only [exec, execSelfTestSlot, hu, hon, hport, htime, hactive, hspare, Nat.add_sub_cancel_left, bne_self_eq_false, Bool.not_true, Bool.false_eq_true, if_false, if_true]

end

end Sys2Proof.Machine

/-! Monitors, the bell line, telemetry, the lifetime log and boundary scan (O56, R536 to R554). -/
namespace Sys2Proof.Machine

/-! Errors that these mechanisms raise -/

/-- An error has arrived last at the handler, of a class and a cause of the lifetime log's (R461, R552). -/
def Block.Arrived (b c : Block) (k : Class_) (cause : Nat) : Prop := ∃ x : ErrorRec, c.faults.arrived = b.faults.arrived ++ [x] ∧ x.cls = k ∧ x.cause = cause

theorem State.arrived_raiseErr {e : ErrorRec} (hc : e.cls ≠ .c) (hj : e.cls ≠ .j) (s : State) : s.m.Arrived (s.raiseErr e).m e.cls e.cause :=
  ⟨_, congrArg (fun u : State => u.m.faults.arrived) (State.raiseErr_arrives hc hj s), rfl, rfl⟩

theorem Block.logC_safety (b : Block) (e : ErrorRec) : (b.logC e).safety = b.safety := by
  unfold Block.logC
  split
  · rfl
  · exact Block.bump_safety ..

/-- An error leaves the excursions as they are, unless it is of class J. -/
theorem State.raiseErr_excursions {e : ErrorRec} (hj : e.cls ≠ .j) (s : State) : (s.raiseErr e).m.safety.excursions = s.m.safety.excursions := by
  by_cases hc : e.cls = .c
  · rw [State.raiseErr_classC hc]
    exact congrArg Safety.excursions (Block.logC_safety ..)
  · rw [State.raiseErr_arrives hc hj]
    rfl

theorem State.raiseErr_mem {e : ErrorRec} (hj : e.cls ≠ .j) (s : State) : (s.raiseErr e).mem = s.mem := by
  by_cases hc : e.cls = .c
  · rw [State.raiseErr_classC hc]
    rfl
  · rw [State.raiseErr_arrives hc hj]
    rfl

/-! The bell line and lockstep (R536, R540) -/

section
variable {s u : State} {t : Nat} (hu : s.on (fun b => b.advanceTo t) = u)
include hu

theorem exec_bellLineTest (passed : Bool) : exec (.bellLineTest t passed) s = .next (
    if passed then u else (u.on (·.bump .bellTestsFailed)).raiseErr { cls := .m, code := 0x0A, at_ := 0, cause := 11 }) := by
  cases passed <;> simp only [exec, execBellLineTest, hu, Bool.false_eq_true, if_false, if_true]

theorem exec_lockstepMismatch {pair : Nat} (hpair : pair ≠ 3) : exec (.lockstepMismatch t pair) s = .next (
    (u.on (·.bump .lockstepMismatches)).raiseErr { cls := .m, code := 0x21, at_ := 0, cause := 3 }) := by
  simp only [exec, execLockstepMismatch, hu, beq_eq_false_iff_ne.mpr hpair, Bool.false_eq_true, if_false]

theorem exec_lockstepMismatch_management : exec (.lockstepMismatch t 3) s = .next (
    ((u.on (·.bump .lockstepMismatches)).on (fun b => { b with boot := { b.boot with planeUp := false } })).raiseErr { cls := .c, code := 0x21, at_ := 0, cause := 3 }) := by
  simp only [exec, execLockstepMismatch, hu, beq_self_eq_true, if_true]

/-! Monitors (R538) -/

/-- A block in which a source has left its window (R538). -/
def Block.leavesWindow (b : Block) (src : MonSource) : Block := { b with safety := { b.safety with excursions := b.safety.excursions ++ [(src, b.span)] } }

omit hu in
theorem exec_monitorExcursion_die {d : Nat} {rail : Bool} (hnew : ∀ x ∈ (s.m.advanceTo t).safety.excursions, x.1 ≠ .computeDie d rail) :
    exec (.monitorExcursion t (.computeDie d rail)) s
      = .next ((s.on (·.advanceTo t)).on (fun b => (b.leavesWindow (.computeDie d rail)).onDie d (fun x => { x with hold := some b.span }))) := by
  have hany : ((s.m.advanceTo t).safety.excursions.any (·.1 == .computeDie d rail)) = false := List.any_eq_false.mpr fun x hx h => hnew x hx (beq_iff_eq.mp h)
  simp only [exec, execMonitorExcursion, atTime, State.on, hany, Bool.false_eq_true, if_false]
  rfl

omit hu in
theorem exec_monitorExcursion_other {n : Nat} (hnew : ∀ x ∈ (s.m.advanceTo t).safety.excursions, x.1 ≠ .other n) :
    exec (.monitorExcursion t (.other n)) s = .next ((s.on (·.advanceTo t)).on (·.leavesWindow (.other n))) := by
  have hany : ((s.m.advanceTo t).safety.excursions.any (·.1 == .other n)) = false := List.any_eq_false.mpr fun x hx h => hnew x hx (beq_iff_eq.mp h)
  simp only [exec, execMonitorExcursion, atTime, State.on, hany, Bool.false_eq_true, if_false]
  rfl

end

/-- A block in which an excursion has ended, or tripped, and is counted (R538, R552). -/
def Block.windowEnds (b : Block) (src : MonSource) (c : Counter) (k : Nat) : Block := ((b.endExcursion src).bump c).countRail src k

theorem Block.windowEnds_eq (b : Block) (src : MonSource) (c : Counter) (k : Nat) : ∃ counts, b.windowEnds src c k = { b.endExcursion src with counts := counts } := by
  unfold Block.windowEnds Block.countRail Block.bump
  split <;> exact ⟨_, rfl⟩

theorem Block.windowEnds_excursions (b : Block) (src : MonSource) (c : Counter) (k : Nat) : ∀ e ∈ (b.windowEnds src c k).safety.excursions, e.1 ≠ src := by
  obtain ⟨counts, h⟩ := b.windowEnds_eq src c k
  rw [h]
  exact fun e he => bne_iff_ne.mp (List.mem_filter.mp he).2

theorem Block.windowEnds_faults (b : Block) (src : MonSource) (c : Counter) (k : Nat) : (b.windowEnds src c k).faults = b.faults := by
  obtain ⟨counts, h⟩ := b.windowEnds_eq src c k
  rw [h]
  rfl

/-- An excursion that ends under an error, other than of class J, ends in the list of excursions alone (R538). -/
theorem State.windowEnds_raised {e : ErrorRec} (hj : e.cls ≠ .j) (s : State) (src : MonSource) (c : Counter) (k : Nat) :
    let v := (s.on (fun b => b.windowEnds src c k)).raiseErr e
    v.mem = s.mem ∧ (∀ x ∈ v.m.safety.excursions, x.1 ≠ src) ∧ (e.cls ≠ .c → s.m.Arrived v.m e.cls e.cause) ∧ (e.cls = .c → v.m.faults.arrived = s.m.faults.arrived) := by
  intro v
  have hfaults : (s.on (fun b => b.windowEnds src c k)).m.faults = s.m.faults := Block.windowEnds_faults ..
  refine ⟨State.raiseErr_mem hj _, ?_, fun hc => ?_, fun hc => ?_⟩
  · rw [State.raiseErr_excursions hj]
    exact Block.windowEnds_excursions _ _ _ _
  · obtain ⟨x, hx, hcls, hcause⟩ := State.arrived_raiseErr hc hj (s.on (fun b => b.windowEnds src c k))
    exact ⟨x, hfaults ▸ hx, hcls, hcause⟩
  · have hlogs := State.alertsOnly_logC (s.on (fun b => b.windowEnds src c k))
    exact (congrArg (fun u : State => u.m.faults.arrived) (State.raiseErr_classC hc _)).trans ((hlogs _).arrived.trans (congrArg Faults.arrived hfaults))

theorem monCause_computeDie (d : Nat) (rail : Bool) : monCause (.computeDie d rail) = if rail then 10 else 9 := by cases rail <;> rfl

theorem monCause_other (n : Nat) : monCause (.other n) = if n < 24 then 9 else 10 := by
  unfold monCause monRail
  by_cases h : n < 24
  · simp only [if_pos h]
    rfl
  · simp only [if_neg h]
    rfl

/-- The error of an excursion that ends (R538). -/
def returnError (src : MonSource) : ErrorRec :=
  match src with
  | .computeDie d _ => { cls := .t, code := 0x0A, at_ := 0, die := some d, cause := monCause src }
  | .other _ => { cls := .c, code := 0x0A, at_ := 0, cause := monCause src }

/-- The error of an excursion that lasts (R538, R542). -/
def tripError (src : MonSource) (since : Nat) : ErrorRec :=
  match src with
  | .computeDie d _ => { cls := .d, code := 0x0A, at_ := 0, die := some d, cause := monCause src }
  | .other _ => { cls := .m, code := 0x0A, at_ := 0, cause := monCause src, suspectAt := since }

section
variable {s u : State} {t : Nat} {src : MonSource} {x : MonSource × Nat} (hu : s.on (fun b => b.advanceTo t) = u)
  (hout : u.m.safety.excursions.find? (fun e => e.1 == src) = some x)
include hu hout

theorem exec_monitorReturn : exec (.monitorReturn t src) s = .next (
    if x.2 + 10000 ≤ u.m.span then u else (u.on (fun b => b.windowEnds src .monitorExcursions 0)).raiseErr (returnError src)) := by
  cases src <;> simp only [exec, execMonitorReturn, hu, hout] <;> exact (apply_ite Host.Outcome.next ..).symm

theorem exec_monitorTrip : exec (.monitorTrip t src) s = .next (
    if u.m.span < x.2 + 10000 then u
    else (u.on (fun b => b.windowEnds src .monitorTrips 1)).raiseErr (tripError src ((u.m.windowEnds src .monitorTrips 1).instant x.2))) := by
  cases src <;> simp only [exec, execMonitorTrip, hu, hout] <;> exact (apply_ite Host.Outcome.next ..).symm

end

end Sys2Proof.Machine

/-! Telemetry, the lifetime log and boundary scan (O56, R545 to R553). -/
namespace Sys2Proof.Machine

/-! Telemetry (R549, R552) -/

theorem Counter.life_ne_life {sec sec' : Nat} (h : sec ≠ sec') (i i' : Nat) : Counter.life sec i ≠ .life sec' i' := fun he => h (Counter.life.inj he).1

theorem Block.sampleLife_linksOnly (b : Block) (w : Nat) : b.LinksOnly (b.sampleLife w) := by
  unfold Block.sampleLife
  extract_lets b₁
  have h₁ : b.LinksOnly b₁ := Block.linksOnly_foldl (fun b x _ => b.linksOnly_bump ..) b
  exact h₁.trans ((Block.linksOnly_bump ..).trans (Block.linksOnly_bump ..))

/-- A sample counts once in the bin of its power (R552). -/
theorem Block.count_sampleLife (b : Block) (w : Nat) : (b.sampleLife w).count (.life 4 (powerBin w)) = Nat.min (b.count (.life 4 (powerBin w)) + 1) (2 ^ 64 - 1) := by
  unfold Block.sampleLife
  extract_lets b₁
  have h₁ : b₁.count (.life 4 (powerBin w)) = b.count (.life 4 (powerBin w)) :=
    List.foldlRecOn (motive := fun c : Block => c.count (.life 4 (powerBin w)) = b.count (.life 4 (powerBin w))) _ _ rfl
      fun c hc x _ => (Block.count_bump_ne (Counter.life_ne_life (sec := 2) (sec' := 4) (by decide) _ _) ..).trans hc
  rw [Block.count_bump_self, Block.count_bump_ne (Counter.life_ne_life (sec := 3) (sec' := 4) (by decide) _ _), h₁]

/-- At a whole ms of the own clock, with no block in BLOCK_MASK, a sample is of the histograms alone (R549, R552). -/
theorem exec_telemetrySample {s u : State} {t : Nat} (hu : s.on (fun b => b.advanceTo t) = u) (hon : u.m.power.main = .on) (hms : u.m.clk.own % 1000000 = 0)
    (hmask : fld u.m.desc.trace 383 352 = 0) (w : Nat) : exec (.telemetrySample t w) s = .next (u.on (·.sampleLife w)) := by
  have hdesc : (u.on (·.sampleLife w)).m.desc = u.m.desc := by
    obtain ⟨links, counts, h⟩ := u.m.sampleLife_linksOnly w
    rw [State.on_m, h]
  have hnone (n : Nat) : (0 / 2 ^ n % 2 == 1) = false := by rw [Nat.zero_div]; rfl
  simp only [exec, execTelemetrySample, hu, hon, hms, hdesc, hmask, hnone, beq_self_eq_true, bne_self_eq_false, Bool.false_eq_true, if_false, if_true, List.foldl_fixed, ite_self]

/-! The lifetime log (R546, R553) -/

/-- Is it a counter of the lifetime log (R552)? -/
def Counter.ofLife : Counter → Bool
  | .life .. => true
  | _ => false

theorem State.alertsOnly_streamLog (s : State) (bytes : List Byte) (k n : Nat) : s.AlertsOnly (s.streamLog bytes k n) := by
  induction n generalizing s k with
  | zero => exact .refl s
  | succ n ih => exact .ite (.refl s) ((s.alertsOnly_trace ..).trans (ih ..))

theorem exec_logExport {s u : State} {t q : Nat} (hu : s.on (fun b => b.advanceTo t) = u) (hasked : fld u.m.desc.trace 407 400 = q) (hnew : u.m.safety.exportSeq ≠ q) :
    exec (.logExport t q) s = .next ((u.on (fun b => { b with safety := { b.safety with exportSeq := q, exportDrop := false } })).streamLog u.m.lifeExport 0
      (ceilDiv u.m.lifeExport.length 4096)) := by
  simp only [exec, execLogExport, hu, hasked, beq_eq_false_iff_ne.mpr hnew, bne_self_eq_false, Bool.or_self, Bool.false_eq_true, if_false]

theorem exec_logCommit {s u : State} {t : Nat} (hu : s.on (fun b => b.advanceTo t) = u) (hstandby : u.m.power.standby = true)
    (hdue : u.m.life.savedSpan + 600000000000 ≤ u.m.span) : exec (.logCommit t) s = .next (u.on (·.commitLife)) := by
  subst hu
  have hcommits : ((s.m.advanceTo t).power.standby && decide ((s.m.advanceTo t).life.savedSpan + 600000000000 ≤ (s.m.advanceTo t).span)) = true :=
    Bool.and_eq_true_iff.mpr ⟨hstandby, decide_eq_true hdue⟩
  simp only [exec, execLogCommit, atTime, State.on, if_pos hcommits]

theorem Block.commitLife_counts (b : Block) (sec i : Nat) : assocGet (Counter.life sec i) b.commitLife.life.saved.counts = assocGet (Counter.life sec i) b.counts :=
  assocGet_filter (p := Counter.ofLife) rfl b.counts

/-! Boundary scan (R545) -/

theorem exec_tapInstruction (s : State) (t ir : Nat) : exec (.tapInstruction t ir) s = .next ((s.on (·.advanceTo t)).on (fun b =>
    { b with power := { b.power with tapIr := some (if ir = 1 ∨ ir = 2 ∨ ir = 3 then ir else 0) } })) := by
  have hknown : ([1, 2, 3].contains ir = true) ↔ (ir = 1 ∨ ir = 2 ∨ ir = 3) := by simp
  simp only [exec, execTapInstruction, atTime, State.on, hknown]

theorem Block.die_onDie_self {b : Block} {d : Nat} (hd : d < b.dies.length) (f : Die → Die) : (b.onDie d f).die d = f (b.die d) := by
  rw [Block.die, Block.die, Block.onDie_dies, modAt_eq_modify, List.getElem?_modify_eq, List.getElem?_eq_getElem hd]
  rfl

/-- Settles O56: slots, monitors, telemetry, the log and boundary scan, each by its row. -/
theorem selfTestsMonitorsAndLog : Obligations.SelfTestsMonitorsAndLog := by
  unfold Obligations.SelfTestsMonitorsAndLog
  intro s t u raised
  have hu : s.on (fun b => b.advanceTo t) = u := rfl
  have hmem : u.mem = s.mem := rfl
  have hpending : u.pending = s.pending := rfl
  clear_value u
  refine ⟨fun slot rel hon hslot hlen hfree htime diag => ⟨?_, ?_, fun hspare => ?_, fun hspare => ?_⟩,
    fun slot ok rel diag hon hslot => ⟨fun htime hdefers hlen => ?_, fun htime => exec_selfTestSlot_otherwise hu hon hslot htime .., fun htime =>
      exec_selfTestSlot_spare hu hon (Nat.mod_lt _ (by decide)) htime ..⟩,
    ⟨exec_bellLineTest hu true, ?_⟩, fun pair => ⟨fun hpair => ?_, fun hpair => ?_⟩, fun src hnew => ?_,
    fun src x hout => ⟨fun hshort => ?_, fun hlong => ?_, fun hlong => ?_, fun hshort => ?_⟩,
    fun w hon hms hmask => ?_, fun q hasked hnew => ?_, fun hstandby hdue => ?_, fun ir => hu ▸ exec_tapInstruction s t ir⟩
  · have hcroft := Block.croft_onCroft_self (b := u.m.slotBegins slot) (by rwa [Block.length_slotBegins]) (fun c => { c with lastPass := (u.m.slotBegins slot).span + 5000 })
    rw [Block.slotBegins_croft hlen] at hcroft
    exact ⟨_, (exec_selfTestSlot hu hon hslot htime ..).trans (congrArg Host.Outcome.next (State.activeSlot_passes hfree rel diag)), hmem, congrArg Croft.lastPass hcroft,
      congrArg Croft.slotOwed hcroft, (congrArg Croft.stopped hcroft).trans rfl⟩
  · have harrived := State.raiseErr_arrives (e := slotErrorT slot) nofun nofun (u.on (fun b => b.slotFails slot (fun c => { c with stopped := true })))
    refine ⟨_, (exec_selfTestSlot hu hon hslot htime ..).trans (congrArg Host.Outcome.next ((State.activeSlot_fails_held hfree diag).trans harrived)), hmem, ?_, _, rfl, rfl, rfl⟩
    exact congrArg Croft.stopped (Block.slotFails_croft hlen _)
  · obtain ⟨hcroft, -, harrived, -, hfree'⟩ := State.slotErrorJ_raised (s := u) hlen (u.m.instant (u.m.croft slot).lastPass)
    refine ⟨_, (exec_selfTestSlot hu hon hslot htime ..).trans (congrArg Host.Outcome.next ((State.activeSlot_fails_released hfree diag).trans (if_pos (hfree'.trans hspare)))), ?_, ?_,
      harrived⟩ <;> rw [hcroft] <;> rfl
  · obtain ⟨hcroft, hlen', harrived, hruns, hfree'⟩ := State.slotErrorJ_raised (s := u) hlen (u.m.instant (u.m.croft slot).lastPass)
    have hexec := (exec_selfTestSlot hu hon hslot htime ..).trans (congrArg Host.Outcome.next
      ((State.activeSlot_fails_released hfree diag).trans (if_neg (ne_true_of_eq_false (hfree'.trans hspare)))))
    obtain ⟨hstopped, hsuspect, hkept, hpends, hleaves⟩ := State.diagnosed_fields (n := slot) (hlen'.symm ▸ hlen) diag
    exact ⟨_, hexec, hstopped.trans (congrArg Croft.stopped hcroft), hsuspect, hkept.trans harrived, fun hfails h => hpends hfails (hruns.trans h),
      fun hfails h => hleaves hfails (hruns.trans h)⟩
  · refine ⟨_, (exec_selfTestSlot hu hon hslot htime ..).trans (congrArg Host.Outcome.next (State.activeSlot_deferred hdefers ..)), hmem, ?_, rfl⟩
    rw [State.on_m, Block.croft_onCroft_self (by rwa [Block.bump_crofts])]
  · have harrived := State.raiseErr_arrives (e := { cls := .m, code := 0x0A, at_ := 0, cause := 11 }) nofun nofun (u.on (·.bump .bellTestsFailed))
    exact ⟨_, (exec_bellLineTest hu false).trans (congrArg Host.Outcome.next harrived), hmem, ⟨_, rfl, rfl, rfl⟩, Block.count_bump_self ..⟩
  · have harrived := State.raiseErr_arrives (e := { cls := .m, code := 0x21, at_ := 0, cause := 3 }) nofun nofun (u.on (·.bump .lockstepMismatches))
    exact ⟨_, (exec_lockstepMismatch hu hpair).trans (congrArg Host.Outcome.next harrived), hmem, _, rfl, rfl, rfl⟩
  · subst hpair
    have hlogs := State.alertsOnly_logC ((u.on (·.bump .lockstepMismatches)).on (fun b => { b with boot := { b.boot with planeUp := false } }))
    exact ⟨_, (exec_lockstepMismatch_management hu).trans (congrArg Host.Outcome.next (State.raiseErr_classC rfl _)), hmem, congrArg Boot.planeUp (hlogs _).boot, (hlogs _).arrived⟩
  · subst hu
    cases src with
    | computeDie d rail =>
      refine ⟨_, exec_monitorExcursion_die hnew, rfl, rfl, fun d' rail' hsrc hd => ?_⟩
      cases hsrc
      exact congrArg Die.hold (Block.die_onDie_self (b := (s.m.advanceTo t).leavesWindow (.computeDie d rail)) hd _)
    | other n => exact ⟨_, exec_monitorExcursion_other hnew, rfl, rfl, nofun⟩
  · have hexec := (exec_monitorReturn hu hout).trans (congrArg Host.Outcome.next (if_neg (Nat.not_le.mpr hshort)))
    obtain ⟨hsame, hgone, hcounts, hlogs⟩ := State.windowEnds_raised (e := returnError src) (by cases src <;> nofun) u src .monitorExcursions 0
    refine ⟨_, hexec, hsame.trans hmem, hgone, fun d rail hsrc => ?_, fun n hsrc => ?_⟩
    · subst hsrc
      rw [← monCause_computeDie d]
      exact hcounts nofun
    · subst hsrc
      exact hlogs rfl
  · exact (exec_monitorReturn hu hout).trans (congrArg Host.Outcome.next (if_pos hlong))
  · have hexec := (exec_monitorTrip hu hout).trans (congrArg Host.Outcome.next (if_neg (Nat.not_lt.mpr hlong)))
    obtain ⟨hsame, hgone, hcounts, -⟩ := State.windowEnds_raised (e := tripError src ((u.m.windowEnds src .monitorTrips 1).instant x.2)) (by cases src <;> nofun) u src .monitorTrips 1
    refine ⟨_, hexec, hsame.trans hmem, hgone, fun d rail hsrc => ?_, fun n hsrc => ?_⟩
    · subst hsrc
      rw [← monCause_computeDie d]
      exact hcounts nofun
    · subst hsrc
      rw [← monCause_other]
      exact hcounts nofun
  · exact (exec_monitorTrip hu hout).trans (congrArg Host.Outcome.next (if_pos hshort))
  · exact ⟨_, exec_telemetrySample hu hon hms hmask w, hmem, u.m.count_sampleLife w⟩
  · have hstreams := State.alertsOnly_streamLog (u.on (fun b => { b with safety := { b.safety with exportSeq := q, exportDrop := false } })) u.m.lifeExport 0
      (ceilDiv u.m.lifeExport.length 4096)
    exact ⟨_, exec_logExport hu hasked hnew, hstreams.exportSeq, hstreams.pending.trans hpending⟩
  · exact ⟨_, exec_logCommit hu hstandby hdue, hmem, rfl, rfl, rfl, fun a b => u.m.commitLife_counts a b⟩

end Sys2Proof.Machine
